-- ==== Sys2Proof/Word.lean ====
section
/-! DEFINITION. The word types of the B9: bytes of memory and the 64-bit register word of R6. -/
namespace Sys2Proof

/-- One byte of the byte-addressed memory. -/
abbrev Byte := BitVec 8

/-- The content of one register (R6: every register is 64 bits wide). -/
abbrev Word := BitVec 64

end Sys2Proof
end

