-- ==== Sys2Proof/Syntax.lean ====
section
/-! DEFINITION. The commands of the B9, one constructor for each row of the operations table, with the operands the row
carries; and the types of those operands. Commands of an engine's stream carry only the engine's identifier (R61): the engine
fetches the entry at its own position in its segment. -/
namespace Sys2Proof

/-- Who makes a register access (R41, R42, R611): a hart at supervisor or user privilege, the Keeper, the management
sideband, a PCIe agent that a partition has registered through its regions, or a remote package. -/
inductive Requester where
  | hart (h : Nat) (supervisor : Bool)
  | keeper
  | sideband
  | pcie (partition : Nat)
  | remote (pkg : Nat)
  deriving DecidableEq, Repr

/-- An agent of the coherence protocol (R393): a hart, a die cache by die number (R28), or a requester without a cache:
a root port or a remote package. -/
inductive Agent where
  | hart (h : Nat)
  | dieCache (die : Nat)
  | port (p : Nat)
  | remote
  deriving DecidableEq, Repr

/-- What the medium's error correction finds in a read: nothing, a correctable error, an uncorrectable one (R352, R353,
R392); for flash a failed sector decode, or two failed pages of one stripe (R321). -/
inductive Ecc where
  | clean | correctable | uncorrectable
  deriving DecidableEq, Repr

/-- The kinds of inbound PCIe request (R405, R407). -/
inductive PcieKind where
  | read | write | fetchAdd | swap | cas
  deriving DecidableEq, Repr

/-- A crossing queue (R202): mailbox m of partition p as index 3 p + m (R213), a die's log queue (R581), or any other queue
by die and clock domains with the number of entries it holds. -/
inductive QueueId where
  | mailbox (i : Nat)
  | log (die : Nat)
  | other (die writer reader held : Nat)
  deriving DecidableEq, Repr

/-- Where the Keeper takes a message from (R562, R602): the front of a partition's H2K mailbox, or an 8-byte write to the
management sideband, which carries its entry. -/
inductive KeeperSource where
  | mailbox (p : Nat)
  | sideband (entry : Nat)
  deriving DecidableEq, Repr

/-- A message of Morco Link with the fields of R470 to R474. -/
structure LinkMsg where
  src : Nat
  dst : Nat
  hops : Nat
  tag : Nat
  space : Nat
  part : Nat
  addr : Nat
  len : Nat
  epoch : Nat
  gr : Bool
  poison : Bool
  data : List Byte
  deriving DecidableEq, Repr

/-- The commands. -/
inductive Instr where
  /-- REGISTER_WRITE: a write of bytes bytes at a register-space address by a requester (R20). -/
  | registerWrite (rq : Requester) (addr bytes value : Nat)
  /-- COUNTER_LOWER_HALF_READ: a 32-bit read at a register-space address (R15). -/
  | counterLowerHalfRead (rq : Requester) (addr : Nat)
  /-- VIOL_CLEAR: KPR_VIOL_CLEAR.CLEAR written with 1 (R49). -/
  | violClear (rq : Requester)
  /-- EXPERT_SETTING_APPLY: deferred expert settings whose watch has come take effect (R26). -/
  | expertSettingApply
  /-- PROBE_START: a write to KPR_PROBE_CTRL (R50). -/
  | probeStart (rq : Requester) (value : Nat)
  /-- PROBE_DONE: the running latency probe ends with these latencies in ns (R50). -/
  | probeDone (min max mean : Nat)
  /-- TRACKER_ENTRY_FREE: an entry of a tensor die's transaction tracker frees (R37). -/
  | trackerEntryFree (die : Nat)
  /-- WATCH_START: the timebase starts a new watch (R51). -/
  | watchStart
  /-- HOLDOVER_ENTRY: four watches without a timing message (R54). -/
  | holdoverEntry
  /-- ACQUIRE_TIMEOUT: 16,384 watches in ACQUIRING (R54). -/
  | acquireTimeout
  /-- TB_LOCK: 16 watches with the offset within 20 ns (R54). -/
  | tbLock
  /-- TB_LOCK_LOST: 4 watches with the offset beyond 20 ns (R54). -/
  | tbLockLost
  /-- WATCH_UNLOCKED: the error bound of HOLDOVER passes 20 ns (R55). -/
  | watchUnlocked
  /-- HOLDOVER_SPLIT: the error bound of HOLDOVER passes 10 us (R54). -/
  | holdoverSplit
  /-- JOIN: a write to WCH_TB_CTRL (R57). -/
  | join (rq : Requester) (value : Nat)
  /-- WATCH_COUNT_STEP: after an accepted JOIN the watch count steps to the master's count (R57). -/
  | watchCountStep (count : Nat)
  /-- TIME_REQ_SEND: a follower stamps T1 and sends TIME_REQ on its parent port (R479). -/
  | timeReqSend
  /-- TIME_REQ_RECEIVE: TIME_REQ arrives at a port (R479). -/
  | timeReqReceive (die port t1 : Nat)
  /-- TIME_RSP_RECEIVE: TIME_RSP arrives from the parent (R479). -/
  | timeRspReceive (t1 t2 t3 : Nat) (locked : Bool)
  /-- GO: a write of WCH_SUB_CTRL.GO through partition p's alias window (R65). -/
  | go (rq : Requester) (p value : Nat)
  /-- PLAN_ADMIT: the admission unit decides the next queued plan (R67). -/
  | planAdmit
  /-- CANCEL: a write of WCH_SUB_CTRL.CANCEL through partition p's alias window (R82). -/
  | cancel (rq : Requester) (p value : Nat)
  /-- SLOT_START: the first granule of an engine's next guaranteed slot (R74). -/
  | slotStart (e : Nat)
  /-- BE_SLOT_START: an engine starts a best-effort slot in a gap (R76). -/
  | beSlotStart (e : Nat)
  /-- BE_SUSPEND: a running best-effort slot is suspended (R76). -/
  | beSuspend (e : Nat)
  /-- BE_RESUME: a suspended best-effort slot resumes (R76). -/
  | beResume (e : Nat)
  /-- SLOT_WATCHDOG: the end of the last granule of a guaranteed slot (R77). -/
  | slotWatchdog (e : Nat)
  /-- SEGMENT_END: the engine reaches the end of its segment (R176). -/
  | segmentEnd (e : Nat)
  /-- MLOAD: MLOAD on a matrix engine (R92). -/
  | mload (e : Nat)
  /-- SHADOW_LOAD_DONE: the shadow plane's load completes (R90). -/
  | shadowLoadDone (e : Nat)
  /-- MSTREAM: MSTREAM on a matrix engine (R101). -/
  | mstream (e : Nat)
  /-- SWAP: the planes exchange (R91). -/
  | swap (e : Nat)
  /-- MFENCE: MFENCE on a matrix engine (R117). -/
  | mfence (e : Nat)
  /-- MFENCE_COMPLETE: a matrix fence completes (R117). -/
  | mfenceComplete (e : Nat)
  /-- ME_CTR_CLEAR: TDn_ME_CTR_CLEAR.CLEAR written with 1 (R128). -/
  | meCtrClear (rq : Requester) (die bank : Nat)
  /-- VLOAD: VLOAD on a vector engine (R135). -/
  | vload (e : Nat)
  /-- VSTORE: VSTORE on a vector engine (R137). -/
  | vstore (e : Nat)
  /-- VCHAIN: VCHAIN on a vector engine (R140). -/
  | vchain (e : Nat)
  /-- VRED: VRED on a vector engine (R155). -/
  | vred (e : Nat)
  /-- VSCAN: VSCAN on a vector engine (R163). -/
  | vscan (e : Nat)
  /-- VCOMPRESS: VCOMPRESS on a vector engine (R160). -/
  | vcompress (e : Nat)
  /-- VEXPAND: VEXPAND on a vector engine (R161). -/
  | vexpand (e : Nat)
  /-- VXPOSE: VXPOSE on a vector engine (R165). -/
  | vxpose (e : Nat)
  /-- VCNT_SET: VCNT_SET on a vector engine (R159). -/
  | vcntSet (e : Nat)
  /-- VCNT_ADD: VCNT_ADD on a vector engine (R159). -/
  | vcntAdd (e : Nat)
  /-- VCNT_STORE: VCNT_STORE on a vector engine (R159). -/
  | vcntStore (e : Nat)
  /-- VFENCE: VFENCE on a vector engine (R156). -/
  | vfence (e : Nat)
  /-- VFENCE_COMPLETE: a vector fence completes (R156). -/
  | vfenceComplete (e : Nat)
  /-- VSIDE_ARM_SUM: VSIDE_ARM_SUM on a vector engine (R166). -/
  | vsideArmSum (e : Nat)
  /-- VSIDE_ARM_MAX: VSIDE_ARM_MAX on a vector engine (R166). -/
  | vsideArmMax (e : Nat)
  /-- VSIDE_STORE: VSIDE_STORE on a vector engine (R166). -/
  | vsideStore (e : Nat)
  /-- VE_CTR_CLEAR: TDn_VE_CTR_CLEAR.CLEAR written with 1 (R172). -/
  | veCtrClear (rq : Requester) (die bank : Nat)
  /-- NOP: NOP on any engine (R177). -/
  | nop (e : Nat)
  /-- END: END on any engine (R176). -/
  | endSegment (e : Nat)
  /-- BWAIT: BWAIT on any engine (R185). -/
  | bwait (e : Nat)
  /-- BWAIT_SATISFIED: the condition of a waiting BWAIT is true (R187). -/
  | bwaitSatisfied (e : Nat)
  /-- BWAIT_EXPIRED: the limit of a waiting BWAIT passes (R190). -/
  | bwaitExpired (e : Nat)
  /-- BSIGNAL: BSIGNAL on any engine (R185). -/
  | bsignal (e : Nat)
  /-- BADD: BADD on any engine (R185). -/
  | badd (e : Nat)
  /-- BCMP: BCMP on any engine (R185). -/
  | bcmp (e : Nat)
  /-- MPOST: MPOST on any engine (R210). -/
  | mpost (e : Nat)
  /-- TSTAMP: TSTAMP on any engine (R178). -/
  | tstamp (e : Nat)
  /-- DOORBELL_WRITE: a write to BUY_DOORBELL d through partition p's alias window (R182). -/
  | doorbellWrite (rq : Requester) (p d value : Nat)
  /-- BUY_SIGNAL: a 64-bit write to BUY_SIGNAL through partition p's alias window (R191). -/
  | buySignal (rq : Requester) (p value : Nat)
  /-- BUY_ADD: a 64-bit write to BUY_ADD through partition p's alias window (R191). -/
  | buyAdd (rq : Requester) (p value : Nat)
  /-- CCOPY: CCOPY on a copy engine (R195). -/
  | ccopy (e : Nat)
  /-- CFILL: CFILL on a copy engine (R196). -/
  | cfill (e : Nat)
  /-- CFENCE: CFENCE on a copy engine (R196). -/
  | cfence (e : Nat)
  /-- CFENCE_COMPLETE: a copy fence completes (R196). -/
  | cfenceComplete (e : Nat)
  /-- COMPLETION_RECORD_WRITE: the completion record of a finished copy is written (R197). -/
  | completionRecordWrite (e : Nat)
  /-- CE_CTR_CLEAR: TDn_CE_CTR_CLEAR.CLEAR written with 1 (R216). -/
  | ceCtrClear (rq : Requester) (die bank : Nat)
  /-- XQ_POINTER_MISMATCH: two copies of a crossing queue's pointer differ (R205). -/
  | xqPointerMismatch (q : QueueId)
  /-- XQ_RESET_DONE: a crossing queue's reset completes (R205). -/
  | xqResetDone (q : QueueId)
  /-- MBX_E2H_READ: a 64-bit read of MBX_E2H_READ through partition p's alias window (R211). -/
  | mbxE2HRead (rq : Requester) (p : Nat)
  /-- MBX_K2H_READ: a 64-bit read of MBX_K2H_READ through partition p's alias window (R211). -/
  | mbxK2HRead (rq : Requester) (p : Nat)
  /-- MBX_H2K_WRITE: a 64-bit write to MBX_H2K_WRITE through partition p's alias window (R211). -/
  | mbxH2KWrite (rq : Requester) (p value : Nat)
  /-- RESET_E2H: MBX_CTRL.RESET_E2H written with 1 (R212). -/
  | resetE2H (rq : Requester) (p : Nat)
  /-- RESET_H2K: MBX_CTRL.RESET_H2K written with 1 (R212). -/
  | resetH2K (rq : Requester) (p : Nat)
  /-- RESET_K2H: MBX_CTRL.RESET_K2H written with 1 (R212). -/
  | resetK2H (rq : Requester) (p : Nat)
  /-- MBX_RESET_DONE: a commanded mailbox reset completes (R212). -/
  | mbxResetDone (p m : Nat)
  /-- INJECT_FIRE: a write to BUY_X_INJECT (R214). -/
  | injectFire (rq : Requester) (value : Nat)
  /-- GROUP_APPLY_GO: a 64-bit write to COL_GRP_APPLY through the block window (R220). -/
  | groupApplyGo (rq : Requester) (g value : Nat)
  /-- GROUP_APPLY_EFFECT: captured group values take effect (R219). -/
  | groupApplyEffect (g : Nat)
  /-- CSTEP: CSTEP on a collective engine (R223). -/
  | cstep (e : Nat)
  /-- CREDUCE: CREDUCE on a collective engine (R225). -/
  | creduce (e : Nat)
  /-- COLL: a peer's COLL message arrives (R472). -/
  | coll (g tag step src off : Nat) (data : List Byte)
  /-- CREDUCE_COMPLETE: a running all-reduce has every contribution (R227). -/
  | creduceComplete (e : Nat)
  /-- EXCH_FAILED: an exchange fails (R230). -/
  | exchFailed (e : Nat)
  /-- CBEACON: CBEACON on a collective engine (R233). -/
  | cbeacon (e : Nat)
  /-- SUBROUND_OPEN: the next sub-round of a group's Beacon round opens (R235). -/
  | subroundOpen (g : Nat)
  /-- BEACON_MESSAGE: a Beacon message of 96 bytes arrives (R235). -/
  | beaconMessage (g : Nat) (data : List Byte)
  /-- BEACON_DECIDE: the last sub-round of a group's round closes (R237). -/
  | beaconDecide (g : Nat)
  /-- FLIP_TOGGLE: flip selectors of committed rounds toggle (R241). -/
  | flipToggle
  /-- UAPPLY: UAPPLY on an update-unit sequencer (R257). -/
  | uapply (e : Nat)
  /-- UAPPLY_COMPLETE: a UAPPLY completes (R265). -/
  | uapplyComplete (e : Nat)
  /-- XOPEN: XOPEN on a snapshot exporter (R271). -/
  | xopen (e : Nat)
  /-- XSHARD: XSHARD on a snapshot exporter (R273). -/
  | xshard (e : Nat)
  /-- XCLOSE: XCLOSE on a snapshot exporter (R274). -/
  | xclose (e : Nat)
  /-- STREAM_CLOSE_COMPLETE: the last write of a closing stream is acknowledged (R279). -/
  | streamCloseComplete (e : Nat)
  /-- XRELAY: XRELAY on a snapshot exporter (R275). -/
  | xrelay (e : Nat)
  /-- SEQ_CTR_CLEAR: UPD_SEQ_CTR_CLEAR.CLEAR written with 1 (R282). -/
  | seqCtrClear (rq : Requester) (seq : Nat)
  /-- EXP_CTR_CLEAR: UPD_EXP_CTR_CLEAR.CLEAR written with 1 (R282). -/
  | expCtrClear (rq : Requester) (exp : Nat)
  /-- ALLOC_GO: a write to TMV_ALLOC through partition p's alias window (R290). -/
  | allocGo (rq : Requester) (p value : Nat)
  /-- ALLOC_COMPLETE: the allocator answers partition p (R290). -/
  | allocComplete (p : Nat)
  /-- TMV_FREE: a write to TMV_FREE through partition p's alias window (R293). -/
  | tmvFree (rq : Requester) (p value : Nat)
  /-- FRAME_ZEROED: a freed frame has been zeroed (R291). -/
  | frameZeroed (base : Nat)
  /-- TMOVE: TMOVE on a tier mover (R295). -/
  | tmove (e : Nat)
  /-- FRAME_MOVE_DONE: the move of the frame at this physical base ends (R296). -/
  | frameMoveDone (base : Nat)
  /-- STOP_POINT: a routed fetch reaches its stop point (R299). -/
  | stopPoint (e : Nat)
  /-- TIER_LATE: a STATE fetch passes the start of its deadline watch (R298). -/
  | tierLate (e : Nat)
  /-- ROUTE_SETTLE: an armed route settles (R301). -/
  | routeSettle (route : Nat)
  /-- TMV_LEND_WRITE: a write to TMV_LEND j (R307). -/
  | tmvLendWrite (rq : Requester) (j value : Nat)
  /-- TMV_QUOTA_WRITE: a write to TMV_QUOTA of tier 1-4, or TMV_FW_QUOTA as tier 5, of partition p (R309). -/
  | tmvQuotaWrite (rq : Requester) (p tier value : Nat)
  /-- DEMOTION: one frame of an over-quota tier starts down (R311). -/
  | demotion (p tier : Nat)
  /-- FW_RESET: a write to TMV_FW_RESET (R312). -/
  | fwReset (rq : Requester) (value : Nat)
  /-- SUB_LOG_CONFIG_WRITE: a write to TMV_SUB_ADDR or TMV_SUB_CTRL (R313). -/
  | subLogConfigWrite (rq : Requester) (p : Nat) (ctrl : Bool) (value : Nat)
  /-- DURABLE_ADVANCE: the next watch's T3 writes are durable (R325). -/
  | durableAdvance
  /-- STRIPE_CLOSE: the flash layer closes its partial stripe (R326). -/
  | stripeClose
  /-- WRITE_CACHE_ROOM: room appears in the full write cache (R327). -/
  | writeCacheRoom
  /-- READ_LIMIT_RELOCATE: an erase block reaches READ_LIMIT (R322). -/
  | readLimitRelocate (block : Nat)
  /-- FLASH_PATROL: the flash patrol reads a block (R322, R610). -/
  | flashPatrol (block : Nat) (weak : Bool)
  /-- RELOCATION_DONE: the relocation of a block is durable (R323). -/
  | relocationDone (block : Nat)
  /-- DFT_LIFE_MARK: a write to DFT_LIFE_MARK (R340). -/
  | dftLifeMark (rq : Requester) (value : Nat)
  /-- FLASH_STACK_LOST: a flash stack fails (R341). -/
  | flashStackLost (stack : Nat)
  /-- STACK_REBUILD_DONE: the rebuild of a lost stack completes (R342). -/
  | stackRebuildDone (stack : Nat)
  /-- HBM_BAND_START: a new 25 us band starts at a stack's controller (R346). -/
  | hbmBandStart (stack : Nat)
  /-- HBM_QUEUE_ADMIT: a request of a class reaches the controller's queues (R348). -/
  | hbmQueueAdmit (stack cls : Nat) (write : Bool) (addr bytes : Nat)
  /-- HBM_REFRESH: the controller refreshes at the stack's temperature (R356). -/
  | hbmRefresh (stack temp : Nat)
  /-- HBM_SCRUB: the patrol scrub reads a granule (R357). -/
  | hbmScrub (stack off : Nat) (ecc : Ecc)
  /-- HBM_CTR_CLEAR: HBMn_CTR_CLEAR.CLEAR written with 1 (R362). -/
  | hbmCtrClear (rq : Requester) (stack : Nat)
  /-- TLB_MISS: an access of an engine misses the die TLB (R381). -/
  | tlbMiss (e va acc : Nat)
  /-- WALK_COMPLETE: a walk ends (R370). -/
  | walkComplete (walk : Nat)
  /-- SPILL_COPY_DONE: the save bank of a faulted slot has been copied to its spill slot (R376). -/
  | spillCopyDone (e : Nat)
  /-- FAULT_RESUME: MMU_RESUME written with ACTION 0 (R379). -/
  | faultResume (rq : Requester) (p slot : Nat)
  /-- FAULT_ABORT: MMU_RESUME written with ACTION 1 (R379). -/
  | faultAbort (rq : Requester) (p slot : Nat)
  /-- HELD_SLOT_RESTORE: a resumed held slot restores into its engine (R379). -/
  | heldSlotRestore (p slot : Nat)
  /-- INVALIDATE: a write to MMU_INV through partition p's alias window (R383). -/
  | invalidate (rq : Requester) (p value : Nat)
  /-- INVALIDATE_COMPLETE: a translation invalidation completes (R383). -/
  | invalidateComplete (p : Nat)
  /-- FQ_CONFIG_WRITE: a write to MMU_FQ_ADDR or MMU_FQ_CTRL (R384). -/
  | fqConfigWrite (rq : Requester) (p : Nat) (ctrl : Bool) (value : Nat)
  /-- MMU_CTR_CLEAR: MMU_CTR_CLEAR of a tensor die written with 1 (R384). -/
  | mmuCtrClear (rq : Requester) (die : Nat)
  /-- RD_SHARED: RD_SHARED reaches a line's home (R396). -/
  | rdShared (a : Agent) (addr : Nat) (ecc : Ecc)
  /-- RD_UNIQUE: RD_UNIQUE reaches a line's home, for a store of data at byte off (R396). -/
  | rdUnique (a : Agent) (addr : Nat) (data : List Byte) (off : Nat)
  /-- UPGRADE: UPGRADE reaches a line's home, for a store of data at byte off (R396). -/
  | upgrade (a : Agent) (addr : Nat) (data : List Byte) (off : Nat)
  /-- RD_ONCE: RD_ONCE reaches a line's home (R396). -/
  | rdOnce (a : Agent) (addr : Nat) (ecc : Ecc)
  /-- WR_LINE: WR_LINE reaches a line's home (R396). -/
  | wrLine (a : Agent) (addr : Nat) (data : List Byte) (poisoned : Bool)
  /-- WRITEBACK: a dirty line is evicted (R396). -/
  | writeback (a : Agent) (addr : Nat) (data : List Byte)
  /-- EVICT: a clean line is evicted (R396). -/
  | evict (a : Agent) (addr : Nat)
  /-- FORWARD_ANSWER: the owner answers the oldest forward of a line with data, or WRITTEN_BACK (R397). -/
  | forwardAnswer (addr : Nat) (data : Option (List Byte))
  /-- COH_TIMEOUT: a forward or invalidation stays unanswered (R398). -/
  | cohTimeout (addr : Nat)
  /-- PCIE_INBOUND_REQUEST: a request arrives at a root port (R407). -/
  | pcieInboundRequest (port : Nat) (kind : PcieKind) (addr len : Nat) (data : List Byte)
  /-- FENCE_READ: a read of a root port's FENCE page arrives (R402). -/
  | fenceRead (port : Nat)
  /-- FENCE_READ_COMPLETE: a fence read completes (R402). -/
  | fenceReadComplete (port : Nat)
  /-- PCIE_RELAY: a peer request arrives at a root port (R410). -/
  | pcieRelay (port : Nat) (kind : PcieKind) (addr len : Nat) (data : List Byte)
  /-- OUTBOUND_WINDOW_ACCESS: an agent accesses a PCIe window (R406). -/
  | outboundWindowAccess (a : Agent) (addr : Nat) (write : Bool) (data : List Byte)
  /-- PCIE_READ_TIMEOUT: an outbound read stays without a completion for 10 ms (R406). -/
  | pcieReadTimeout (port tag : Nat)
  /-- REGION_INV: a write to HST_REGION_INV (R412). -/
  | regionInv (rq : Requester) (value : Nat)
  /-- REGION_INV_COMPLETE: a region invalidation completes (R412). -/
  | regionInvComplete
  /-- EPOCH_TICK: the visibility epoch advances (R403). -/
  | epochTick
  /-- IOPEN: IOPEN on an order generator (R425). -/
  | iopen (e : Nat)
  /-- IRUN: IRUN on an order generator (R426). -/
  | irun (e : Nat)
  /-- IRUN_BUDGET_EXPIRE: the budget of a running IRUN is spent (R426). -/
  | irunBudgetExpire (e : Nat)
  /-- ICLOSE: ICLOSE on an order generator (R428). -/
  | iclose (e : Nat)
  /-- SAMPLE_FINISH: a sample of the running draw finishes (R427). -/
  | sampleFinish (e slot : Nat)
  /-- INT_CTR_CLEAR: INTn_CTR_CLEAR.CLEAR written with 1 (R449). -/
  | intCtrClear (rq : Requester) (die : Nat)
  /-- IDL_CONFIG_WRITE: a write to INT0_IDL_ADDR or INT0_IDL_CTRL (R449). -/
  | idlConfigWrite (rq : Requester) (p : Nat) (ctrl : Bool) (value : Nat)
  /-- LASER_LOW: a laser input falls below its threshold (R452). -/
  | laserLow (connector : Nat)
  /-- LASER_RESTORED: a laser input recovers (R452). -/
  | laserRestored (connector : Nat)
  /-- FLIT_RECEIVE: a flit arrives at a port; fec is what the decoder found in the codeword pair it opens (R453, R458). -/
  | flitReceive (die port : Nat) (fec : Ecc) (data : List Byte)
  /-- REPLAY_REQ_RECEIVE: a replay request arrives (R462). -/
  | replayReqReceive (die port seq : Nat)
  /-- REPLAY_REQ_REPEAT: a replay request is repeated (R458). -/
  | replayReqRepeat (die port : Nat)
  /-- REPLAY_TIMEOUT: the replay timer of a port expires (R463). -/
  | replayTimeout (die port : Nat)
  /-- RD_REQ: a remote read request arrives (R473). -/
  | rdReq (die : Nat) (msg : LinkMsg)
  /-- REMOTE_READ_SERVE: the i-th waiting remote read of a link die is served (R474). -/
  | remoteReadServe (die k : Nat)
  /-- WR_REQ: a remote write request arrives (R473). -/
  | wrReq (die : Nat) (msg : LinkMsg)
  /-- REG_RD: a remote register read arrives (R473). -/
  | regRd (die : Nat) (msg : LinkMsg)
  /-- REG_WR: a remote register write arrives (R473). -/
  | regWr (die : Nat) (msg : LinkMsg)
  /-- REMOTE_WRITE_ACKED: the i-th waiting remote write is acknowledged on the fabric (R474). -/
  | remoteWriteAcked (die k : Nat)
  /-- RD_RSP: a read response arrives (R474). -/
  | rdRsp (die : Nat) (msg : LinkMsg)
  /-- WR_ACK: a write acknowledgement arrives (R474). -/
  | wrAck (die : Nat) (msg : LinkMsg)
  /-- REG_RSP: a register response arrives (R474). -/
  | regRsp (die : Nat) (msg : LinkMsg)
  /-- RSP_TIMEOUT: a request stays without response for RSP_US (R475). -/
  | rspTimeout (die tag : Nat)
  /-- PORT_CHANGE: a captured port change starts (R486). -/
  | portChange (die port value : Nat)
  /-- RETRAIN: LNK_PORT_CTRL.RETRAIN written with 1 (R496). -/
  | retrain (rq : Requester) (die port : Nat)
  /-- FULL_TRAIN: LNK_PORT_CTRL.FULL_TRAIN written with 1 (R496). -/
  | fullTrain (rq : Requester) (die port : Nat)
  /-- CHANGE: LNK_PORT_CTRL.CHANGE written with 1 (R486). -/
  | change (rq : Requester) (die port value : Nat)
  /-- TRAINING_COMPLETE: training of a port completes with this peer (R482). -/
  | trainingComplete (die port pkg peer : Nat)
  /-- TRAINING_FAIL: a training step fails (R482). -/
  | trainingFail (die port cause : Nat)
  /-- TRAINING_RETRY: a failed port trains again (R482). -/
  | trainingRetry (die port : Nat)
  /-- PORT_DOWN: a port leaves UP (R484). -/
  | portDown (die port : Nat)
  /-- ETH_QP_BASE_WRITE: a write to LNK0_ETH_QP_BASE (R492). -/
  | ethQpBaseWrite (rq : Requester) (value : Nat)
  /-- ETH_QP_ERROR: a queue pair fails (R493). -/
  | ethQpError (h : Nat)
  /-- RDMA_INBOUND: an inbound RDMA WRITE or READ arrives (R494). -/
  | rdmaInbound (qpn ip srcQpn rkey addr len : Nat) (write : Bool) (data : List Byte)
  /-- ETH_HANDLE_RESET: LNK0_ETH_HSTATUS written with a mask (R495). -/
  | ethHandleReset (rq : Requester) (mask : Nat)
  /-- LNK_CTR_CLEAR: LNKn_CTR_CLEAR.CLEAR written with 1 (R495). -/
  | lnkCtrClear (rq : Requester) (die : Nat)
  /-- POWER_UP: the power-up sequence runs, failing at a rail or not (R525). -/
  | powerUp (fail : Option Nat)
  /-- SEXTANT_BAND: a band of the Sextant (R508). -/
  | sextantBand (inputW vin : Nat) (energies : List Nat)
  /-- FAST_LIMIT: the 10 us average passes 5,900 W, or an excursion above 5,600 W reaches 16 ms (R510). -/
  | fastLimit
  /-- OP_CHANGE_DONE: a tensor die's operating-point change completes (R503). -/
  | opChangeDone (die : Nat)
  /-- MODE_TAKES_EFFECT: a written power mode takes effect (R512). -/
  | modeTakesEffect
  /-- UNIT_UNAVAILABLE: a retired unit becomes unavailable (R576). -/
  | unitUnavailable (unit : Nat)
  /-- THERMAL_SAMPLE: the Sextant reads a temperature sensor (R519). -/
  | thermalSample (source temp : Nat)
  /-- EMERGENCY_END: a thermal emergency ends (R522). -/
  | emergencyEnd
  /-- POWER_FAIL_WARNING: the input is below 42.0 V for 1 us (R529). -/
  | powerFailWarning
  /-- POWER_DOWN: the ordered power-down runs (R528). -/
  | powerDown
  /-- POWER_RESTORE: the input recovers after a power-fail warning (R531). -/
  | powerRestore
  /-- RAIL_FAULT: a rail fault (R533). -/
  | railFault (rail : Nat)
  /-- RAIL_OUT_OF_WINDOW: a rail leaves its window (R533). -/
  | railOutOfWindow (rail : Nat)
  /-- OVER_VOLTAGE: the input passes its over-voltage limit (R596). -/
  | overVoltage
  /-- REFCLK_LOSS: the reference clock is lost (R599). -/
  | refclkLoss
  /-- REFCLK_RESTORE: the reference clock returns (R599). -/
  | refclkRestore
  /-- PWR_CTR_CLEAR: PWR_CTR_CLEAR.CLEAR written with 1 (R534). -/
  | pwrCtrClear (rq : Requester)
  /-- STAGE_KEEPER: boot stage 1: firmware copies that verify, spare maps whose check word matches, its duration (R539). -/
  | stageKeeper (copies spareOk ms : Nat)
  /-- STAGE_CHART: boot stage 2 (R549). -/
  | stageChart (ms : Nat)
  /-- STAGE_CLOCKS_AND_NETWORK: boot stage 3, failing at a die or not (R537). -/
  | stageClocksAndNetwork (fail : Option Nat) (full : Bool) (ms : Nat)
  /-- STAGE_MEMORIES: boot stage 4: a failing stack, the DIMMs fitted (R537). -/
  | stageMemories (hbmFail : Option Nat) (dimm dimmGiB dimmMts : Nat) (full : Bool) (ms : Nat)
  /-- STAGE_LINKS: boot stage 5: link states of the root ports (R537). -/
  | stageLinks (pcie : List Nat) (full : Bool) (ms : Nat)
  /-- STAGE_COMPUTE: boot stage 6, failing at a die or not (R537). -/
  | stageCompute (fail : Option Nat) (ms : Nat)
  /-- CHART_WRITE: CHT_CTRL.WRITE written with 1 (R552). -/
  | chartWrite (rq : Requester) (slot : Nat)
  /-- CHART_SELECT: CHT_CTRL.SELECT written with 1 (R552). -/
  | chartSelect (rq : Requester) (slot : Nat)
  /-- LIC_INSTALL: CHT_CTRL.LIC_INSTALL written with 1 (R554). -/
  | licInstall (rq : Requester)
  /-- INV_SETTINGS: CHT_CTRL.INV_SETTINGS written with 1 (R541). -/
  | invSettings (rq : Requester)
  /-- CHART_RESET: CHT_CTRL.RESET written with 1 (R552). -/
  | chartReset (rq : Requester)
  /-- CHT_COMMAND_END: the running CHT command ends (R566). -/
  | chtCommandEnd
  /-- PING: the Keeper takes a partition's front message or a sideband entry, a PING (R562). -/
  | ping (kmsg : KeeperSource)
  /-- IDENTITY: the Keeper takes a partition's front message or a sideband entry, an IDENTITY (R562). -/
  | identity (kmsg : KeeperSource)
  /-- DEBUG_OPEN: the Keeper takes a partition's front message or a sideband entry, a DEBUG_OPEN (R559). -/
  | debugOpen (kmsg : KeeperSource)
  /-- DEBUG_OPENED: the debug erasure completes (R560). -/
  | debugOpened
  /-- KEEPER_REPLY: a waiting Keeper reply enters K2H (R562). -/
  | keeperReply (p : Nat)
  /-- SPARE_MAPPING_EFFECT: a written spare mapping takes effect (R558). -/
  | spareMappingEffect
  /-- SB_REG_RD: an 8-byte sideband write whose entry is a REG_RD (R602). -/
  | sbRegRd (entry : Nat)
  /-- SB_REG_WR: two 8-byte sideband writes: a REG_WR entry and its raw data (R602). -/
  | sbRegWr (entry raw : Nat)
  /-- SB_BLOCK: 8-byte sideband writes: a BLOCK entry and raw entries after it, or more raw entries of the block under way (R602). -/
  | sbBlock (entry : Nat) (raw : List Nat)
  /-- SB_BLOCK_TIMEOUT: a sideband transfer stalls (R602). -/
  | sbBlockTimeout
  /-- SB_REPLY_READ: the board reads a sideband reply (R602). -/
  | sbReplyRead
  /-- SYS_RESET: SYS_RESET_N is held low (R605). -/
  | sysReset (ms : Nat)
  /-- PATTERN_LOAD_DONE: a scan segment's patterns are loaded (R569). -/
  | patternLoadDone (unit : Nat) (poisoned : Bool)
  /-- FT_SEGMENT_START: a test segment starts (R570). -/
  | ftSegmentStart (unit : Nat)
  /-- FT_SEGMENT_END: a test segment ends (R574). -/
  | ftSegmentEnd (unit : Nat) (pass : Bool)
  /-- FT_STARVED: a unit becomes test-starved by time (R572). -/
  | ftStarved (unit : Nat)
  /-- FTS_RUN: a write to FTS_RUN (R589). -/
  | ftsRun (rq : Requester) (value : Nat)
  /-- FTS_CTR_CLEAR: FTS_CTR_CLEAR.CLEAR written with 1 (R589). -/
  | ftsCtrClear (rq : Requester)
  /-- LOG_EVENT_RECEIVE: the Keeper takes the oldest entry of a die's log queue (R578). -/
  | logEventReceive (die : Nat)
  /-- LOG_WINDOW_END: a window of 4,096 watches ends (R580). -/
  | logWindowEnd
  /-- INCIDENT_CLOSE: the open incident closes after its quiet time (R585). -/
  | incidentClose
  /-- LOG_RD_SEL_WRITE: a write to LOG_RD_SEL (R592). -/
  | logRdSelWrite (rq : Requester) (value : Nat)
  /-- LOG_READ_READY: the selected Logbook bytes are copied (R592). -/
  | logReadReady
  /-- TRACE_CONFIG_WRITE: a write to LOG_TRACE_ADDR or LOG_TRACE_CTRL (R591). -/
  | traceConfigWrite (rq : Requester) (ctrl : Bool) (value : Nat)
  /-- OUTBOUND_READ_COMPLETION: a completion arrives for an outbound read (R406). -/
  | outboundReadCompletion (port tag : Nat) (ok : Bool) (data : List Byte)
  /-- DOWNSTREAM_MSI: a downstream device sends an MSI (R405). -/
  | downstreamMsi (port hart eiid : Nat)
  /-- ROCE_ACK_RECEIVE: a RoCE ACK or NAK arrives (R493). -/
  | roceAckReceive (h psn : Nat) (nak : Bool)
  /-- LOCAL_ACK_TIMEOUT: the acknowledgement timer of a handle expires (R490). -/
  | localAckTimeout (h : Nat)
  /-- CONGESTION_NOTIFICATION: a congestion notification arrives (R490). -/
  | congestionNotification (h : Nat)
  /-- RATE_RECOVERY: the rate of a handle recovers a step (R490). -/
  | rateRecovery (h : Nat)
  /-- PRIORITY_FLOW_CONTROL: a priority flow control frame arrives (R489). -/
  | priorityFlowControl (oe prio : Nat) (pause : Bool)
  /-- FLIT_SLOT: a transmit slot of a port (R457). -/
  | flitSlot (die port : Nat)
  /-- POWER_UP_RETRY: a failed power-up is tried again (R533). -/
  | powerUpRetry
  /-- FT_TEST_DUE: a unit's test becomes due (R575). -/
  | ftTestDue (unit : Nat)
  /-- INPUT_BELOW_DROPOUT: the input falls below dropout (R526). -/
  | inputBelowDropout
  deriving DecidableEq, Repr

end Sys2Proof
end

