-- ==== Sys2Proof/Decode.lean ====
section
/-! DEFINITION. The command a table word spells. The table of the B9's operations gives no row any bits: its commands are
register accesses, entries of streams and events, each of which reaches the block by its own path, so no word spells one. -/
namespace Sys2Proof

/-- The command that a word of nbits bits spells by the operations table: none, since no row has bits. -/
def decodeTableWord (_nbits _w : Nat) : Option Instr := none

end Sys2Proof
end

