-- ==== Sys2Proof/Config.lean ====
section
/-! DEFINITION. What an implementation fixes and what the spec leaves open: constants without a body, so that no proof can see
what they are and every claim holds whatever they are. A fresh free value is one of these applied to the counter State.free
(log entry 3). -/
namespace Sys2Proof.Config

/-- A number the spec leaves open. -/
opaque freeNat : Nat → Nat
/-- A bit the spec leaves open. -/
opaque freeBool : Nat → Bool
/-- A byte the spec leaves open. -/
opaque freeByte : Nat → Byte
/-- A register word the spec leaves open. -/
opaque freeWord : Nat → Word

/-- The bits a vector engine returns for a T-class function (its OP) of an FP32 code (R150): the same on every engine of every
B9, within the errors that R150 states. -/
opaque vectorFn : (op : Nat) → (x : Nat) → Nat

/-- The erase block that holds a flash sector after a number of relocations: the translation layer's own layout. -/
opaque eraseBlock : (moves sector : Nat) → Nat

/-- The row of an HBM stack that holds a granule, by its stack offset: the stack's own layout. -/
opaque hbmRow : (off : Nat) → Nat

/-- The 64 KiB HBM frames, by number, that hold a byte of a row of a stack (R360). -/
opaque rowFrames : (stack row : Nat) → List Nat

/-- What a Zstandard decompressor makes of a block's stored body (R433, RFC 8878): its raw bytes, none for a frame it refuses. -/
opaque zstd : (stored : List Byte) → Option (List Byte)
/-- A sample of a component plane of a JPEG payload (R434, R435, ITU-T T.81): the same in every decoder. -/
opaque jpegSample : (payload : List Byte) → (component x y : Nat) → Byte
/-- Does a decoder find a coding error in restart interval i of a JPEG payload (R434)? -/
opaque jpegError : (payload : List Byte) → (i : Nat) → Bool
/-- Where the spec does not say whether a payload's form is an error, whether the decoder takes it for one. -/
opaque payloadOpen : (payload : List Byte) → Bool
/-- What an intake engine writes where the spec states no result for a NaN: 0 the UINT8 cast, 1 the largest z of a cell. -/
opaque intakeNan : Nat → Nat

/-- ECDSA over P-384 with SHA-384 (FIPS 186-5): does the signature over the message verify under the public key? The spec
names the standard and does not restate it. -/
opaque ecdsaVerify : (key msg sig : List Byte) → Bool
/-- HMAC-SHA-384 under a key derived from the identity key with this number (R555). -/
opaque hmacTag : (identity : Nat) → (msg : List Byte) → List Byte
/-- The public part of a chart-signing key by its number: key number 0 is the one a new package has installed (R613). -/
opaque chartKey : Nat → List Byte
/-- The ROM keys: 0 Delbomund's licence key, 1 its debug key (R554, R559). -/
opaque romKey : Nat → List Byte
/-- The identity public key as a 97-byte uncompressed point (R562). -/
opaque identityPoint : Nat → List Byte

/-- The voltage entries in a tensor die's fuses (R501). -/
opaque fuseVoltage : (die op : Nat) → BitVec 16
/-- The check word of those entries. -/
opaque fuseCheck : (die : Nat) → BitVec 32
/-- Does a block received over the sideband verify (R539, R602)? Its form is not in the spec. kind: 1 and 2 firmware copies, 3 a
provisioning package. -/
opaque blockVerifies : (kind : Nat) → (block : List Nat) → Bool
/-- The chart-signing key slots that a provisioning package installs (R613), as a mask. -/
opaque provisionSlots : (block : List Nat) → Nat
/-- How a BOOT record codes the cause of the previous boot's end (R584): the spec names the field and not its values. -/
opaque endCode : Nat → Nat

end Sys2Proof.Config
end

