-- ==== Sys2Proof/Machine/Bits.lean ====
section
/-! DEFINITION. Bit fields, byte order, sign and the two check codes the spec names (R417's CRC-32C, R544's CRC-64). -/
namespace Sys2Proof.Machine

/-- A field of a register: its bits [hi:lo] (bit 0 the least significant). -/
structure Fld where
  hi : Nat
  lo : Nat
  deriving DecidableEq, Repr

/-- Bits [hi:lo] of a number. -/
def bits (v hi lo : Nat) : Nat := (v >>> lo) % 2 ^ (hi + 1 - lo)

/-- Bit n of a number. -/
def bit (v n : Nat) : Bool := v.testBit n

/-- The value of a field of a register word. -/
def fget (w : Word) (f : Fld) : Nat := (w >>> f.lo).toNat % 2 ^ (f.hi + 1 - f.lo)

/-- The bits a field occupies. -/
def fmask (f : Fld) : Word := BitVec.ofNat 64 ((2 ^ (f.hi + 1 - f.lo) - 1) <<< f.lo)

/-- A register word with one field replaced (the value is cut to the field's width). -/
def fset (w : Word) (f : Fld) (x : Nat) : Word :=
  (w &&& ~~~ fmask f) ||| (BitVec.ofNat 64 ((x % 2 ^ (f.hi + 1 - f.lo)) <<< f.lo))

/-- The little-endian number of a list of bytes (R6, R58, R174: every multi-byte field is little-endian). -/
def leNat : List Byte → Nat
  | [] => 0
  | b :: bs => b.toNat + 256 * leNat bs

/-- The n little-endian bytes of a number. -/
def leBytes : Nat → Nat → List Byte
  | 0, _ => []
  | n + 1, v => BitVec.ofNat 8 v :: leBytes n (v / 256)

/-- Bytes [off, off + n) of a list of bytes, as a little-endian number; bytes past the end count as zero. -/
def leAt (bs : List Byte) (off n : Nat) : Nat := leNat ((bs.drop off).take n)

/-- Byte off of a list of bytes. -/
def byteOf (bs : List Byte) (off : Nat) : Nat := leAt bs off 1

/-- Are bytes [off, off + n) all zero? -/
def zerosAt (bs : List Byte) (off n : Nat) : Bool := ((bs.drop off).take n).all (· == 0#8)

/-- Saturating 64-bit addition: the counter of R14. -/
def sat64 (a n : Nat) : Nat := min (a + n) (2 ^ 64 - 1)

/-- The two's-complement reading of the low n bits of a number. -/
def signed (n v : Nat) : Int :=
  if (v % 2 ^ n) < 2 ^ (n - 1) then ((v % 2 ^ n : Nat) : Int) else ((v % 2 ^ n : Nat) : Int) - 2 ^ n

/-- The n-bit two's-complement code of an integer. -/
def unsigned (n : Nat) (i : Int) : Nat := (i % (2 ^ n : Int)).toNat

/-- Rounding up division. -/
def ceilDiv (a b : Nat) : Nat := (a + b - 1) / b

/-- The set bits of a mask, in ascending order, among bits 0 to n - 1. -/
def setBits (mask n : Nat) : List Nat := (List.range n).filter (fun i => mask.testBit i)

/-- The number of set bits among bits 0 to n - 1. -/
def popCount (mask n : Nat) : Nat := (setBits mask n).length

/-- One bit of a reflected CRC register. -/
def crcBit (poly c : Nat) : Nat := if c % 2 = 1 then (c >>> 1) ^^^ poly else c >>> 1

/-- Eight bits of a reflected CRC register. -/
def crcByte (poly c : Nat) (b : Byte) : Nat :=
  crcBit poly (crcBit poly (crcBit poly (crcBit poly (crcBit poly (crcBit poly (crcBit poly (crcBit poly (c ^^^ b.toNat))))))))

/-- CRC-32C, the check of R417 (reflected polynomial 0x82F6_3B78, initial value and final XOR all ones). -/
def crc32c (bs : List Byte) : Nat := (bs.foldl (crcByte 0x82F63B78) 0xFFFFFFFF) ^^^ 0xFFFFFFFF

/-- CRC-64 of R544: ECMA-182 polynomial 0x42F0_E1EB_A9EA_3693, reflected input and output (0xC96C_5795_D787_0F42 is
that polynomial bit-reversed), initial value and final XOR all ones. -/
def crc64 (bs : List Byte) : Nat := (bs.foldl (crcByte 0xC96C5795D7870F42) 0xFFFFFFFFFFFFFFFF) ^^^ 0xFFFFFFFFFFFFFFFF

end Sys2Proof.Machine
end

