-- ==== Sys2Proof/Machine/RegMap.lean ====
section
/-! DEFINITION. The register map: for every register of the spec's tables (R47, R83, R127, R171, R213, R215, R247, R282,
R313, R343, R362, R384, R413, R414, R449, R495, R534, R563, R565, R589, R591) its name, its key in the register store, its
fields with their access types (R10), and what a partition's alias window shows of it (R43 to R46, R611).

The key of a register is its offset in the register space of R6; an instance that belongs to a partition (R611) lies 2^28
higher for each number p + 1, and the three instances of KPR_PSEL lie at numbers 33 to 35. -/
namespace Sys2Proof.Machine

/-- The access types of R9 and R10 (RSV is every bit no field lists). -/
inductive Acc where
  | ro | rw | w1c | w1s | rc | wo
  deriving DecidableEq, Repr

/-- The kinds of block window of R43. -/
inductive Blk where
  | kpr | cht | wch | pwr | log | fts | td | hbm | mmu | coh | buy | lnk | col | upd | int | tmv | dft | hst
  deriving DecidableEq, Repr

/-- What a register map says of a register's visibility: one instance per partition; shown through the alias window; reached
through the alias window only (kind 5 through a block window); a write through the alias window is a violation (R612); one
instance per requester class (KPR_PSEL); present in the block's first instance only. -/
inductive Vis where
  | part | shown | aliasOnly | aliasReadOnly | selector | first
  deriving DecidableEq, Repr

/-- Which resource a register shown through an alias slot belongs to: every partition sees it, or only the holder or sharers
of the engine, buoy, group, sequencer, exporter or draw context it belongs to; the last three mask bits of other partitions. -/
inductive Own where
  | all | cluster | copy | buoy | group | sequencer | exporter | context | flipMask | routeMask | die
  deriving DecidableEq, Repr

/-- The registers whose reads or writes do more than their fields' access types say. -/
inductive Hook where
  | plain
  | hKprViolClear | hKprProbeCtrl | hChtCtrl | hWchTbCtrl | hWchResvPct | hWchSubCtrl
  | hWchPartStatus | hPwrMode | hPwrCap | hPwrLearnRead | hPwrCtrClear | hLogLines
  | hLogRdSel | hLogTraceAddr | hLogTraceCtrl | hFtsStatus | hFtsUnit | hFtsUnitLast
  | hFtsRun | hFtsCtrClear | hTdMeCtrClear | hTdVeCtrClear | hTdCeCtrClear | hHbmCtrClear
  | hHbmCfg | hHbmXTune | hMmuInv | hMmuFqAddr | hMmuFqCtrl | hMmuResume
  | hMmuPartStatus | hMmuCtrClear | hMmuFlipStage | hMmuSpillCtrl | hBuySignal | hBuyAdd
  | hBuyDoorbell | hBuyArm | hBuyHit | hMbxE2HRead | hMbxE2HCount | hMbxH2KWrite
  | hMbxH2KCount | hMbxK2HRead | hMbxK2HCount | hMbxCtrl | hBuyXInject | hLnkPortCtrl
  | hLnkCtrClear | hLnk0EthQpBase | hLnk0EthHstatus | hColGrpApply | hColGrpStatus | hColBcnCfg
  | hColFlipSel | hUpdSeqCtrClear | hUpdExpCtrClear | hUpdHold | hInt0IdlAddr | hInt0IdlCtrl
  | hIntCtrClear | hTmvAlloc | hTmvFree | hTmvUse | hTmvQuota | hTmvFwQuota
  | hTmvPartStatus | hTmvSubAddr | hTmvSubCtrl | hTmvRouteSel | hTmvFwReset | hTmvLend
  | hDftLifeMark | hDftXTune | hHstRegionInv | hMmuRoot
  deriving DecidableEq, Repr

/-- One field of a register with its access type. -/
structure FieldDesc where
  fld : Fld
  acc : Acc
  deriving DecidableEq, Repr

/-- One row of a register map: name, offset in the block's window, its array dimensions (count, stride), visibility,
owner test, special behaviour and fields. -/
structure RegDesc where
  name : String
  off : Nat
  dims : List (Nat × Nat)
  vis : List Vis
  own : Own
  hook : Hook
  fields : List FieldDesc
  deriving DecidableEq, Repr

/-- The offset of the first window of a block kind (R43). -/
def Blk.base : Blk → Nat
  | .kpr => 0x0000000
  | .cht => 0x0100000
  | .wch => 0x0200000
  | .pwr => 0x0300000
  | .log => 0x0400000
  | .fts => 0x0500000
  | .td => 0x0800000
  | .hbm => 0x1000000
  | .mmu => 0x2000000
  | .coh => 0x2100000
  | .buy => 0x2200000
  | .lnk => 0x3000000
  | .col => 0x3800000
  | .upd => 0x3900000
  | .int => 0x4000000
  | .tmv => 0x4800000
  | .dft => 0x4900000
  | .hst => 0x4a00000

/-- The number of windows of a block kind (R43). -/
def Blk.count : Blk → Nat
  | .kpr => 1
  | .cht => 1
  | .wch => 1
  | .pwr => 1
  | .log => 1
  | .fts => 1
  | .td => 8
  | .hbm => 16
  | .mmu => 1
  | .coh => 1
  | .buy => 1
  | .lnk => 4
  | .col => 1
  | .upd => 1
  | .int => 2
  | .tmv => 1
  | .dft => 1
  | .hst => 1

/-- Every block kind, in the order of R43. -/
def Blk.list : List Blk := [.kpr, .cht, .wch, .pwr, .log, .fts, .td, .hbm, .mmu, .coh, .buy, .lnk, .col, .upd, .int, .tmv, .dft, .hst]

/-- The number of the instance of partition p (R611). -/
def partInst (p : Nat) : Nat := (p + 1) * 0x10000000

/-! The fields of the register tables, one constant each: REGISTER_FIELD. A 64-bit counter's only field is COUNT. -/
namespace F
def COUNT : Fld := ⟨63, 0⟩
def KPR_ID_DEVICE_DEVICE : Fld := ⟨63, 0⟩
def KPR_ID_INFO_REVISION : Fld := ⟨15, 0⟩
def KPR_ID_INFO_PROVISIONED : Fld := ⟨16, 16⟩
def KPR_ID_INFO_DEBUG_OPENED : Fld := ⟨17, 17⟩
def KPR_ID_INFO_ERASE_PENDING : Fld := ⟨18, 18⟩
def KPR_ID_INFO_CHART_KEYS : Fld := ⟨23, 20⟩
def KPR_BOOT_STATUS_STAGE : Fld := ⟨2, 0⟩
def KPR_BOOT_STATUS_FULL : Fld := ⟨3, 3⟩
def KPR_BOOT_STATUS_FAILED : Fld := ⟨4, 4⟩
def KPR_BOOT_STATUS_FAIL_DIE : Fld := ⟨12, 8⟩
def KPR_BOOT_STATUS_FAIL_CAUSE : Fld := ⟨23, 16⟩
def KPR_BOOT_MS_MS : Fld := ⟨31, 0⟩
def KPR_DBG_NONCE_NONCE : Fld := ⟨63, 0⟩
def KPR_VIOL_LAST_OFFSET : Fld := ⟨28, 0⟩
def KPR_VIOL_LAST_PARTITION : Fld := ⟨36, 32⟩
def KPR_VIOL_LAST_VIA_ALIAS : Fld := ⟨37, 37⟩
def KPR_VIOL_LAST_WRITE : Fld := ⟨38, 38⟩
def KPR_VIOL_LAST_KIND : Fld := ⟨41, 39⟩
def KPR_VIOL_LAST_SOURCE_DIE : Fld := ⟨46, 42⟩
def KPR_VIOL_LAST_VALID : Fld := ⟨63, 63⟩
def KPR_VIOL_CLEAR_CLEAR : Fld := ⟨0, 0⟩
def KPR_PSEL_PARTITION : Fld := ⟨4, 0⟩
def KPR_PSEL_EN : Fld := ⟨8, 8⟩
def KPR_PROBE_CTRL_SRC_DIE : Fld := ⟨4, 0⟩
def KPR_PROBE_CTRL_COUNT : Fld := ⟨23, 8⟩
def KPR_PROBE_CTRL_START : Fld := ⟨32, 32⟩
def KPR_PROBE_ADDR_ADDR_LO : Fld := ⟨31, 6⟩
def KPR_PROBE_ADDR_ADDR_HI : Fld := ⟨51, 32⟩
def KPR_PROBE_RESULT_MIN_NS : Fld := ⟨15, 0⟩
def KPR_PROBE_RESULT_MAX_NS : Fld := ⟨31, 16⟩
def KPR_PROBE_RESULT_MEAN_NS : Fld := ⟨47, 32⟩
def KPR_PROBE_RESULT_STACK : Fld := ⟨51, 48⟩
def KPR_PROBE_RESULT_ERROR : Fld := ⟨62, 62⟩
def KPR_PROBE_RESULT_DONE : Fld := ⟨63, 63⟩
def KPR_X_BOOT_FORCE_FULL : Fld := ⟨0, 0⟩
def KPR_X_BOOT_STAGE_HOLD : Fld := ⟨3, 1⟩
def CHT_STATUS_IN_EFFECT : Fld := ⟨1, 0⟩
def CHT_STATUS_SELECTED : Fld := ⟨2, 2⟩
def CHT_STATUS_BOOT_FAIL : Fld := ⟨11, 8⟩
def CHT_STATUS_OP_FAIL : Fld := ⟨19, 16⟩
def CHT_STATUS_OP_STATUS : Fld := ⟨21, 20⟩
def CHT_STATUS_SERIAL : Fld := ⟨63, 32⟩
def CHT_CTRL_WRITE : Fld := ⟨0, 0⟩
def CHT_CTRL_SELECT : Fld := ⟨1, 1⟩
def CHT_CTRL_LIC_INSTALL : Fld := ⟨2, 2⟩
def CHT_CTRL_INV_SETTINGS : Fld := ⟨3, 3⟩
def CHT_CTRL_RESET : Fld := ⟨4, 4⟩
def CHT_CTRL_SLOT : Fld := ⟨8, 8⟩
def CHT_IMG_ADDR_ADDR_LO : Fld := ⟨31, 3⟩
def CHT_IMG_ADDR_ADDR_HI : Fld := ⟨51, 32⟩
def CHT_IMG_LEN_BYTES : Fld := ⟨22, 0⟩
def CHT_SLOT_A_SERIAL : Fld := ⟨31, 0⟩
def CHT_SLOT_A_FAIL : Fld := ⟨35, 32⟩
def CHT_SLOT_A_PRESENT : Fld := ⟨63, 63⟩
def CHT_SLOT_B_SERIAL : Fld := ⟨31, 0⟩
def CHT_SLOT_B_FAIL : Fld := ⟨35, 32⟩
def CHT_SLOT_B_PRESENT : Fld := ⟨63, 63⟩
def CHT_FEATURES_FEATURES : Fld := ⟨4, 0⟩
def CHT_EXPERT_EN_EN : Fld := ⟨43, 0⟩
def CHT_ALARM_CHART_FALLBACK : Fld := ⟨0, 0⟩
def WCH_COUNT_COUNT_LO : Fld := ⟨31, 0⟩
def WCH_COUNT_COUNT_HI : Fld := ⟨47, 32⟩
def WCH_TB_STATUS_STATE : Fld := ⟨2, 0⟩
def WCH_TB_STATUS_ROLE : Fld := ⟨4, 3⟩
def WCH_TB_STATUS_TICK : Fld := ⟨31, 14⟩
def WCH_TB_STATUS_OFFSET_NS : Fld := ⟨63, 32⟩
def WCH_TB_CTRL_ROLE : Fld := ⟨1, 0⟩
def WCH_TB_CTRL_JOIN : Fld := ⟨8, 8⟩
def WCH_RESV_PCT_HBM : Fld := ⟨7, 0⟩
def WCH_RESV_PCT_HDRAM : Fld := ⟨15, 8⟩
def WCH_RESV_PCT_FLASH_RD : Fld := ⟨23, 16⟩
def WCH_RESV_PCT_FLASH_WR : Fld := ⟨31, 24⟩
def WCH_RESV_PCT_LINK_OUT : Fld := ⟨39, 32⟩
def WCH_RESV_PCT_LINK_IN : Fld := ⟨47, 40⟩
def WCH_CAP_MEM_HBM : Fld := ⟨31, 0⟩
def WCH_CAP_MEM_FLASH_RD : Fld := ⟨47, 32⟩
def WCH_CAP_MEM_FLASH_WR : Fld := ⟨63, 48⟩
def WCH_CAP_IO_HDRAM : Fld := ⟨31, 0⟩
def WCH_CAP_IO_LINK : Fld := ⟨63, 32⟩
def WCH_ALARM_PROMISE_BROKEN : Fld := ⟨0, 0⟩
def WCH_ALARM_WATCH_UNLOCKED : Fld := ⟨1, 1⟩
def WCH_ALARM_WATCH_SPLIT : Fld := ⟨2, 2⟩
def WCH_ALARM_JOIN_REFUSED : Fld := ⟨3, 3⟩
def WCH_BROKEN_LAST_ENGINE : Fld := ⟨15, 0⟩
def WCH_BROKEN_LAST_PARTITION : Fld := ⟨20, 16⟩
def WCH_BROKEN_LAST_NOT_STARTED : Fld := ⟨21, 21⟩
def WCH_BROKEN_LAST_WATCH_LO : Fld := ⟨63, 32⟩
def WCH_SUB_ADDR_ADDR_LO : Fld := ⟨31, 6⟩
def WCH_SUB_ADDR_ADDR_HI : Fld := ⟨56, 32⟩
def WCH_SUB_CTRL_GO : Fld := ⟨0, 0⟩
def WCH_SUB_CTRL_CANCEL : Fld := ⟨1, 1⟩
def WCH_SUB_CTRL_PLAN_ID : Fld := ⟨63, 32⟩
def WCH_PART_STATUS_QUEUE : Fld := ⟨4, 0⟩
def WCH_PART_STATUS_BROKEN : Fld := ⟨16, 16⟩
def WCH_PART_STATUS_SUB_REFUSED : Fld := ⟨17, 17⟩
def WCH_PART_STATUS_NO_RESULT : Fld := ⟨18, 18⟩
def WCH_PART_STATUS_SHARE_W : Fld := ⟨47, 32⟩
def WCH_X_RESV_PCT_HBM : Fld := ⟨7, 0⟩
def WCH_X_RESV_PCT_HDRAM : Fld := ⟨15, 8⟩
def WCH_X_RESV_PCT_FLASH_RD : Fld := ⟨23, 16⟩
def WCH_X_RESV_PCT_FLASH_WR : Fld := ⟨31, 24⟩
def WCH_X_RESV_PCT_LINK_OUT : Fld := ⟨39, 32⟩
def WCH_X_RESV_PCT_LINK_IN : Fld := ⟨47, 40⟩
def WCH_X_TUNE_LEAD : Fld := ⟨5, 0⟩
def WCH_X_TUNE_SLEW : Fld := ⟨11, 8⟩
def PWR_STATUS_MODE : Fld := ⟨1, 0⟩
def PWR_STATUS_EMERG : Fld := ⟨2, 2⟩
def PWR_STATUS_HOLD : Fld := ⟨3, 3⟩
def PWR_STATUS_FAST_CLAMP : Fld := ⟨4, 4⟩
def PWR_STATUS_FIXED_LEFT : Fld := ⟨5, 5⟩
def PWR_STATUS_INPUT_W : Fld := ⟨31, 16⟩
def PWR_STATUS_AVG_W : Fld := ⟨47, 32⟩
def PWR_STATUS_ALLOW_W : Fld := ⟨63, 48⟩
def PWR_INPUT_VIN : Fld := ⟨15, 0⟩
def PWR_INPUT_IIN : Fld := ⟨31, 16⟩
def PWR_ALARM_VTABLE_FALLBACK : Fld := ⟨0, 0⟩
def PWR_ALARM_THERMAL_WARN : Fld := ⟨1, 1⟩
def PWR_ALARM_THERMAL_EMERGENCY : Fld := ⟨2, 2⟩
def PWR_ALARM_BELOW_PROMISE : Fld := ⟨3, 3⟩
def PWR_ALARM_FAST_LIMIT : Fld := ⟨4, 4⟩
def PWR_ALARM_FIXED_LEFT : Fld := ⟨5, 5⟩
def PWR_ALARM_RAIL_FAULT_PREV : Fld := ⟨6, 6⟩
def PWR_ALARM_THERMAL_TRIP_PREV : Fld := ⟨7, 7⟩
def PWR_ALARM_POWER_FAIL_PREV : Fld := ⟨8, 8⟩
def PWR_MODE_MODE : Fld := ⟨1, 0⟩
def PWR_MODE_FIXED_OP : Fld := ⟨11, 8⟩
def PWR_CAP_CAP_W : Fld := ⟨12, 0⟩
def PWR_PHASE_BUOY_BUOY : Fld := ⟨13, 0⟩
def PWR_PHASE_BUOY_EN : Fld := ⟨15, 15⟩
def PWR_LEARN_SEL_PHASE : Fld := ⟨3, 0⟩
def PWR_LEARN_SEL_DIE : Fld := ⟨6, 4⟩
def PWR_LEARN_READ_EST_UJ : Fld := ⟨31, 0⟩
def PWR_LEARN_READ_SAMPLES : Fld := ⟨47, 32⟩
def PWR_LEARN_READ_VALID : Fld := ⟨63, 63⟩
def PWR_TD_STATUS_OP : Fld := ⟨3, 0⟩
def PWR_TD_STATUS_TARGET : Fld := ⟨7, 4⟩
def PWR_TD_STATUS_MV : Fld := ⟨18, 8⟩
def PWR_TD_STATUS_FALLBACK : Fld := ⟨19, 19⟩
def PWR_TD_STATUS_WARN : Fld := ⟨20, 20⟩
def PWR_TD_STATUS_EMERG : Fld := ⟨21, 21⟩
def PWR_TD_STATUS_TEMP_C : Fld := ⟨31, 24⟩
def PWR_TD_VTABLE_E0 : Fld := ⟨15, 0⟩
def PWR_TD_VTABLE_E1 : Fld := ⟨31, 16⟩
def PWR_TD_VTABLE_E2 : Fld := ⟨47, 32⟩
def PWR_TD_VTABLE_E3 : Fld := ⟨63, 48⟩
def PWR_DOM_ON0_ON : Fld := ⟨63, 0⟩
def PWR_DOM_ON1_ON : Fld := ⟨31, 0⟩
def PWR_RAIL_LAST_RAIL : Fld := ⟨6, 0⟩
def PWR_RAIL_LAST_WHEN : Fld := ⟨9, 8⟩
def PWR_RAIL_LAST_VALID : Fld := ⟨63, 63⟩
def PWR_THERM_LAST_SOURCE : Fld := ⟨5, 0⟩
def PWR_THERM_LAST_TEMP_C : Fld := ⟨15, 8⟩
def PWR_THERM_LAST_LEVEL : Fld := ⟨17, 16⟩
def PWR_THERM_LAST_VALID : Fld := ⟨63, 63⟩
def PWR_CTR_CLEAR_CLEAR : Fld := ⟨0, 0⟩
def PWR_X_TUNE_LEARN_SHIFT : Fld := ⟨3, 0⟩
def PWR_X_TUNE_MAX_OP : Fld := ⟨11, 8⟩
def PWR_X_TUNE_THERM_LOWER_C : Fld := ⟨19, 16⟩
def LOG_STATUS_OPEN : Fld := ⟨0, 0⟩
def LOG_STATUS_RD_READY : Fld := ⟨1, 1⟩
def LOG_STATUS_SLOT : Fld := ⟨25, 16⟩
def LOG_STATUS_NUMBER : Fld := ⟨63, 32⟩
def LOG_ALARM_LOG_INCIDENT_LOST : Fld := ⟨0, 0⟩
def LOG_LINES_LEVEL : Fld := ⟨63, 0⟩
def LOG_CFG_EVENT_LIMIT : Fld := ⟨7, 0⟩
def LOG_CFG_TRACE_EN : Fld := ⟨8, 8⟩
def LOG_RD_SEL_AREA : Fld := ⟨1, 0⟩
def LOG_RD_SEL_SLOT : Fld := ⟨25, 16⟩
def LOG_RD_SEL_INDEX : Fld := ⟨47, 32⟩
def LOG_RD_DATA_DATA : Fld := ⟨63, 0⟩
def LOG_TRACE_ADDR_ADDR_LO : Fld := ⟨31, 6⟩
def LOG_TRACE_ADDR_ADDR_HI : Fld := ⟨51, 32⟩
def LOG_TRACE_CTRL_LOG2 : Fld := ⟨4, 0⟩
def LOG_X_TUNE_QUIET_S : Fld := ⟨7, 0⟩
def FTS_STATUS_LIB_OK : Fld := ⟨0, 0⟩
def FTS_STATUS_SUSPECT : Fld := ⟨24, 16⟩
def FTS_STATUS_STARVED : Fld := ⟨40, 32⟩
def FTS_STATUS_RETIRED : Fld := ⟨56, 48⟩
def FTS_CFG_EN : Fld := ⟨0, 0⟩
def FTS_CFG_PASS_EVENT : Fld := ⟨1, 1⟩
def FTS_ALARM_FT_FAIL : Fld := ⟨0, 0⟩
def FTS_ALARM_FT_RETIRED : Fld := ⟨1, 1⟩
def FTS_ALARM_FT_STARVED : Fld := ⟨2, 2⟩
def FTS_ALARM_FT_LIBRARY : Fld := ⟨3, 3⟩
def FTS_UNIT_SEL_UNIT : Fld := ⟨15, 0⟩
def FTS_UNIT_STATE : Fld := ⟨1, 0⟩
def FTS_UNIT_STARVED : Fld := ⟨2, 2⟩
def FTS_UNIT_METHOD : Fld := ⟨3, 3⟩
def FTS_UNIT_FAILS : Fld := ⟨6, 4⟩
def FTS_UNIT_PASSES : Fld := ⟨11, 8⟩
def FTS_UNIT_ABORTS : Fld := ⟨14, 12⟩
def FTS_UNIT_SEGMENT : Fld := ⟨31, 16⟩
def FTS_UNIT_LAST_TEST_LO : Fld := ⟨31, 0⟩
def FTS_UNIT_LAST_PASS_LO : Fld := ⟨63, 32⟩
def FTS_RUN_UNIT : Fld := ⟨15, 0⟩
def FTS_RUN_GO : Fld := ⟨16, 16⟩
def FTS_FAIL_LAST_UNIT : Fld := ⟨15, 0⟩
def FTS_FAIL_LAST_SEGMENT : Fld := ⟨31, 16⟩
def FTS_FAIL_LAST_FAILS : Fld := ⟨34, 32⟩
def FTS_FAIL_LAST_METHOD : Fld := ⟨35, 35⟩
def FTS_FAIL_LAST_VALID : Fld := ⟨63, 63⟩
def FTS_CTR_CLEAR_CLEAR : Fld := ⟨0, 0⟩
def FTS_X_TUNE_INTERVAL_H : Fld := ⟨7, 0⟩
def FTS_X_TUNE_OBS_H : Fld := ⟨11, 8⟩
def FTS_X_TUNE_RETIRE_AFTER : Fld := ⟨14, 12⟩
def FTS_X_TUNE_ABORT_LIMIT : Fld := ⟨18, 16⟩
def TD_ME_STATUS_STATE : Fld := ⟨1, 0⟩
def TD_ME_STATUS_SHADOW_READY : Fld := ⟨2, 2⟩
def TD_ME_STATUS_ACTIVE_VALID : Fld := ⟨3, 3⟩
def TD_ME_STATUS_PHYS : Fld := ⟨12, 8⟩
def TD_ME_STATUS_RETIRED : Fld := ⟨13, 13⟩
def TD_ME_ERR_LAST_CODE : Fld := ⟨7, 0⟩
def TD_ME_ERR_LAST_COMMAND : Fld := ⟨31, 8⟩
def TD_ME_ERR_LAST_WATCH_LO : Fld := ⟨63, 32⟩
def TD_ME_CTR_CLEAR_CLEAR : Fld := ⟨0, 0⟩
def TD_ME_CFG_COUNT_EN : Fld := ⟨0, 0⟩
def TD_ME_CFG_ERR_EVENT : Fld := ⟨1, 1⟩
def TD_ME_MAP0_PHYS0 : Fld := ⟨4, 0⟩
def TD_ME_MAP0_SPARE0 : Fld := ⟨6, 6⟩
def TD_ME_MAP0_RETIRED0 : Fld := ⟨7, 7⟩
def TD_ME_MAP0_PHYS1 : Fld := ⟨12, 8⟩
def TD_ME_MAP0_SPARE1 : Fld := ⟨14, 14⟩
def TD_ME_MAP0_RETIRED1 : Fld := ⟨15, 15⟩
def TD_ME_MAP0_PHYS2 : Fld := ⟨20, 16⟩
def TD_ME_MAP0_SPARE2 : Fld := ⟨22, 22⟩
def TD_ME_MAP0_RETIRED2 : Fld := ⟨23, 23⟩
def TD_ME_MAP0_PHYS3 : Fld := ⟨28, 24⟩
def TD_ME_MAP0_SPARE3 : Fld := ⟨30, 30⟩
def TD_ME_MAP0_RETIRED3 : Fld := ⟨31, 31⟩
def TD_ME_MAP0_PHYS4 : Fld := ⟨36, 32⟩
def TD_ME_MAP0_SPARE4 : Fld := ⟨38, 38⟩
def TD_ME_MAP0_RETIRED4 : Fld := ⟨39, 39⟩
def TD_ME_MAP0_PHYS5 : Fld := ⟨44, 40⟩
def TD_ME_MAP0_SPARE5 : Fld := ⟨46, 46⟩
def TD_ME_MAP0_RETIRED5 : Fld := ⟨47, 47⟩
def TD_ME_MAP0_PHYS6 : Fld := ⟨52, 48⟩
def TD_ME_MAP0_SPARE6 : Fld := ⟨54, 54⟩
def TD_ME_MAP0_RETIRED6 : Fld := ⟨55, 55⟩
def TD_ME_MAP0_PHYS7 : Fld := ⟨60, 56⟩
def TD_ME_MAP0_SPARE7 : Fld := ⟨62, 62⟩
def TD_ME_MAP0_RETIRED7 : Fld := ⟨63, 63⟩
def TD_ME_MAP1_PHYS0 : Fld := ⟨4, 0⟩
def TD_ME_MAP1_SPARE0 : Fld := ⟨6, 6⟩
def TD_ME_MAP1_RETIRED0 : Fld := ⟨7, 7⟩
def TD_ME_MAP1_PHYS1 : Fld := ⟨12, 8⟩
def TD_ME_MAP1_SPARE1 : Fld := ⟨14, 14⟩
def TD_ME_MAP1_RETIRED1 : Fld := ⟨15, 15⟩
def TD_ME_MAP1_PHYS2 : Fld := ⟨20, 16⟩
def TD_ME_MAP1_SPARE2 : Fld := ⟨22, 22⟩
def TD_ME_MAP1_RETIRED2 : Fld := ⟨23, 23⟩
def TD_ME_MAP1_PHYS3 : Fld := ⟨28, 24⟩
def TD_ME_MAP1_SPARE3 : Fld := ⟨30, 30⟩
def TD_ME_MAP1_RETIRED3 : Fld := ⟨31, 31⟩
def TD_ME_MAP1_PHYS4 : Fld := ⟨36, 32⟩
def TD_ME_MAP1_SPARE4 : Fld := ⟨38, 38⟩
def TD_ME_MAP1_RETIRED4 : Fld := ⟨39, 39⟩
def TD_ME_MAP1_PHYS5 : Fld := ⟨44, 40⟩
def TD_ME_MAP1_SPARE5 : Fld := ⟨46, 46⟩
def TD_ME_MAP1_RETIRED5 : Fld := ⟨47, 47⟩
def TD_ME_MAP1_PHYS6 : Fld := ⟨52, 48⟩
def TD_ME_MAP1_SPARE6 : Fld := ⟨54, 54⟩
def TD_ME_MAP1_RETIRED6 : Fld := ⟨55, 55⟩
def TD_ME_MAP1_PHYS7 : Fld := ⟨60, 56⟩
def TD_ME_MAP1_SPARE7 : Fld := ⟨62, 62⟩
def TD_ME_MAP1_RETIRED7 : Fld := ⟨63, 63⟩
def TD_ME_SPARES_LEFT : Fld := ⟨1, 0⟩
def TD_X_ME_FEED_A_DEPTH : Fld := ⟨10, 0⟩
def TD_X_ME_FEED_SRAM_PRIO : Fld := ⟨17, 16⟩
def TD_VE_STATUS_STATE : Fld := ⟨1, 0⟩
def TD_VE_STATUS_SIDE_ARMED : Fld := ⟨2, 2⟩
def TD_VE_STATUS_NARROW : Fld := ⟨3, 3⟩
def TD_VE_ERR_LAST_CODE : Fld := ⟨7, 0⟩
def TD_VE_ERR_LAST_COMMAND : Fld := ⟨31, 8⟩
def TD_VE_ERR_LAST_WATCH_LO : Fld := ⟨63, 32⟩
def TD_VE_CTR_CLEAR_CLEAR : Fld := ⟨0, 0⟩
def TD_VE_CFG_COUNT_EN : Fld := ⟨0, 0⟩
def TD_VE_CFG_ERR_EVENT : Fld := ⟨1, 1⟩
def TD_VE_CFG_SIDE_EVENT : Fld := ⟨2, 2⟩
def TD_X_VE_TUNE_LOAD_DEPTH : Fld := ⟨6, 0⟩
def TD_X_VE_TUNE_SRAM_PRIO : Fld := ⟨17, 16⟩
def TD_CE_STATUS_STATE : Fld := ⟨1, 0⟩
def TD_CE_STATUS_DOORBELL_WAIT : Fld := ⟨2, 2⟩
def TD_CE_ERR_LAST_CODE : Fld := ⟨7, 0⟩
def TD_CE_ERR_LAST_COMMAND : Fld := ⟨31, 8⟩
def TD_CE_ERR_LAST_WATCH_LO : Fld := ⟨63, 32⟩
def TD_CE_CTR_CLEAR_CLEAR : Fld := ⟨0, 0⟩
def TD_CE_CFG_COUNT_EN : Fld := ⟨0, 0⟩
def TD_CE_CFG_ERR_EVENT : Fld := ⟨1, 1⟩
def TD_X_CE_TUNE_REQ_DEPTH : Fld := ⟨9, 0⟩
def TD_X_CE_TUNE_SRAM_PRIO : Fld := ⟨17, 16⟩
def HBM_STATUS_STATE : Fld := ⟨1, 0⟩
def HBM_STATUS_TEMP_C : Fld := ⟨15, 8⟩
def HBM_STATUS_REFRESH_2X : Fld := ⟨16, 16⟩
def HBM_STATUS_SCRUB_PCT : Fld := ⟨30, 24⟩
def HBM_ALARM_HBM_UNCORRECTABLE : Fld := ⟨0, 0⟩
def HBM_ALARM_HBM_ROW_WEAK : Fld := ⟨1, 1⟩
def HBM_ALARM_HBM_REPAIR_LIST_FULL : Fld := ⟨2, 2⟩
def HBM_ALARM_HBM_REPAIR_FAILED : Fld := ⟨3, 3⟩
def HBM_ERR_LAST_OFFSET_LO : Fld := ⟨31, 5⟩
def HBM_ERR_LAST_OFFSET_HI : Fld := ⟨36, 32⟩
def HBM_ERR_LAST_KIND : Fld := ⟨41, 40⟩
def HBM_ERR_LAST_SOURCE_DIE : Fld := ⟨46, 42⟩
def HBM_ERR_LAST_VALID : Fld := ⟨63, 63⟩
def HBM_CFG_LC_PCT : Fld := ⟨3, 0⟩
def HBM_CFG_CE_THRESH : Fld := ⟨11, 8⟩
def HBM_CFG_ERR_EVENT : Fld := ⟨16, 16⟩
def HBM_REPAIR_SPARES_LEFT : Fld := ⟨15, 0⟩
def HBM_REPAIR_PENDING : Fld := ⟨26, 16⟩
def HBM_REPAIR_RETIRED : Fld := ⟨63, 32⟩
def HBM_CTR_CLEAR_CLEAR : Fld := ⟨0, 0⟩
def HBM_X_TUNE_LC_PCT : Fld := ⟨6, 0⟩
def HBM_X_TUNE_SCRUB_H : Fld := ⟨15, 8⟩
def HBM_X_TUNE_REFRESH_2X : Fld := ⟨16, 16⟩
def MMU_ROOT_EN : Fld := ⟨0, 0⟩
def MMU_ROOT_ROOT_LO : Fld := ⟨31, 12⟩
def MMU_ROOT_ROOT_HI : Fld := ⟨51, 32⟩
def MMU_INV_SCOPE : Fld := ⟨0, 0⟩
def MMU_INV_GO : Fld := ⟨8, 8⟩
def MMU_INV_VA_VA_LO : Fld := ⟨31, 12⟩
def MMU_INV_VA_VA_HI : Fld := ⟨56, 32⟩
def MMU_INV_LEN_PAGES : Fld := ⟨31, 0⟩
def MMU_FQ_ADDR_ADDR_LO : Fld := ⟨31, 6⟩
def MMU_FQ_ADDR_ADDR_HI : Fld := ⟨56, 32⟩
def MMU_FQ_CTRL_LOG2 : Fld := ⟨4, 0⟩
def MMU_FQ_CTRL_BUOY : Fld := ⟨29, 16⟩
def MMU_FQ_CTRL_BUOY_EN : Fld := ⟨31, 31⟩
def MMU_SPILL_ADDR_ADDR_LO : Fld := ⟨31, 16⟩
def MMU_SPILL_ADDR_ADDR_HI : Fld := ⟨56, 32⟩
def MMU_SPILL_CTRL_SLOTS : Fld := ⟨6, 0⟩
def MMU_RESUME_FAULT : Fld := ⟨5, 0⟩
def MMU_RESUME_ACTION : Fld := ⟨8, 8⟩
def MMU_PART_STATUS_HELD : Fld := ⟨6, 0⟩
def MMU_PART_STATUS_BAD_RESUME : Fld := ⟨16, 16⟩
def MMU_PART_STATUS_NO_SPILL : Fld := ⟨17, 17⟩
def MMU_FLIP_STAGE_MASK_LO : Fld := ⟨31, 0⟩
def MMU_FLIP_STAGE_MASK_HI : Fld := ⟨63, 32⟩
def MMU_WLK_STATUS_BUSY : Fld := ⟨6, 0⟩
def MMU_WLK_STATUS_BUSY_GR : Fld := ⟨14, 8⟩
def MMU_WALK_MAX_MAX_NS : Fld := ⟨15, 0⟩
def MMU_CTR_CLEAR_CLEAR : Fld := ⟨0, 0⟩
def MMU_FAULT_LAST_ENGINE : Fld := ⟨15, 0⟩
def MMU_FAULT_LAST_PARTITION : Fld := ⟨20, 16⟩
def MMU_FAULT_LAST_KIND : Fld := ⟨27, 24⟩
def MMU_FAULT_LAST_CLASS : Fld := ⟨28, 28⟩
def MMU_FAULT_LAST_VALID : Fld := ⟨63, 63⟩
def MMU_CFG_FAULT_EVENT : Fld := ⟨0, 0⟩
def MMU_X_WLK_GR_WALKERS : Fld := ⟨5, 0⟩
def COH_ALARM_COH_TIMEOUT : Fld := ⟨0, 0⟩
def COH_ALARM_HDRAM_UNCORRECTABLE : Fld := ⟨1, 1⟩
def COH_TO_LAST_DIE : Fld := ⟨4, 0⟩
def COH_TO_LAST_AGENT : Fld := ⟨15, 8⟩
def COH_TO_LAST_ENGINE : Fld := ⟨31, 16⟩
def COH_TO_LAST_VALID : Fld := ⟨63, 63⟩
def COH_TO_ADDR_ADDR_LO : Fld := ⟨31, 6⟩
def COH_TO_ADDR_ADDR_HI : Fld := ⟨51, 32⟩
def COH_POISON_LAST_DIE : Fld := ⟨4, 0⟩
def COH_POISON_LAST_AGENT : Fld := ⟨15, 8⟩
def COH_POISON_LAST_ENGINE : Fld := ⟨31, 16⟩
def COH_POISON_LAST_VALID : Fld := ⟨63, 63⟩
def COH_POISON_ADDR_ADDR_LO : Fld := ⟨31, 6⟩
def COH_POISON_ADDR_ADDR_HI : Fld := ⟨51, 32⟩
def COH_X_TUNE_TO_US : Fld := ⟨9, 0⟩
def BUY_VALUE_VALUE : Fld := ⟨63, 0⟩
def BUY_SIGNAL_BUOY : Fld := ⟨13, 0⟩
def BUY_SIGNAL_VALUE : Fld := ⟨63, 16⟩
def BUY_ADD_BUOY : Fld := ⟨13, 0⟩
def BUY_ADD_VALUE : Fld := ⟨63, 16⟩
def BUY_HIT_HIT : Fld := ⟨7, 0⟩
def BUY_DOORBELL_PUBLISHED : Fld := ⟨26, 0⟩
def BUY_ARM_BUOY : Fld := ⟨13, 0⟩
def BUY_ARM_EN : Fld := ⟨15, 15⟩
def BUY_ARM_TARGET : Fld := ⟨63, 16⟩
def MBX_E2H_READ_ENTRY : Fld := ⟨63, 0⟩
def MBX_E2H_COUNT_COUNT : Fld := ⟨8, 0⟩
def MBX_H2K_WRITE_ENTRY : Fld := ⟨63, 0⟩
def MBX_H2K_COUNT_COUNT : Fld := ⟨8, 0⟩
def MBX_K2H_READ_ENTRY : Fld := ⟨63, 0⟩
def MBX_K2H_COUNT_COUNT : Fld := ⟨8, 0⟩
def MBX_STATUS_E2H_DROP : Fld := ⟨0, 0⟩
def MBX_STATUS_H2K_DROP : Fld := ⟨1, 1⟩
def MBX_STATUS_E2H_UNDER : Fld := ⟨2, 2⟩
def MBX_STATUS_K2H_UNDER : Fld := ⟨3, 3⟩
def MBX_STATUS_E2H_XQRESET : Fld := ⟨8, 8⟩
def MBX_STATUS_H2K_XQRESET : Fld := ⟨9, 9⟩
def MBX_STATUS_K2H_XQRESET : Fld := ⟨10, 10⟩
def MBX_CTRL_RESET_E2H : Fld := ⟨0, 0⟩
def MBX_CTRL_RESET_H2K : Fld := ⟨1, 1⟩
def MBX_CTRL_RESET_K2H : Fld := ⟨2, 2⟩
def BUY_ERR_LAST_ENGINE : Fld := ⟨15, 0⟩
def BUY_ERR_LAST_PARTITION : Fld := ⟨20, 16⟩
def BUY_ERR_LAST_CODE : Fld := ⟨31, 24⟩
def BUY_ERR_LAST_COMMAND : Fld := ⟨55, 32⟩
def BUY_ERR_LAST_VALID : Fld := ⟨63, 63⟩
def BUY_XQ_LAST_DIE : Fld := ⟨4, 0⟩
def BUY_XQ_LAST_WR_DOM : Fld := ⟨9, 5⟩
def BUY_XQ_LAST_RD_DOM : Fld := ⟨14, 10⟩
def BUY_XQ_LAST_MBX : Fld := ⟨21, 15⟩
def BUY_XQ_LAST_LOST : Fld := ⟨44, 32⟩
def BUY_XQ_LAST_VALID : Fld := ⟨63, 63⟩
def BUY_X_INJECT_DIE : Fld := ⟨4, 0⟩
def BUY_X_INJECT_MBX : Fld := ⟨11, 5⟩
def BUY_X_INJECT_FIRE : Fld := ⟨16, 16⟩
def LNK_PORT_STATUS_STATE : Fld := ⟨2, 0⟩
def LNK_PORT_STATUS_HALF : Fld := ⟨3, 3⟩
def LNK_PORT_STATUS_ETH : Fld := ⟨4, 4⟩
def LNK_PORT_STATUS_SAVED_USED : Fld := ⟨5, 5⟩
def LNK_PORT_STATUS_FAIL : Fld := ⟨11, 8⟩
def LNK_PORT_STATUS_PEER_PKG : Fld := ⟨27, 16⟩
def LNK_PORT_STATUS_PEER_PORT : Fld := ⟨36, 32⟩
def LNK_PORT_CTRL_AUTO : Fld := ⟨0, 0⟩
def LNK_PORT_CTRL_HALF : Fld := ⟨1, 1⟩
def LNK_PORT_CTRL_RETRAIN : Fld := ⟨8, 8⟩
def LNK_PORT_CTRL_FULL_TRAIN : Fld := ⟨9, 9⟩
def LNK_PORT_CTRL_CHANGE : Fld := ⟨10, 10⟩
def LNK_PKG_PKG : Fld := ⟨11, 0⟩
def LNK_ALARM_LINK_DOWN : Fld := ⟨0, 0⟩
def LNK_ALARM_LINK_PEER_LOST : Fld := ⟨1, 1⟩
def LNK_ALARM_LASER_LOW : Fld := ⟨2, 2⟩
def LNK_ALARM_LINK_MISWIRED : Fld := ⟨3, 3⟩
def LNK_ALARM_PORT_CHANGE_ABORTED : Fld := ⟨4, 4⟩
def LNK_ALARM_ETH_QP_ERROR : Fld := ⟨5, 5⟩
def LNK_UNREACH_LAST_PKG : Fld := ⟨11, 0⟩
def LNK_UNREACH_LAST_CAUSE : Fld := ⟨13, 12⟩
def LNK_UNREACH_LAST_VALID : Fld := ⟨63, 63⟩
def LNK_LASER_LOW_CDBM : Fld := ⟨15, 0⟩
def LNK_LASER_HIGH_CDBM : Fld := ⟨31, 16⟩
def LNK_TIME_STATUS_PARENT : Fld := ⟨4, 0⟩
def LNK_TIME_STATUS_VALID : Fld := ⟨5, 5⟩
def LNK_TIME_STATUS_DELAY_NS : Fld := ⟨31, 16⟩
def LNK_CTR_CLEAR_CLEAR : Fld := ⟨0, 0⟩
def LNK0_ETH_QP_BASE_EN : Fld := ⟨0, 0⟩
def LNK0_ETH_QP_BASE_BASE_LO : Fld := ⟨31, 12⟩
def LNK0_ETH_QP_BASE_BASE_HI : Fld := ⟨51, 32⟩
def LNK0_ETH_HSTATUS_ERR : Fld := ⟨63, 0⟩
def LNK0_ETH_STATUS_UP : Fld := ⟨7, 0⟩
def LNK0_ETH_MAC_MAC : Fld := ⟨47, 0⟩
def LNK0_ETH_IP4_IP : Fld := ⟨31, 0⟩
def LNK0_ETH_IP6_LO_IP : Fld := ⟨63, 0⟩
def LNK0_ETH_IP6_HI_IP : Fld := ⟨63, 0⟩
def LNK_X_TUNE_REPLAY_US : Fld := ⟨5, 0⟩
def LNK_X_TUNE_RSP_US : Fld := ⟨15, 8⟩
def COL_GRP_CFG_SIZE : Fld := ⟨8, 0⟩
def COL_GRP_CFG_RANK : Fld := ⟨23, 16⟩
def COL_GRP_CFG_X : Fld := ⟨40, 32⟩
def COL_GRP_CFG_EPOCH : Fld := ⟨63, 48⟩
def COL_GRP_APPLY_WATCH_LO : Fld := ⟨31, 0⟩
def COL_GRP_APPLY_WATCH_HI : Fld := ⟨47, 32⟩
def COL_GRP_APPLY_GO : Fld := ⟨63, 63⟩
def COL_GRP_STATUS_MEMBERS : Fld := ⟨8, 0⟩
def COL_GRP_STATUS_APPLY_REFUSED : Fld := ⟨16, 16⟩
def COL_GRP_STATUS_APPLY_PENDING : Fld := ⟨17, 17⟩
def COL_GRP_STATUS_EPOCH : Fld := ⟨63, 48⟩
def COL_GRP_EXCL_MAP : Fld := ⟨63, 0⟩
def COL_BCN_CFG_F : Fld := ⟨3, 0⟩
def COL_BCN_CFG_SKIP_EVENT : Fld := ⟨8, 8⟩
def COL_BCN_LAST_DECISION : Fld := ⟨1, 0⟩
def COL_BCN_LAST_UNSTABLE : Fld := ⟨2, 2⟩
def COL_BCN_LAST_DISAGREE : Fld := ⟨3, 3⟩
def COL_BCN_LAST_REASON : Fld := ⟨11, 4⟩
def COL_BCN_LAST_KNOWN_COUNT : Fld := ⟨20, 12⟩
def COL_BCN_LAST_SKIP_COUNT : Fld := ⟨29, 21⟩
def COL_BCN_LAST_STEP_LO : Fld := ⟨63, 32⟩
def COL_BCN_SUMSQ_SUMSQ : Fld := ⟨31, 0⟩
def COL_BCN_ALARM_UNSTABLE : Fld := ⟨0, 0⟩
def COL_BCN_ALARM_DISAGREE : Fld := ⟨1, 1⟩
def COL_BCN_KNOWN_MAP : Fld := ⟨63, 0⟩
def COL_BCN_SKIP_MAP : Fld := ⟨63, 0⟩
def COL_CAP_ADDR_ADDR_LO : Fld := ⟨31, 6⟩
def COL_CAP_ADDR_ADDR_HI : Fld := ⟨56, 32⟩
def COL_CAP_SIZE_SIZE_LO : Fld := ⟨31, 6⟩
def COL_CAP_SIZE_SIZE_HI : Fld := ⟨47, 32⟩
def COL_CAP_CTRL_MODE : Fld := ⟨1, 0⟩
def COL_CAP_STATUS_DONE : Fld := ⟨0, 0⟩
def COL_CAP_STATUS_OVERFLOW : Fld := ⟨1, 1⟩
def COL_CAP_STATUS_REFUSED : Fld := ⟨2, 2⟩
def COL_CAP_STATUS_DIVERGED : Fld := ⟨3, 3⟩
def COL_CAP_STATUS_NO_MATCH : Fld := ⟨4, 4⟩
def COL_CAP_STATUS_TAG : Fld := ⟨63, 32⟩
def COL_FLIP_SEL_SEL : Fld := ⟨63, 0⟩
def COL_ERR_LAST_CODE : Fld := ⟨7, 0⟩
def COL_ERR_LAST_ENGINE : Fld := ⟨9, 8⟩
def COL_ERR_LAST_COMMAND : Fld := ⟨31, 10⟩
def COL_ERR_LAST_WATCH_LO : Fld := ⟨63, 32⟩
def COL_CFG_ERR_EVENT : Fld := ⟨0, 0⟩
def COL_X_BCN_TUNE_SG : Fld := ⟨4, 0⟩
def UPD_SEED_SEED : Fld := ⟨63, 0⟩
def UPD_SEQ_STATUS_STATE : Fld := ⟨1, 0⟩
def UPD_SEQ_STATUS_NONFINITE_LAST : Fld := ⟨2, 2⟩
def UPD_SEQ_STATUS_TENSOR_ID : Fld := ⟨63, 32⟩
def UPD_SEQ_ERR_LAST_CODE : Fld := ⟨7, 0⟩
def UPD_SEQ_ERR_LAST_COMMAND : Fld := ⟨31, 8⟩
def UPD_SEQ_ERR_LAST_WATCH_LO : Fld := ⟨63, 32⟩
def UPD_SEQ_CTR_CLEAR_CLEAR : Fld := ⟨0, 0⟩
def UPD_EXP_STATUS_STATE : Fld := ⟨1, 0⟩
def UPD_EXP_STATUS_OPEN : Fld := ⟨2, 2⟩
def UPD_EXP_STATUS_TORN : Fld := ⟨3, 3⟩
def UPD_EXP_STATUS_SNAP_ID : Fld := ⟨63, 32⟩
def UPD_EXP_ERR_LAST_CODE : Fld := ⟨7, 0⟩
def UPD_EXP_ERR_LAST_COMMAND : Fld := ⟨31, 8⟩
def UPD_EXP_ERR_LAST_WATCH_LO : Fld := ⟨63, 32⟩
def UPD_EXP_CTR_CLEAR_CLEAR : Fld := ⟨0, 0⟩
def UPD_HOLD_HELD : Fld := ⟨63, 0⟩
def UPD_CFG_ERR_EVENT : Fld := ⟨0, 0⟩
def UPD_CFG_TORN_EVENT : Fld := ⟨1, 1⟩
def UPD_X_SEQ_TUNE_SR_MODE : Fld := ⟨0, 0⟩
def INT0_IDL_ADDR_ADDR_LO : Fld := ⟨31, 6⟩
def INT0_IDL_ADDR_ADDR_HI : Fld := ⟨56, 32⟩
def INT0_IDL_CTRL_LOG2 : Fld := ⟨4, 0⟩
def INT_CTX_STATUS_STATE : Fld := ⟨1, 0⟩
def INT_CTX_STATUS_PARTITION : Fld := ⟨6, 2⟩
def INT_CTX_STATUS_RUNNING : Fld := ⟨7, 7⟩
def INT_CTX_STATUS_FINISHED : Fld := ⟨24, 8⟩
def INT_ERR_LAST_CODE : Fld := ⟨7, 0⟩
def INT_ERR_LAST_COMMAND : Fld := ⟨31, 8⟩
def INT_ERR_LAST_WATCH_LO : Fld := ⟨63, 32⟩
def INT_BAD_LAST_CODE : Fld := ⟨7, 0⟩
def INT_BAD_LAST_ENGINE : Fld := ⟨23, 8⟩
def INT_BAD_LAST_SAMPLE : Fld := ⟨63, 32⟩
def INT_CTR_CLEAR_CLEAR : Fld := ⟨0, 0⟩
def INT_CFG_ERR_EVENT : Fld := ⟨0, 0⟩
def INT_CFG_BAD_EVENT : Fld := ⟨1, 1⟩
def INT_X_TUNE_READ_AHEAD : Fld := ⟨15, 0⟩
def INT_X_TUNE_STEER_OFF : Fld := ⟨16, 16⟩
def TMV_ALLOC_TIER : Fld := ⟨2, 0⟩
def TMV_ALLOC_LOWEST : Fld := ⟨6, 4⟩
def TMV_ALLOC_SIZE : Fld := ⟨8, 8⟩
def TMV_ALLOC_MOVABLE : Fld := ⟨9, 9⟩
def TMV_ALLOC_COUNT_M1 : Fld := ⟨31, 16⟩
def TMV_ALLOC_GO : Fld := ⟨32, 32⟩
def TMV_ALLOC_VA_VA_LO : Fld := ⟨31, 16⟩
def TMV_ALLOC_VA_VA_HI : Fld := ⟨56, 32⟩
def TMV_ALLOC_RESULT_TIER_GOT : Fld := ⟨2, 0⟩
def TMV_ALLOC_RESULT_STATUS : Fld := ⟨6, 4⟩
def TMV_ALLOC_RESULT_DONE : Fld := ⟨7, 7⟩
def TMV_ALLOC_RESULT_BASE_LO : Fld := ⟨31, 16⟩
def TMV_ALLOC_RESULT_BASE_HI : Fld := ⟨51, 32⟩
def TMV_FREE_BASE_LO : Fld := ⟨31, 16⟩
def TMV_FREE_BASE_HI : Fld := ⟨51, 32⟩
def TMV_USE_FRAMES : Fld := ⟨31, 0⟩
def TMV_QUOTA_GIB : Fld := ⟨31, 0⟩
def TMV_FW_QUOTA_GIB : Fld := ⟨31, 0⟩
def TMV_PART_STATUS_QUOTA_OVER : Fld := ⟨3, 0⟩
def TMV_PART_STATUS_FW_REFUSED : Fld := ⟨4, 4⟩
def TMV_PART_STATUS_DEMOTE_BLOCKED : Fld := ⟨5, 5⟩
def TMV_PART_STATUS_BAD_FREE : Fld := ⟨8, 8⟩
def TMV_PART_STATUS_NOROOM : Fld := ⟨9, 9⟩
def TMV_SUB_ADDR_ADDR_LO : Fld := ⟨31, 6⟩
def TMV_SUB_ADDR_ADDR_HI : Fld := ⟨56, 32⟩
def TMV_SUB_CTRL_LOG2 : Fld := ⟨4, 0⟩
def TMV_ROUTE_SEL_SEL : Fld := ⟨63, 0⟩
def TMV_ALARM_TIER_LATE : Fld := ⟨0, 0⟩
def TMV_ALARM_NEIGHBOUR_LOST : Fld := ⟨1, 1⟩
def TMV_ALARM_LEND_REFUSED : Fld := ⟨2, 2⟩
def TMV_ERR_LAST_ENGINE : Fld := ⟨15, 0⟩
def TMV_ERR_LAST_PARTITION : Fld := ⟨20, 16⟩
def TMV_ERR_LAST_CODE : Fld := ⟨31, 24⟩
def TMV_ERR_LAST_COMMAND : Fld := ⟨55, 32⟩
def TMV_ERR_LAST_VALID : Fld := ⟨63, 63⟩
def TMV_CFG_DEMOTE_RATE : Fld := ⟨3, 0⟩
def TMV_CFG_ERR_EVENT : Fld := ⟨8, 8⟩
def TMV_CFG_MISS_EVENT : Fld := ⟨9, 9⟩
def TMV_FW_RESET_PARTITION : Fld := ⟨4, 0⟩
def TMV_FW_RESET_GO : Fld := ⟨8, 8⟩
def TMV_LEND_BORROWER : Fld := ⟨11, 0⟩
def TMV_LEND_TIER : Fld := ⟨13, 12⟩
def TMV_LEND_SIZE : Fld := ⟨29, 16⟩
def TMV_LEND_EN : Fld := ⟨63, 63⟩
def TMV_BORROW_SIZE : Fld := ⟨13, 0⟩
def TMV_BORROW_STATE : Fld := ⟨17, 16⟩
def TMV_X_TUNE_DEMOTE_MIB : Fld := ⟨15, 0⟩
def TMV_X_TUNE_AGE_SHIFT : Fld := ⟨19, 16⟩
def DFT_STATUS_GOV : Fld := ⟨1, 0⟩
def DFT_STATUS_DEGRADED : Fld := ⟨2, 2⟩
def DFT_STATUS_READ_ONLY : Fld := ⟨3, 3⟩
def DFT_STATUS_NO_KEYS : Fld := ⟨4, 4⟩
def DFT_STATUS_CACHE_MIB : Fld := ⟨28, 16⟩
def DFT_STATUS_USER_TIB : Fld := ⟨38, 32⟩
def DFT_DURABLE_WATCH_LO : Fld := ⟨31, 0⟩
def DFT_DURABLE_WATCH_HI : Fld := ⟨47, 32⟩
def DFT_DUR_BUOY_BUOY : Fld := ⟨13, 0⟩
def DFT_DUR_BUOY_EN : Fld := ⟨15, 15⟩
def DFT_LIFE_USED : Fld := ⟨10, 0⟩
def DFT_LIFE_WA_MILLI : Fld := ⟨31, 16⟩
def DFT_LIFE_STEPS_STEPS : Fld := ⟨31, 0⟩
def DFT_LIFE_STEPS_OPEN_STEPS : Fld := ⟨63, 32⟩
def DFT_CREDIT_CREDIT_GB : Fld := ⟨31, 0⟩
def DFT_LIFE_CTRL_GROUP : Fld := ⟨1, 0⟩
def DFT_LIFE_CTRL_SRC : Fld := ⟨8, 8⟩
def DFT_LIFE_MARK_MARK : Fld := ⟨0, 0⟩
def DFT_ALARM_FLASH_LIFE_LOW : Fld := ⟨0, 0⟩
def DFT_ALARM_FLASH_WORN : Fld := ⟨1, 1⟩
def DFT_ALARM_FLASH_PACED : Fld := ⟨2, 2⟩
def DFT_ALARM_FLASH_STACK_LOST : Fld := ⟨3, 3⟩
def DFT_ALARM_FLASH_UNCORRECTABLE : Fld := ⟨4, 4⟩
def DFT_ALARM_FLASH_POWER_LOSS : Fld := ⟨5, 5⟩
def DFT_PL_RECORD_WATCH_LO : Fld := ⟨31, 0⟩
def DFT_PL_RECORD_LOST_MIB : Fld := ⟨44, 32⟩
def DFT_PL_RECORD_VALID : Fld := ⟨63, 63⟩
def DFT_STACK_STATE : Fld := ⟨1, 0⟩
def DFT_STACK_REBUILD_PCT : Fld := ⟨14, 8⟩
def DFT_X_TUNE_CREDIT_MAX_PB : Fld := ⟨8, 0⟩
def DFT_X_TUNE_READ_LIMIT_K : Fld := ⟨23, 16⟩
def HST_PORT_STATUS_RATE : Fld := ⟨2, 0⟩
def HST_PORT_STATUS_WIDTH : Fld := ⟨8, 4⟩
def HST_PORT_STATUS_FLIT : Fld := ⟨16, 16⟩
def HST_PORT_CFG_RELAY : Fld := ⟨7, 0⟩
def HST_FENCE_BUS_ADDR_LO : Fld := ⟨31, 12⟩
def HST_FENCE_BUS_ADDR_HI : Fld := ⟨62, 32⟩
def HST_OUT_BASE_BASE : Fld := ⟨63, 45⟩
def HST_REGION_BASE_EN : Fld := ⟨0, 0⟩
def HST_REGION_BASE_BASE_LO : Fld := ⟨31, 21⟩
def HST_REGION_BASE_BASE_HI : Fld := ⟨51, 32⟩
def HST_REGION_INV_ENTRY : Fld := ⟨15, 0⟩
def HST_REGION_INV_ALL : Fld := ⟨16, 16⟩
def HST_REGION_INV_GO : Fld := ⟨24, 24⟩
def HST_VIS_EPOCH_EPOCH : Fld := ⟨63, 0⟩
def HST_DRAM_STATUS_STATE : Fld := ⟨1, 0⟩
def HST_DRAM_STATUS_KIND : Fld := ⟨3, 2⟩
def HST_DRAM_STATUS_MTS : Fld := ⟨21, 8⟩
def HST_DRAM_STATUS_GIB : Fld := ⟨40, 32⟩
def HST_IRQ_HART : Fld := ⟨6, 0⟩
def HST_IRQ_EIID : Fld := ⟨26, 16⟩
def HST_IRQ_EN : Fld := ⟨31, 31⟩
def HST_SV57_ROOT_EN : Fld := ⟨0, 0⟩
def HST_SV57_ROOT_ROOT_LO : Fld := ⟨31, 12⟩
def HST_SV57_ROOT_ROOT_HI : Fld := ⟨51, 32⟩
def HST_X_PORT_STRICT : Fld := ⟨0, 0⟩
end F

/-! The keys of the registers. The arguments are, in order: the partition (registers with one instance per partition), the
instance of the block (TDn, HBMn, LNKn, INTn), and the indices of the register's array. -/

def KPR_ID_DEVICE : Nat := 0x0000000
def KPR_ID_INFO : Nat := 0x0000008
def KPR_BOOT_STATUS : Nat := 0x0000010
def KPR_BOOT_MS : Nat := 0x0000018
def KPR_DBG_NONCE : Nat := 0x0000020
def KPR_VIOLATIONS : Nat := 0x0002000
def KPR_VIOL_SIZE : Nat := 0x0002008
def KPR_VIOL_ALIGN : Nat := 0x0002010
def KPR_VIOL_UNMAPPED : Nat := 0x0002018
def KPR_VIOL_EXPERT : Nat := 0x0002020
def KPR_VIOL_ALIAS : Nat := 0x0002028
def KPR_VIOL_WINDOW : Nat := 0x0002030
def KPR_VIOL_PHYS : Nat := 0x0002038
def KPR_VIOL_LAST : Nat := 0x0002040
def KPR_VIOL_CLEAR : Nat := 0x0002048
def KPR_PART_VIOLATIONS (p : Nat) : Nat := partInst p + 0x0002050
def KPR_PSEL (c : Nat) : Nat := (33 + c) * 0x10000000 + 0x0002058
def KPR_PROBE_CTRL : Nat := 0x0002100
def KPR_PROBE_ADDR : Nat := 0x0002108
def KPR_PROBE_RESULT : Nat := 0x0002110
def KPR_X_BOOT : Nat := 0x0080000
def CHT_STATUS : Nat := 0x0100000
def CHT_CTRL : Nat := 0x0100008
def CHT_IMG_ADDR : Nat := 0x0100010
def CHT_IMG_LEN : Nat := 0x0100018
def CHT_SLOT_A : Nat := 0x0100020
def CHT_SLOT_B : Nat := 0x0100028
def CHT_FEATURES : Nat := 0x0100030
def CHT_EXPERT_EN : Nat := 0x0100038
def CHT_ALARM : Nat := 0x0100040
def WCH_COUNT : Nat := 0x0200000
def WCH_TB_STATUS : Nat := 0x0200008
def WCH_TB_CTRL : Nat := 0x0200010
def WCH_RESV_PCT : Nat := 0x0200018
def WCH_CAP_MEM : Nat := 0x0200020
def WCH_CAP_IO : Nat := 0x0200028
def WCH_ALARM : Nat := 0x0200030
def WCH_BROKEN_LAST : Nat := 0x0200038
def WCH_ACCEPTED : Nat := 0x0200040
def WCH_REJECTED : Nat := 0x0200048
def WCH_BROKEN : Nat := 0x0200050
def WCH_SUB_ADDR (p : Nat) : Nat := partInst p + 0x0201000
def WCH_SUB_CTRL (p : Nat) : Nat := partInst p + 0x0201008
def WCH_PART_STATUS (p : Nat) : Nat := partInst p + 0x0201010
def WCH_PART_BROKEN (p : Nat) : Nat := partInst p + 0x0201018
def WCH_X_RESV_PCT : Nat := 0x0280000
def WCH_X_TUNE : Nat := 0x0280008
def PWR_STATUS : Nat := 0x0300000
def PWR_INPUT : Nat := 0x0300008
def PWR_ALARM : Nat := 0x0300010
def PWR_MODE : Nat := 0x0300018
def PWR_CAP : Nat := 0x0300020
def PWR_PHASE_BUOY (p : Nat) : Nat := partInst p + 0x0300028
def PWR_LEARN_SEL (p : Nat) : Nat := partInst p + 0x0300030
def PWR_LEARN_READ (p : Nat) : Nat := partInst p + 0x0300038
def PWR_TD_STATUS (i : Nat) : Nat := 0x0300100 + i * 0x40
def PWR_TD_ENERGY (i : Nat) : Nat := 0x0300108 + i * 0x40
def PWR_TD_CAPPED (i : Nat) : Nat := 0x0300110 + i * 0x40
def PWR_TD_VTABLE (i j : Nat) : Nat := 0x0300120 + i * 0x40 + j * 0x8
def PWR_DOM_ON0 : Nat := 0x0302000
def PWR_DOM_ON1 : Nat := 0x0302008
def PWR_RAIL_LAST : Nat := 0x0302010
def PWR_THERM_LAST : Nat := 0x0302018
def PWR_BELOW_PROMISE : Nat := 0x0302020
def PWR_HOLD_BANDS : Nat := 0x0302028
def PWR_BOOST_BANDS : Nat := 0x0302030
def PWR_CTR_CLEAR : Nat := 0x0302038
def PWR_X_TUNE : Nat := 0x0380000
def LOG_STATUS : Nat := 0x0400000
def LOG_ALARM : Nat := 0x0400008
def LOG_LINES (i : Nat) : Nat := 0x0400010 + i * 0x8
def LOG_CFG : Nat := 0x0400040
def LOG_RD_SEL : Nat := 0x0400048
def LOG_RD_DATA (i : Nat) : Nat := 0x0400100 + i * 0x8
def LOG_SEQ : Nat := 0x0401000
def LOG_SUPPRESSED : Nat := 0x0401008
def LOG_TRACE_DROPS : Nat := 0x0401010
def LOG_TRACE_ADDR : Nat := 0x0401018
def LOG_TRACE_CTRL : Nat := 0x0401020
def LOG_TRACE_HEAD : Nat := 0x0401028
def LOG_X_TUNE : Nat := 0x0480000
def FTS_STATUS : Nat := 0x0500000
def FTS_CFG : Nat := 0x0500008
def FTS_ALARM : Nat := 0x0500010
def FTS_UNIT_SEL : Nat := 0x0500018
def FTS_UNIT : Nat := 0x0500020
def FTS_UNIT_LAST : Nat := 0x0500028
def FTS_RUN : Nat := 0x0500030
def FTS_FAIL_LAST : Nat := 0x0500038
def FTS_TESTS : Nat := 0x0501000
def FTS_FAILS : Nat := 0x0501008
def FTS_ABORTS : Nat := 0x0501010
def FTS_CTR_CLEAR : Nat := 0x0501018
def FTS_X_TUNE : Nat := 0x0580000
def TD_ME_STATUS (n i : Nat) : Nat := 0x0810000 + n * 0x100000 + i * 0x100
def TD_ME_ERR_LAST (n i : Nat) : Nat := 0x0810008 + n * 0x100000 + i * 0x100
def TD_ME_CYC_BUSY (n i : Nat) : Nat := 0x0810010 + n * 0x100000 + i * 0x100
def TD_ME_CYC_ADV (n i : Nat) : Nat := 0x0810018 + n * 0x100000 + i * 0x100
def TD_ME_FROZEN (n i : Nat) : Nat := 0x0810020 + n * 0x100000 + i * 0x100
def TD_ME_FRZ_FEED_A (n i : Nat) : Nat := 0x0810028 + n * 0x100000 + i * 0x100
def TD_ME_FRZ_FEED_B (n i : Nat) : Nat := 0x0810030 + n * 0x100000 + i * 0x100
def TD_ME_FRZ_DRAIN (n i : Nat) : Nat := 0x0810038 + n * 0x100000 + i * 0x100
def TD_ME_FRZ_SHADOW (n i : Nat) : Nat := 0x0810040 + n * 0x100000 + i * 0x100
def TD_ME_ROWS (n i : Nat) : Nat := 0x0810048 + n * 0x100000 + i * 0x100
def TD_ME_LOADS (n i : Nat) : Nat := 0x0810050 + n * 0x100000 + i * 0x100
def TD_ME_OUT_NAN (n i : Nat) : Nat := 0x0810058 + n * 0x100000 + i * 0x100
def TD_ME_OUT_SAT (n i : Nat) : Nat := 0x0810060 + n * 0x100000 + i * 0x100
def TD_ME_CTR_CLEAR (n i : Nat) : Nat := 0x0810068 + n * 0x100000 + i * 0x100
def TD_ME_WAIT (n i : Nat) : Nat := 0x0810070 + n * 0x100000 + i * 0x100
def TD_ME_CFG (n : Nat) : Nat := 0x0811000 + n * 0x100000
def TD_ME_MAP0 (n : Nat) : Nat := 0x0811008 + n * 0x100000
def TD_ME_MAP1 (n : Nat) : Nat := 0x0811010 + n * 0x100000
def TD_ME_SPARES (n : Nat) : Nat := 0x0811018 + n * 0x100000
def TD_X_ME_FEED (n i : Nat) : Nat := 0x0890000 + n * 0x100000 + i * 0x10
def TD_VE_STATUS (n i : Nat) : Nat := 0x0820000 + n * 0x100000 + i * 0x100
def TD_VE_ERR_LAST (n i : Nat) : Nat := 0x0820008 + n * 0x100000 + i * 0x100
def TD_VE_CYC_BUSY (n i : Nat) : Nat := 0x0820010 + n * 0x100000 + i * 0x100
def TD_VE_CYC_ACT (n i : Nat) : Nat := 0x0820018 + n * 0x100000 + i * 0x100
def TD_VE_WAIT_MEM (n i : Nat) : Nat := 0x0820020 + n * 0x100000 + i * 0x100
def TD_VE_WAIT_DEP (n i : Nat) : Nat := 0x0820028 + n * 0x100000 + i * 0x100
def TD_VE_WAIT (n i : Nat) : Nat := 0x0820030 + n * 0x100000 + i * 0x100
def TD_VE_CMDS (n i : Nat) : Nat := 0x0820038 + n * 0x100000 + i * 0x100
def TD_VE_EXC_INVALID (n i : Nat) : Nat := 0x0820040 + n * 0x100000 + i * 0x100
def TD_VE_EXC_DIVZERO (n i : Nat) : Nat := 0x0820048 + n * 0x100000 + i * 0x100
def TD_VE_EXC_OVERFLOW (n i : Nat) : Nat := 0x0820050 + n * 0x100000 + i * 0x100
def TD_VE_EXC_SAT (n i : Nat) : Nat := 0x0820058 + n * 0x100000 + i * 0x100
def TD_VE_SIDE_USE (n i : Nat) : Nat := 0x0820060 + n * 0x100000 + i * 0x100
def TD_VE_CTR_CLEAR (n i : Nat) : Nat := 0x0820068 + n * 0x100000 + i * 0x100
def TD_VE_CFG (n : Nat) : Nat := 0x0821000 + n * 0x100000
def TD_X_VE_TUNE (n i : Nat) : Nat := 0x08a0000 + n * 0x100000 + i * 0x10
def TD_CE_STATUS (n i : Nat) : Nat := 0x0830000 + n * 0x100000 + i * 0x100
def TD_CE_ERR_LAST (n i : Nat) : Nat := 0x0830008 + n * 0x100000 + i * 0x100
def TD_CE_CYC_BUSY (n i : Nat) : Nat := 0x0830010 + n * 0x100000 + i * 0x100
def TD_CE_CYC_ACT (n i : Nat) : Nat := 0x0830018 + n * 0x100000 + i * 0x100
def TD_CE_WAIT_MEM (n i : Nat) : Nat := 0x0830020 + n * 0x100000 + i * 0x100
def TD_CE_WAIT (n i : Nat) : Nat := 0x0830028 + n * 0x100000 + i * 0x100
def TD_CE_BYTES (n i : Nat) : Nat := 0x0830030 + n * 0x100000 + i * 0x100
def TD_CE_CMDS (n i : Nat) : Nat := 0x0830038 + n * 0x100000 + i * 0x100
def TD_CE_CTR_CLEAR (n i : Nat) : Nat := 0x0830040 + n * 0x100000 + i * 0x100
def TD_CE_CFG (n : Nat) : Nat := 0x0831000 + n * 0x100000
def TD_X_CE_TUNE (n i : Nat) : Nat := 0x08b0000 + n * 0x100000 + i * 0x10
def HBM_STATUS (n : Nat) : Nat := 0x1000000 + n * 0x100000
def HBM_ALARM (n : Nat) : Nat := 0x1000008 + n * 0x100000
def HBM_ERR_LAST (n : Nat) : Nat := 0x1000010 + n * 0x100000
def HBM_CFG (n : Nat) : Nat := 0x1000018 + n * 0x100000
def HBM_REPAIR (n : Nat) : Nat := 0x1000020 + n * 0x100000
def HBM_RD_BYTES (n : Nat) : Nat := 0x1001000 + n * 0x100000
def HBM_WR_BYTES (n : Nat) : Nat := 0x1001008 + n * 0x100000
def HBM_LC_BYTES (n : Nat) : Nat := 0x1001010 + n * 0x100000
def HBM_NARROW (n : Nat) : Nat := 0x1001018 + n * 0x100000
def HBM_CE (n : Nat) : Nat := 0x1001020 + n * 0x100000
def HBM_UE (n : Nat) : Nat := 0x1001028 + n * 0x100000
def HBM_CTR_CLEAR (n : Nat) : Nat := 0x1001030 + n * 0x100000
def HBM_X_TUNE (n : Nat) : Nat := 0x1080000 + n * 0x100000
def MMU_ROOT (p : Nat) : Nat := partInst p + 0x2000000
def MMU_INV (p : Nat) : Nat := partInst p + 0x2000008
def MMU_INV_VA (p : Nat) : Nat := partInst p + 0x2000010
def MMU_INV_LEN (p : Nat) : Nat := partInst p + 0x2000018
def MMU_FQ_ADDR (p : Nat) : Nat := partInst p + 0x2000020
def MMU_FQ_CTRL (p : Nat) : Nat := partInst p + 0x2000028
def MMU_FQ_HEAD (p : Nat) : Nat := partInst p + 0x2000030
def MMU_FQ_LOST (p : Nat) : Nat := partInst p + 0x2000038
def MMU_FAULTS (p : Nat) : Nat := partInst p + 0x2000040
def MMU_SPILL_ADDR (p : Nat) : Nat := partInst p + 0x2000048
def MMU_SPILL_CTRL (p : Nat) : Nat := partInst p + 0x2000050
def MMU_RESUME (p : Nat) : Nat := partInst p + 0x2000058
def MMU_PART_STATUS (p : Nat) : Nat := partInst p + 0x2000060
def MMU_FLIP_STAGE (p : Nat) : Nat := partInst p + 0x2000068
def MMU_WLK_STATUS (i : Nat) : Nat := 0x2010000 + i * 0x100
def MMU_WALKS (i : Nat) : Nat := 0x2010008 + i * 0x100
def MMU_TLB_MISSES (i : Nat) : Nat := 0x2010010 + i * 0x100
def MMU_WALK_MAX (i : Nat) : Nat := 0x2010018 + i * 0x100
def MMU_CTR_CLEAR (i : Nat) : Nat := 0x2010020 + i * 0x100
def MMU_FAULT_LAST : Nat := 0x2020000
def MMU_STALE : Nat := 0x2020008
def MMU_CFG : Nat := 0x2020010
def MMU_X_WLK (i : Nat) : Nat := 0x2080000 + i * 0x10
def COH_ALARM : Nat := 0x2100000
def COH_TO_LAST : Nat := 0x2100008
def COH_TO_ADDR : Nat := 0x2100010
def COH_TIMEOUTS : Nat := 0x2100018
def COH_POISON_LAST : Nat := 0x2100020
def COH_POISON_ADDR : Nat := 0x2100028
def COH_POISON_USED : Nat := 0x2100030
def COH_X_TUNE : Nat := 0x2180000
def BUY_VALUE (i : Nat) : Nat := 0x2200000 + i * 0x8
def BUY_SIGNAL (p : Nat) : Nat := partInst p + 0x2220000
def BUY_ADD (p : Nat) : Nat := partInst p + 0x2220008
def BUY_HIT (p : Nat) : Nat := partInst p + 0x2220010
def BUY_DOORBELL (p i : Nat) : Nat := partInst p + 0x2220100 + i * 0x8
def BUY_ARM (p i : Nat) : Nat := partInst p + 0x2220400 + i * 0x8
def MBX_E2H_READ (p : Nat) : Nat := partInst p + 0x2221000
def MBX_E2H_COUNT (p : Nat) : Nat := partInst p + 0x2221008
def MBX_H2K_WRITE (p : Nat) : Nat := partInst p + 0x2221010
def MBX_H2K_COUNT (p : Nat) : Nat := partInst p + 0x2221018
def MBX_K2H_READ (p : Nat) : Nat := partInst p + 0x2221020
def MBX_K2H_COUNT (p : Nat) : Nat := partInst p + 0x2221028
def MBX_STATUS (p : Nat) : Nat := partInst p + 0x2221030
def MBX_CTRL (p : Nat) : Nat := partInst p + 0x2221038
def MBX_DROPS (p : Nat) : Nat := partInst p + 0x2221040
def BUY_ERR_LAST : Nat := 0x2230000
def BUY_WAIT_EXPIRED : Nat := 0x2230008
def BUY_XQ_RESETS : Nat := 0x2230010
def BUY_XQ_LAST : Nat := 0x2230018
def BUY_X_INJECT : Nat := 0x2280000
def LNK_PORT_STATUS (n i : Nat) : Nat := 0x3000000 + n * 0x100000 + i * 0x100
def LNK_PORT_CTRL (n i : Nat) : Nat := 0x3000008 + n * 0x100000 + i * 0x100
def LNK_PORT_FLITS (n i : Nat) : Nat := 0x3000010 + n * 0x100000 + i * 0x100
def LNK_PORT_REPLAYED (n i : Nat) : Nat := 0x3000018 + n * 0x100000 + i * 0x100
def LNK_PORT_FEC_CORR (n i : Nat) : Nat := 0x3000020 + n * 0x100000 + i * 0x100
def LNK_PORT_BAD_FLITS (n i : Nat) : Nat := 0x3000028 + n * 0x100000 + i * 0x100
def LNK_PORT_DOWNS (n i : Nat) : Nat := 0x3000030 + n * 0x100000 + i * 0x100
def LNK_PKG (n : Nat) : Nat := 0x3010000 + n * 0x100000
def LNK_ALARM (n : Nat) : Nat := 0x3010008 + n * 0x100000
def LNK_UNREACH_LAST (n : Nat) : Nat := 0x3010010 + n * 0x100000
def LNK_LASER (n : Nat) : Nat := 0x3010018 + n * 0x100000
def LNK_TIME_STATUS (n : Nat) : Nat := 0x3010020 + n * 0x100000
def LNK_RSP_TIMEOUTS (n : Nat) : Nat := 0x3010028 + n * 0x100000
def LNK_MSG_DROPPED (n : Nat) : Nat := 0x3010030 + n * 0x100000
def LNK_REMOTE_VIOL (n : Nat) : Nat := 0x3010038 + n * 0x100000
def LNK_CTR_CLEAR (n : Nat) : Nat := 0x3010040 + n * 0x100000
def LNK0_ETH_QP_BASE : Nat := 0x3020000
def LNK0_ETH_HSTATUS : Nat := 0x3020008
def LNK0_ETH_STATUS : Nat := 0x3020010
def LNK0_ETH_MAC (i : Nat) : Nat := 0x3020100 + i * 0x20
def LNK0_ETH_IP4 (i : Nat) : Nat := 0x3020108 + i * 0x20
def LNK0_ETH_IP6_LO (i : Nat) : Nat := 0x3020110 + i * 0x20
def LNK0_ETH_IP6_HI (i : Nat) : Nat := 0x3020118 + i * 0x20
def LNK_X_TUNE (n : Nat) : Nat := 0x3080000 + n * 0x100000
def COL_GRP_CFG (i : Nat) : Nat := 0x3800000 + i * 0x1000
def COL_GRP_APPLY (i : Nat) : Nat := 0x3800008 + i * 0x1000
def COL_GRP_STATUS (i : Nat) : Nat := 0x3800010 + i * 0x1000
def COL_GRP_EXCL (i j : Nat) : Nat := 0x3800020 + i * 0x1000 + j * 0x8
def COL_BCN_CFG (i : Nat) : Nat := 0x3800040 + i * 0x1000
def COL_BCN_LAST (i : Nat) : Nat := 0x3800048 + i * 0x1000
def COL_BCN_SUMSQ (i : Nat) : Nat := 0x3800050 + i * 0x1000
def COL_BCN_ALARM (i : Nat) : Nat := 0x3800058 + i * 0x1000
def COL_BCN_KNOWN (i j : Nat) : Nat := 0x3800060 + i * 0x1000 + j * 0x8
def COL_BCN_SKIP (i j : Nat) : Nat := 0x3800080 + i * 0x1000 + j * 0x8
def COL_BCN_ROUNDS (i : Nat) : Nat := 0x38000a0 + i * 0x1000
def COL_BCN_SKIPS (i : Nat) : Nat := 0x38000a8 + i * 0x1000
def COL_BCN_DROPPED (i : Nat) : Nat := 0x38000b0 + i * 0x1000
def COL_EXCH_FAILED (i : Nat) : Nat := 0x38000b8 + i * 0x1000
def COL_CAP_ADDR (i : Nat) : Nat := 0x38000c0 + i * 0x1000
def COL_CAP_SIZE (i : Nat) : Nat := 0x38000c8 + i * 0x1000
def COL_CAP_CTRL (i : Nat) : Nat := 0x38000d0 + i * 0x1000
def COL_CAP_STATUS (i : Nat) : Nat := 0x38000d8 + i * 0x1000
def COL_FLIP_SEL : Nat := 0x3830000
def COL_ERR_LAST : Nat := 0x3840008
def COL_CFG : Nat := 0x3840010
def COL_X_BCN_TUNE (i : Nat) : Nat := 0x3880000 + i * 0x10
def UPD_SEED (p : Nat) : Nat := partInst p + 0x3900000
def UPD_SEQ_STATUS (i : Nat) : Nat := 0x3910000 + i * 0x100
def UPD_SEQ_ERR_LAST (i : Nat) : Nat := 0x3910008 + i * 0x100
def UPD_SEQ_ITEMS (i : Nat) : Nat := 0x3910010 + i * 0x100
def UPD_SEQ_NONFINITE (i : Nat) : Nat := 0x3910018 + i * 0x100
def UPD_SEQ_CTR_CLEAR (i : Nat) : Nat := 0x3910020 + i * 0x100
def UPD_EXP_STATUS (i : Nat) : Nat := 0x3920000 + i * 0x100
def UPD_EXP_ERR_LAST (i : Nat) : Nat := 0x3920008 + i * 0x100
def UPD_EXP_BYTES (i : Nat) : Nat := 0x3920010 + i * 0x100
def UPD_EXP_TORN (i : Nat) : Nat := 0x3920018 + i * 0x100
def UPD_EXP_CTR_CLEAR (i : Nat) : Nat := 0x3920020 + i * 0x100
def UPD_HOLD : Nat := 0x3930000
def UPD_CFG : Nat := 0x3930008
def UPD_X_SEQ_TUNE (i : Nat) : Nat := 0x3980000 + i * 0x10
def INT0_IDL_ADDR (p : Nat) : Nat := partInst p + 0x4000000
def INT0_IDL_CTRL (p : Nat) : Nat := partInst p + 0x4000008
def INT0_IDL_HEAD (p : Nat) : Nat := partInst p + 0x4000010
def INT0_IDL_LOST (p : Nat) : Nat := partInst p + 0x4000018
def INT_CTX_STATUS (n i : Nat) : Nat := 0x4010000 + n * 0x100000 + i * 0x100
def INT_ERR_LAST (n : Nat) : Nat := 0x4020000 + n * 0x100000
def INT_BAD_LAST (n : Nat) : Nat := 0x4020008 + n * 0x100000
def INT_SAMPLES (n : Nat) : Nat := 0x4020010 + n * 0x100000
def INT_BAD (n : Nat) : Nat := 0x4020018 + n * 0x100000
def INT_STEERED (n : Nat) : Nat := 0x4020020 + n * 0x100000
def INT_BYTES_IN (n : Nat) : Nat := 0x4020028 + n * 0x100000
def INT_CTR_CLEAR (n : Nat) : Nat := 0x4020030 + n * 0x100000
def INT_CFG (n : Nat) : Nat := 0x4020038 + n * 0x100000
def INT_X_TUNE (n : Nat) : Nat := 0x4080000 + n * 0x100000
def TMV_ALLOC (p : Nat) : Nat := partInst p + 0x4800000
def TMV_ALLOC_VA (p : Nat) : Nat := partInst p + 0x4800008
def TMV_ALLOC_RESULT (p : Nat) : Nat := partInst p + 0x4800010
def TMV_FREE (p : Nat) : Nat := partInst p + 0x4800018
def TMV_USE (p i : Nat) : Nat := partInst p + 0x4800020 + i * 0x8
def TMV_QUOTA (p i : Nat) : Nat := partInst p + 0x4800040 + i * 0x8
def TMV_FW_QUOTA (p : Nat) : Nat := partInst p + 0x4800060
def TMV_FW_USED (p : Nat) : Nat := partInst p + 0x4800068
def TMV_PART_STATUS (p : Nat) : Nat := partInst p + 0x4800070
def TMV_FW_REFUSED (p : Nat) : Nat := partInst p + 0x4800078
def TMV_SUB_ADDR (p : Nat) : Nat := partInst p + 0x4800080
def TMV_SUB_CTRL (p : Nat) : Nat := partInst p + 0x4800088
def TMV_SUB_HEAD (p : Nat) : Nat := partInst p + 0x4800090
def TMV_SUB_LOST (p : Nat) : Nat := partInst p + 0x4800098
def TMV_ROUTE_SEL (i : Nat) : Nat := 0x4810000 + i * 0x8
def TMV_ALARM : Nat := 0x4820000
def TMV_ERR_LAST : Nat := 0x4820008
def TMV_CFG : Nat := 0x4820010
def TMV_MISSES : Nat := 0x4820018
def TMV_LATE : Nat := 0x4820020
def TMV_MOVED : Nat := 0x4820028
def TMV_FW_RESET : Nat := 0x4820030
def TMV_LEND (i : Nat) : Nat := 0x4820100 + i * 0x8
def TMV_BORROW (i : Nat) : Nat := 0x4820200 + i * 0x8
def TMV_X_TUNE : Nat := 0x4880000
def DFT_STATUS : Nat := 0x4900000
def DFT_DURABLE : Nat := 0x4900008
def DFT_DUR_BUOY (p : Nat) : Nat := partInst p + 0x4900010
def DFT_LIFE : Nat := 0x4900018
def DFT_LIFE_STEPS : Nat := 0x4900020
def DFT_CREDIT : Nat := 0x4900028
def DFT_LIFE_CTRL : Nat := 0x4900030
def DFT_LIFE_MARK : Nat := 0x4900038
def DFT_ALARM : Nat := 0x4900040
def DFT_PL_RECORD : Nat := 0x4900048
def DFT_STACK (i : Nat) : Nat := 0x4900100 + i * 0x8
def DFT_HOST_WR : Nat := 0x4901000
def DFT_NAND_WR : Nat := 0x4901008
def DFT_HOST_RD : Nat := 0x4901010
def DFT_RELOC : Nat := 0x4901018
def DFT_CORRECTED : Nat := 0x4901020
def DFT_UNCORR : Nat := 0x4901028
def DFT_GOV_REFUSED : Nat := 0x4901030
def DFT_X_TUNE : Nat := 0x4980000
def HST_PORT_STATUS (i : Nat) : Nat := 0x4a00000 + i * 0x100
def HST_PORT_CFG (i : Nat) : Nat := 0x4a00008 + i * 0x100
def HST_FENCE_BUS (i : Nat) : Nat := 0x4a00010 + i * 0x100
def HST_OUT_BASE (i : Nat) : Nat := 0x4a00018 + i * 0x100
def HST_PORT_VIOL (i : Nat) : Nat := 0x4a00020 + i * 0x100
def HST_PORT_POISON (i : Nat) : Nat := 0x4a00028 + i * 0x100
def HST_REGION_BASE : Nat := 0x4a10000
def HST_REGION_INV : Nat := 0x4a10008
def HST_VIS_EPOCH : Nat := 0x4a10010
def HST_DRAM_STATUS : Nat := 0x4a10018
def HST_SV_STALE : Nat := 0x4a10020
def HST_IRQ (p : Nat) : Nat := partInst p + 0x4a20000
def HST_SV57_ROOT (p : Nat) : Nat := partInst p + 0x4a20008
def HST_X_PORT (i : Nat) : Nat := 0x4a80000 + i * 0x10

/-- The registers of the KPR block. -/
def regsKpr : List RegDesc := [
  ⟨"KPR_ID_DEVICE", 0x0, [], [], .all, .plain, [⟨F.KPR_ID_DEVICE_DEVICE, .ro⟩]⟩,
  ⟨"KPR_ID_INFO", 0x8, [], [], .all, .plain, [⟨F.KPR_ID_INFO_REVISION, .ro⟩, ⟨F.KPR_ID_INFO_PROVISIONED, .ro⟩, ⟨F.KPR_ID_INFO_DEBUG_OPENED, .ro⟩, ⟨F.KPR_ID_INFO_ERASE_PENDING, .ro⟩, ⟨F.KPR_ID_INFO_CHART_KEYS, .ro⟩]⟩,
  ⟨"KPR_BOOT_STATUS", 0x10, [], [], .all, .plain, [⟨F.KPR_BOOT_STATUS_STAGE, .ro⟩, ⟨F.KPR_BOOT_STATUS_FULL, .ro⟩, ⟨F.KPR_BOOT_STATUS_FAILED, .ro⟩, ⟨F.KPR_BOOT_STATUS_FAIL_DIE, .ro⟩, ⟨F.KPR_BOOT_STATUS_FAIL_CAUSE, .ro⟩]⟩,
  ⟨"KPR_BOOT_MS", 0x18, [], [], .all, .plain, [⟨F.KPR_BOOT_MS_MS, .ro⟩]⟩,
  ⟨"KPR_DBG_NONCE", 0x20, [], [], .all, .plain, [⟨F.KPR_DBG_NONCE_NONCE, .ro⟩]⟩,
  ⟨"KPR_VIOLATIONS", 0x2000, [], [], .all, .plain, [⟨F.COUNT, .ro⟩]⟩,
  ⟨"KPR_VIOL_SIZE", 0x2008, [], [], .all, .plain, [⟨F.COUNT, .ro⟩]⟩,
  ⟨"KPR_VIOL_ALIGN", 0x2010, [], [], .all, .plain, [⟨F.COUNT, .ro⟩]⟩,
  ⟨"KPR_VIOL_UNMAPPED", 0x2018, [], [], .all, .plain, [⟨F.COUNT, .ro⟩]⟩,
  ⟨"KPR_VIOL_EXPERT", 0x2020, [], [], .all, .plain, [⟨F.COUNT, .ro⟩]⟩,
  ⟨"KPR_VIOL_ALIAS", 0x2028, [], [], .all, .plain, [⟨F.COUNT, .ro⟩]⟩,
  ⟨"KPR_VIOL_WINDOW", 0x2030, [], [], .all, .plain, [⟨F.COUNT, .ro⟩]⟩,
  ⟨"KPR_VIOL_PHYS", 0x2038, [], [], .all, .plain, [⟨F.COUNT, .ro⟩]⟩,
  ⟨"KPR_VIOL_LAST", 0x2040, [], [], .all, .plain, [⟨F.KPR_VIOL_LAST_OFFSET, .ro⟩, ⟨F.KPR_VIOL_LAST_PARTITION, .ro⟩, ⟨F.KPR_VIOL_LAST_VIA_ALIAS, .ro⟩, ⟨F.KPR_VIOL_LAST_WRITE, .ro⟩, ⟨F.KPR_VIOL_LAST_KIND, .ro⟩, ⟨F.KPR_VIOL_LAST_SOURCE_DIE, .ro⟩, ⟨F.KPR_VIOL_LAST_VALID, .ro⟩]⟩,
  ⟨"KPR_VIOL_CLEAR", 0x2048, [], [], .all, .hKprViolClear, [⟨F.KPR_VIOL_CLEAR_CLEAR, .w1s⟩]⟩,
  ⟨"KPR_PART_VIOLATIONS", 0x2050, [], [.part, .shown], .all, .plain, [⟨F.COUNT, .ro⟩]⟩,
  ⟨"KPR_PSEL", 0x2058, [], [.selector], .all, .plain, [⟨F.KPR_PSEL_PARTITION, .rw⟩, ⟨F.KPR_PSEL_EN, .rw⟩]⟩,
  ⟨"KPR_PROBE_CTRL", 0x2100, [], [], .all, .hKprProbeCtrl, [⟨F.KPR_PROBE_CTRL_SRC_DIE, .rw⟩, ⟨F.KPR_PROBE_CTRL_COUNT, .rw⟩, ⟨F.KPR_PROBE_CTRL_START, .w1s⟩]⟩,
  ⟨"KPR_PROBE_ADDR", 0x2108, [], [], .all, .plain, [⟨F.KPR_PROBE_ADDR_ADDR_LO, .rw⟩, ⟨F.KPR_PROBE_ADDR_ADDR_HI, .rw⟩]⟩,
  ⟨"KPR_PROBE_RESULT", 0x2110, [], [], .all, .plain, [⟨F.KPR_PROBE_RESULT_MIN_NS, .ro⟩, ⟨F.KPR_PROBE_RESULT_MAX_NS, .ro⟩, ⟨F.KPR_PROBE_RESULT_MEAN_NS, .ro⟩, ⟨F.KPR_PROBE_RESULT_STACK, .ro⟩, ⟨F.KPR_PROBE_RESULT_ERROR, .ro⟩, ⟨F.KPR_PROBE_RESULT_DONE, .ro⟩]⟩,
  ⟨"KPR_X_BOOT", 0x80000, [], [], .all, .plain, [⟨F.KPR_X_BOOT_FORCE_FULL, .rw⟩, ⟨F.KPR_X_BOOT_STAGE_HOLD, .rw⟩]⟩]
/-- The registers of the CHT block. -/
def regsCht : List RegDesc := [
  ⟨"CHT_STATUS", 0x0, [], [.shown, .aliasReadOnly], .all, .plain, [⟨F.CHT_STATUS_IN_EFFECT, .ro⟩, ⟨F.CHT_STATUS_SELECTED, .ro⟩, ⟨F.CHT_STATUS_BOOT_FAIL, .ro⟩, ⟨F.CHT_STATUS_OP_FAIL, .ro⟩, ⟨F.CHT_STATUS_OP_STATUS, .ro⟩, ⟨F.CHT_STATUS_SERIAL, .ro⟩]⟩,
  ⟨"CHT_CTRL", 0x8, [], [], .all, .hChtCtrl, [⟨F.CHT_CTRL_WRITE, .w1s⟩, ⟨F.CHT_CTRL_SELECT, .w1s⟩, ⟨F.CHT_CTRL_LIC_INSTALL, .w1s⟩, ⟨F.CHT_CTRL_INV_SETTINGS, .w1s⟩, ⟨F.CHT_CTRL_RESET, .w1s⟩, ⟨F.CHT_CTRL_SLOT, .rw⟩]⟩,
  ⟨"CHT_IMG_ADDR", 0x10, [], [], .all, .plain, [⟨F.CHT_IMG_ADDR_ADDR_LO, .rw⟩, ⟨F.CHT_IMG_ADDR_ADDR_HI, .rw⟩]⟩,
  ⟨"CHT_IMG_LEN", 0x18, [], [], .all, .plain, [⟨F.CHT_IMG_LEN_BYTES, .rw⟩]⟩,
  ⟨"CHT_SLOT_A", 0x20, [], [], .all, .plain, [⟨F.CHT_SLOT_A_SERIAL, .ro⟩, ⟨F.CHT_SLOT_A_FAIL, .ro⟩, ⟨F.CHT_SLOT_A_PRESENT, .ro⟩]⟩,
  ⟨"CHT_SLOT_B", 0x28, [], [], .all, .plain, [⟨F.CHT_SLOT_B_SERIAL, .ro⟩, ⟨F.CHT_SLOT_B_FAIL, .ro⟩, ⟨F.CHT_SLOT_B_PRESENT, .ro⟩]⟩,
  ⟨"CHT_FEATURES", 0x30, [], [.shown, .aliasReadOnly], .all, .plain, [⟨F.CHT_FEATURES_FEATURES, .ro⟩]⟩,
  ⟨"CHT_EXPERT_EN", 0x38, [], [], .all, .plain, [⟨F.CHT_EXPERT_EN_EN, .ro⟩]⟩,
  ⟨"CHT_ALARM", 0x40, [], [], .all, .plain, [⟨F.CHT_ALARM_CHART_FALLBACK, .w1c⟩]⟩]
/-- The registers of the WCH block. -/
def regsWch : List RegDesc := [
  ⟨"WCH_COUNT", 0x0, [], [.shown], .all, .plain, [⟨F.WCH_COUNT_COUNT_LO, .ro⟩, ⟨F.WCH_COUNT_COUNT_HI, .ro⟩]⟩,
  ⟨"WCH_TB_STATUS", 0x8, [], [.shown], .all, .plain, [⟨F.WCH_TB_STATUS_STATE, .ro⟩, ⟨F.WCH_TB_STATUS_ROLE, .ro⟩, ⟨F.WCH_TB_STATUS_TICK, .ro⟩, ⟨F.WCH_TB_STATUS_OFFSET_NS, .ro⟩]⟩,
  ⟨"WCH_TB_CTRL", 0x10, [], [], .all, .hWchTbCtrl, [⟨F.WCH_TB_CTRL_ROLE, .rw⟩, ⟨F.WCH_TB_CTRL_JOIN, .w1s⟩]⟩,
  ⟨"WCH_RESV_PCT", 0x18, [], [], .all, .hWchResvPct, [⟨F.WCH_RESV_PCT_HBM, .rw⟩, ⟨F.WCH_RESV_PCT_HDRAM, .rw⟩, ⟨F.WCH_RESV_PCT_FLASH_RD, .rw⟩, ⟨F.WCH_RESV_PCT_FLASH_WR, .rw⟩, ⟨F.WCH_RESV_PCT_LINK_OUT, .rw⟩, ⟨F.WCH_RESV_PCT_LINK_IN, .rw⟩]⟩,
  ⟨"WCH_CAP_MEM", 0x20, [], [], .all, .plain, [⟨F.WCH_CAP_MEM_HBM, .ro⟩, ⟨F.WCH_CAP_MEM_FLASH_RD, .ro⟩, ⟨F.WCH_CAP_MEM_FLASH_WR, .ro⟩]⟩,
  ⟨"WCH_CAP_IO", 0x28, [], [], .all, .plain, [⟨F.WCH_CAP_IO_HDRAM, .rw⟩, ⟨F.WCH_CAP_IO_LINK, .ro⟩]⟩,
  ⟨"WCH_ALARM", 0x30, [], [], .all, .plain, [⟨F.WCH_ALARM_PROMISE_BROKEN, .w1c⟩, ⟨F.WCH_ALARM_WATCH_UNLOCKED, .w1c⟩, ⟨F.WCH_ALARM_WATCH_SPLIT, .w1c⟩, ⟨F.WCH_ALARM_JOIN_REFUSED, .w1c⟩]⟩,
  ⟨"WCH_BROKEN_LAST", 0x38, [], [], .all, .plain, [⟨F.WCH_BROKEN_LAST_ENGINE, .ro⟩, ⟨F.WCH_BROKEN_LAST_PARTITION, .ro⟩, ⟨F.WCH_BROKEN_LAST_NOT_STARTED, .ro⟩, ⟨F.WCH_BROKEN_LAST_WATCH_LO, .ro⟩]⟩,
  ⟨"WCH_ACCEPTED", 0x40, [], [], .all, .plain, [⟨F.COUNT, .ro⟩]⟩,
  ⟨"WCH_REJECTED", 0x48, [], [], .all, .plain, [⟨F.COUNT, .ro⟩]⟩,
  ⟨"WCH_BROKEN", 0x50, [], [], .all, .plain, [⟨F.COUNT, .ro⟩]⟩,
  ⟨"WCH_SUB_ADDR", 0x1000, [], [.part, .shown, .aliasOnly], .all, .plain, [⟨F.WCH_SUB_ADDR_ADDR_LO, .rw⟩, ⟨F.WCH_SUB_ADDR_ADDR_HI, .rw⟩]⟩,
  ⟨"WCH_SUB_CTRL", 0x1008, [], [.part, .shown, .aliasOnly], .all, .hWchSubCtrl, [⟨F.WCH_SUB_CTRL_GO, .w1s⟩, ⟨F.WCH_SUB_CTRL_CANCEL, .w1s⟩, ⟨F.WCH_SUB_CTRL_PLAN_ID, .rw⟩]⟩,
  ⟨"WCH_PART_STATUS", 0x1010, [], [.part, .shown], .all, .hWchPartStatus, [⟨F.WCH_PART_STATUS_QUEUE, .ro⟩, ⟨F.WCH_PART_STATUS_BROKEN, .w1c⟩, ⟨F.WCH_PART_STATUS_SUB_REFUSED, .w1c⟩, ⟨F.WCH_PART_STATUS_NO_RESULT, .w1c⟩, ⟨F.WCH_PART_STATUS_SHARE_W, .ro⟩]⟩,
  ⟨"WCH_PART_BROKEN", 0x1018, [], [.part, .shown], .all, .plain, [⟨F.COUNT, .ro⟩]⟩,
  ⟨"WCH_X_RESV_PCT", 0x80000, [], [], .all, .plain, [⟨F.WCH_X_RESV_PCT_HBM, .rw⟩, ⟨F.WCH_X_RESV_PCT_HDRAM, .rw⟩, ⟨F.WCH_X_RESV_PCT_FLASH_RD, .rw⟩, ⟨F.WCH_X_RESV_PCT_FLASH_WR, .rw⟩, ⟨F.WCH_X_RESV_PCT_LINK_OUT, .rw⟩, ⟨F.WCH_X_RESV_PCT_LINK_IN, .rw⟩]⟩,
  ⟨"WCH_X_TUNE", 0x80008, [], [], .all, .plain, [⟨F.WCH_X_TUNE_LEAD, .rw⟩, ⟨F.WCH_X_TUNE_SLEW, .rw⟩]⟩]
/-- The registers of the PWR block. -/
def regsPwr : List RegDesc := [
  ⟨"PWR_STATUS", 0x0, [], [.shown, .aliasReadOnly], .all, .plain, [⟨F.PWR_STATUS_MODE, .ro⟩, ⟨F.PWR_STATUS_EMERG, .ro⟩, ⟨F.PWR_STATUS_HOLD, .ro⟩, ⟨F.PWR_STATUS_FAST_CLAMP, .ro⟩, ⟨F.PWR_STATUS_FIXED_LEFT, .ro⟩, ⟨F.PWR_STATUS_INPUT_W, .ro⟩, ⟨F.PWR_STATUS_AVG_W, .ro⟩, ⟨F.PWR_STATUS_ALLOW_W, .ro⟩]⟩,
  ⟨"PWR_INPUT", 0x8, [], [.shown, .aliasReadOnly], .all, .plain, [⟨F.PWR_INPUT_VIN, .ro⟩, ⟨F.PWR_INPUT_IIN, .ro⟩]⟩,
  ⟨"PWR_ALARM", 0x10, [], [], .all, .plain, [⟨F.PWR_ALARM_VTABLE_FALLBACK, .w1c⟩, ⟨F.PWR_ALARM_THERMAL_WARN, .w1c⟩, ⟨F.PWR_ALARM_THERMAL_EMERGENCY, .w1c⟩, ⟨F.PWR_ALARM_BELOW_PROMISE, .w1c⟩, ⟨F.PWR_ALARM_FAST_LIMIT, .w1c⟩, ⟨F.PWR_ALARM_FIXED_LEFT, .w1c⟩, ⟨F.PWR_ALARM_RAIL_FAULT_PREV, .w1c⟩, ⟨F.PWR_ALARM_THERMAL_TRIP_PREV, .w1c⟩, ⟨F.PWR_ALARM_POWER_FAIL_PREV, .w1c⟩]⟩,
  ⟨"PWR_MODE", 0x18, [], [], .all, .hPwrMode, [⟨F.PWR_MODE_MODE, .rw⟩, ⟨F.PWR_MODE_FIXED_OP, .rw⟩]⟩,
  ⟨"PWR_CAP", 0x20, [], [], .all, .hPwrCap, [⟨F.PWR_CAP_CAP_W, .rw⟩]⟩,
  ⟨"PWR_PHASE_BUOY", 0x28, [], [.part, .shown], .all, .plain, [⟨F.PWR_PHASE_BUOY_BUOY, .rw⟩, ⟨F.PWR_PHASE_BUOY_EN, .rw⟩]⟩,
  ⟨"PWR_LEARN_SEL", 0x30, [], [.part, .shown], .all, .plain, [⟨F.PWR_LEARN_SEL_PHASE, .rw⟩, ⟨F.PWR_LEARN_SEL_DIE, .rw⟩]⟩,
  ⟨"PWR_LEARN_READ", 0x38, [], [.part, .shown], .all, .hPwrLearnRead, [⟨F.PWR_LEARN_READ_EST_UJ, .ro⟩, ⟨F.PWR_LEARN_READ_SAMPLES, .ro⟩, ⟨F.PWR_LEARN_READ_VALID, .ro⟩]⟩,
  ⟨"PWR_TD_STATUS", 0x100, [(8, 0x40)], [.shown, .aliasReadOnly], .die, .plain, [⟨F.PWR_TD_STATUS_OP, .ro⟩, ⟨F.PWR_TD_STATUS_TARGET, .ro⟩, ⟨F.PWR_TD_STATUS_MV, .ro⟩, ⟨F.PWR_TD_STATUS_FALLBACK, .ro⟩, ⟨F.PWR_TD_STATUS_WARN, .ro⟩, ⟨F.PWR_TD_STATUS_EMERG, .ro⟩, ⟨F.PWR_TD_STATUS_TEMP_C, .ro⟩]⟩,
  ⟨"PWR_TD_ENERGY", 0x108, [(8, 0x40)], [], .all, .plain, [⟨F.COUNT, .ro⟩]⟩,
  ⟨"PWR_TD_CAPPED", 0x110, [(8, 0x40)], [], .all, .plain, [⟨F.COUNT, .ro⟩]⟩,
  ⟨"PWR_TD_VTABLE", 0x120, [(8, 0x40), (4, 0x8)], [], .all, .plain, [⟨F.PWR_TD_VTABLE_E0, .ro⟩, ⟨F.PWR_TD_VTABLE_E1, .ro⟩, ⟨F.PWR_TD_VTABLE_E2, .ro⟩, ⟨F.PWR_TD_VTABLE_E3, .ro⟩]⟩,
  ⟨"PWR_DOM_ON0", 0x2000, [], [], .all, .plain, [⟨F.PWR_DOM_ON0_ON, .ro⟩]⟩,
  ⟨"PWR_DOM_ON1", 0x2008, [], [], .all, .plain, [⟨F.PWR_DOM_ON1_ON, .ro⟩]⟩,
  ⟨"PWR_RAIL_LAST", 0x2010, [], [], .all, .plain, [⟨F.PWR_RAIL_LAST_RAIL, .ro⟩, ⟨F.PWR_RAIL_LAST_WHEN, .ro⟩, ⟨F.PWR_RAIL_LAST_VALID, .ro⟩]⟩,
  ⟨"PWR_THERM_LAST", 0x2018, [], [], .all, .plain, [⟨F.PWR_THERM_LAST_SOURCE, .ro⟩, ⟨F.PWR_THERM_LAST_TEMP_C, .ro⟩, ⟨F.PWR_THERM_LAST_LEVEL, .ro⟩, ⟨F.PWR_THERM_LAST_VALID, .ro⟩]⟩,
  ⟨"PWR_BELOW_PROMISE", 0x2020, [], [], .all, .plain, [⟨F.COUNT, .ro⟩]⟩,
  ⟨"PWR_HOLD_BANDS", 0x2028, [], [], .all, .plain, [⟨F.COUNT, .ro⟩]⟩,
  ⟨"PWR_BOOST_BANDS", 0x2030, [], [], .all, .plain, [⟨F.COUNT, .ro⟩]⟩,
  ⟨"PWR_CTR_CLEAR", 0x2038, [], [], .all, .hPwrCtrClear, [⟨F.PWR_CTR_CLEAR_CLEAR, .w1s⟩]⟩,
  ⟨"PWR_X_TUNE", 0x80000, [], [], .all, .plain, [⟨F.PWR_X_TUNE_LEARN_SHIFT, .rw⟩, ⟨F.PWR_X_TUNE_MAX_OP, .rw⟩, ⟨F.PWR_X_TUNE_THERM_LOWER_C, .rw⟩]⟩]
/-- The registers of the LOG block. -/
def regsLog : List RegDesc := [
  ⟨"LOG_STATUS", 0x0, [], [.shown, .aliasReadOnly], .all, .plain, [⟨F.LOG_STATUS_OPEN, .ro⟩, ⟨F.LOG_STATUS_RD_READY, .ro⟩, ⟨F.LOG_STATUS_SLOT, .ro⟩, ⟨F.LOG_STATUS_NUMBER, .ro⟩]⟩,
  ⟨"LOG_ALARM", 0x8, [], [], .all, .plain, [⟨F.LOG_ALARM_LOG_INCIDENT_LOST, .w1c⟩]⟩,
  ⟨"LOG_LINES", 0x10, [(4, 0x8)], [.shown, .aliasReadOnly], .all, .hLogLines, [⟨F.LOG_LINES_LEVEL, .ro⟩]⟩,
  ⟨"LOG_CFG", 0x40, [], [], .all, .plain, [⟨F.LOG_CFG_EVENT_LIMIT, .rw⟩, ⟨F.LOG_CFG_TRACE_EN, .rw⟩]⟩,
  ⟨"LOG_RD_SEL", 0x48, [], [], .all, .hLogRdSel, [⟨F.LOG_RD_SEL_AREA, .rw⟩, ⟨F.LOG_RD_SEL_SLOT, .rw⟩, ⟨F.LOG_RD_SEL_INDEX, .rw⟩]⟩,
  ⟨"LOG_RD_DATA", 0x100, [(8, 0x8)], [], .all, .plain, [⟨F.LOG_RD_DATA_DATA, .ro⟩]⟩,
  ⟨"LOG_SEQ", 0x1000, [], [], .all, .plain, [⟨F.COUNT, .ro⟩]⟩,
  ⟨"LOG_SUPPRESSED", 0x1008, [], [], .all, .plain, [⟨F.COUNT, .ro⟩]⟩,
  ⟨"LOG_TRACE_DROPS", 0x1010, [], [], .all, .plain, [⟨F.COUNT, .ro⟩]⟩,
  ⟨"LOG_TRACE_ADDR", 0x1018, [], [], .all, .hLogTraceAddr, [⟨F.LOG_TRACE_ADDR_ADDR_LO, .rw⟩, ⟨F.LOG_TRACE_ADDR_ADDR_HI, .rw⟩]⟩,
  ⟨"LOG_TRACE_CTRL", 0x1020, [], [], .all, .hLogTraceCtrl, [⟨F.LOG_TRACE_CTRL_LOG2, .rw⟩]⟩,
  ⟨"LOG_TRACE_HEAD", 0x1028, [], [], .all, .plain, [⟨F.COUNT, .ro⟩]⟩,
  ⟨"LOG_X_TUNE", 0x80000, [], [], .all, .plain, [⟨F.LOG_X_TUNE_QUIET_S, .rw⟩]⟩]
/-- The registers of the FTS block. -/
def regsFts : List RegDesc := [
  ⟨"FTS_STATUS", 0x0, [], [.shown, .aliasReadOnly], .all, .hFtsStatus, [⟨F.FTS_STATUS_LIB_OK, .ro⟩, ⟨F.FTS_STATUS_SUSPECT, .ro⟩, ⟨F.FTS_STATUS_STARVED, .ro⟩, ⟨F.FTS_STATUS_RETIRED, .ro⟩]⟩,
  ⟨"FTS_CFG", 0x8, [], [], .all, .plain, [⟨F.FTS_CFG_EN, .rw⟩, ⟨F.FTS_CFG_PASS_EVENT, .rw⟩]⟩,
  ⟨"FTS_ALARM", 0x10, [], [], .all, .plain, [⟨F.FTS_ALARM_FT_FAIL, .w1c⟩, ⟨F.FTS_ALARM_FT_RETIRED, .w1c⟩, ⟨F.FTS_ALARM_FT_STARVED, .w1c⟩, ⟨F.FTS_ALARM_FT_LIBRARY, .w1c⟩]⟩,
  ⟨"FTS_UNIT_SEL", 0x18, [], [], .all, .plain, [⟨F.FTS_UNIT_SEL_UNIT, .rw⟩]⟩,
  ⟨"FTS_UNIT", 0x20, [], [], .all, .hFtsUnit, [⟨F.FTS_UNIT_STATE, .ro⟩, ⟨F.FTS_UNIT_STARVED, .ro⟩, ⟨F.FTS_UNIT_METHOD, .ro⟩, ⟨F.FTS_UNIT_FAILS, .ro⟩, ⟨F.FTS_UNIT_PASSES, .ro⟩, ⟨F.FTS_UNIT_ABORTS, .ro⟩, ⟨F.FTS_UNIT_SEGMENT, .ro⟩]⟩,
  ⟨"FTS_UNIT_LAST", 0x28, [], [], .all, .hFtsUnitLast, [⟨F.FTS_UNIT_LAST_TEST_LO, .ro⟩, ⟨F.FTS_UNIT_LAST_PASS_LO, .ro⟩]⟩,
  ⟨"FTS_RUN", 0x30, [], [], .all, .hFtsRun, [⟨F.FTS_RUN_UNIT, .rw⟩, ⟨F.FTS_RUN_GO, .w1s⟩]⟩,
  ⟨"FTS_FAIL_LAST", 0x38, [], [], .all, .plain, [⟨F.FTS_FAIL_LAST_UNIT, .ro⟩, ⟨F.FTS_FAIL_LAST_SEGMENT, .ro⟩, ⟨F.FTS_FAIL_LAST_FAILS, .ro⟩, ⟨F.FTS_FAIL_LAST_METHOD, .ro⟩, ⟨F.FTS_FAIL_LAST_VALID, .ro⟩]⟩,
  ⟨"FTS_TESTS", 0x1000, [], [], .all, .plain, [⟨F.COUNT, .ro⟩]⟩,
  ⟨"FTS_FAILS", 0x1008, [], [], .all, .plain, [⟨F.COUNT, .ro⟩]⟩,
  ⟨"FTS_ABORTS", 0x1010, [], [], .all, .plain, [⟨F.COUNT, .ro⟩]⟩,
  ⟨"FTS_CTR_CLEAR", 0x1018, [], [], .all, .hFtsCtrClear, [⟨F.FTS_CTR_CLEAR_CLEAR, .w1s⟩]⟩,
  ⟨"FTS_X_TUNE", 0x80000, [], [], .all, .plain, [⟨F.FTS_X_TUNE_INTERVAL_H, .rw⟩, ⟨F.FTS_X_TUNE_OBS_H, .rw⟩, ⟨F.FTS_X_TUNE_RETIRE_AFTER, .rw⟩, ⟨F.FTS_X_TUNE_ABORT_LIMIT, .rw⟩]⟩]
/-- The registers of the TD block (part 1). -/
def regsTd0 : List RegDesc := [
  ⟨"TD_ME_STATUS", 0x10000, [(16, 0x100)], [.shown], .cluster, .plain, [⟨F.TD_ME_STATUS_STATE, .ro⟩, ⟨F.TD_ME_STATUS_SHADOW_READY, .ro⟩, ⟨F.TD_ME_STATUS_ACTIVE_VALID, .ro⟩, ⟨F.TD_ME_STATUS_PHYS, .ro⟩, ⟨F.TD_ME_STATUS_RETIRED, .ro⟩]⟩,
  ⟨"TD_ME_ERR_LAST", 0x10008, [(16, 0x100)], [.shown], .cluster, .plain, [⟨F.TD_ME_ERR_LAST_CODE, .ro⟩, ⟨F.TD_ME_ERR_LAST_COMMAND, .ro⟩, ⟨F.TD_ME_ERR_LAST_WATCH_LO, .ro⟩]⟩,
  ⟨"TD_ME_CYC_BUSY", 0x10010, [(16, 0x100)], [.shown], .cluster, .plain, [⟨F.COUNT, .ro⟩]⟩,
  ⟨"TD_ME_CYC_ADV", 0x10018, [(16, 0x100)], [.shown], .cluster, .plain, [⟨F.COUNT, .ro⟩]⟩,
  ⟨"TD_ME_FROZEN", 0x10020, [(16, 0x100)], [.shown], .cluster, .plain, [⟨F.COUNT, .ro⟩]⟩,
  ⟨"TD_ME_FRZ_FEED_A", 0x10028, [(16, 0x100)], [.shown], .cluster, .plain, [⟨F.COUNT, .ro⟩]⟩,
  ⟨"TD_ME_FRZ_FEED_B", 0x10030, [(16, 0x100)], [.shown], .cluster, .plain, [⟨F.COUNT, .ro⟩]⟩,
  ⟨"TD_ME_FRZ_DRAIN", 0x10038, [(16, 0x100)], [.shown], .cluster, .plain, [⟨F.COUNT, .ro⟩]⟩,
  ⟨"TD_ME_FRZ_SHADOW", 0x10040, [(16, 0x100)], [.shown], .cluster, .plain, [⟨F.COUNT, .ro⟩]⟩,
  ⟨"TD_ME_ROWS", 0x10048, [(16, 0x100)], [.shown], .cluster, .plain, [⟨F.COUNT, .ro⟩]⟩,
  ⟨"TD_ME_LOADS", 0x10050, [(16, 0x100)], [.shown], .cluster, .plain, [⟨F.COUNT, .ro⟩]⟩,
  ⟨"TD_ME_OUT_NAN", 0x10058, [(16, 0x100)], [.shown], .cluster, .plain, [⟨F.COUNT, .ro⟩]⟩,
  ⟨"TD_ME_OUT_SAT", 0x10060, [(16, 0x100)], [.shown], .cluster, .plain, [⟨F.COUNT, .ro⟩]⟩,
  ⟨"TD_ME_CTR_CLEAR", 0x10068, [(16, 0x100)], [.shown], .cluster, .hTdMeCtrClear, [⟨F.TD_ME_CTR_CLEAR_CLEAR, .w1s⟩]⟩,
  ⟨"TD_ME_WAIT", 0x10070, [(16, 0x100)], [.shown], .cluster, .plain, [⟨F.COUNT, .ro⟩]⟩,
  ⟨"TD_ME_CFG", 0x11000, [], [], .all, .plain, [⟨F.TD_ME_CFG_COUNT_EN, .rw⟩, ⟨F.TD_ME_CFG_ERR_EVENT, .rw⟩]⟩,
  ⟨"TD_ME_MAP0", 0x11008, [], [], .all, .plain, [⟨F.TD_ME_MAP0_PHYS0, .ro⟩, ⟨F.TD_ME_MAP0_SPARE0, .ro⟩, ⟨F.TD_ME_MAP0_RETIRED0, .ro⟩, ⟨F.TD_ME_MAP0_PHYS1, .ro⟩, ⟨F.TD_ME_MAP0_SPARE1, .ro⟩, ⟨F.TD_ME_MAP0_RETIRED1, .ro⟩, ⟨F.TD_ME_MAP0_PHYS2, .ro⟩, ⟨F.TD_ME_MAP0_SPARE2, .ro⟩, ⟨F.TD_ME_MAP0_RETIRED2, .ro⟩, ⟨F.TD_ME_MAP0_PHYS3, .ro⟩, ⟨F.TD_ME_MAP0_SPARE3, .ro⟩, ⟨F.TD_ME_MAP0_RETIRED3, .ro⟩, ⟨F.TD_ME_MAP0_PHYS4, .ro⟩, ⟨F.TD_ME_MAP0_SPARE4, .ro⟩, ⟨F.TD_ME_MAP0_RETIRED4, .ro⟩, ⟨F.TD_ME_MAP0_PHYS5, .ro⟩, ⟨F.TD_ME_MAP0_SPARE5, .ro⟩, ⟨F.TD_ME_MAP0_RETIRED5, .ro⟩, ⟨F.TD_ME_MAP0_PHYS6, .ro⟩, ⟨F.TD_ME_MAP0_SPARE6, .ro⟩, ⟨F.TD_ME_MAP0_RETIRED6, .ro⟩, ⟨F.TD_ME_MAP0_PHYS7, .ro⟩, ⟨F.TD_ME_MAP0_SPARE7, .ro⟩, ⟨F.TD_ME_MAP0_RETIRED7, .ro⟩]⟩,
  ⟨"TD_ME_MAP1", 0x11010, [], [], .all, .plain, [⟨F.TD_ME_MAP1_PHYS0, .ro⟩, ⟨F.TD_ME_MAP1_SPARE0, .ro⟩, ⟨F.TD_ME_MAP1_RETIRED0, .ro⟩, ⟨F.TD_ME_MAP1_PHYS1, .ro⟩, ⟨F.TD_ME_MAP1_SPARE1, .ro⟩, ⟨F.TD_ME_MAP1_RETIRED1, .ro⟩, ⟨F.TD_ME_MAP1_PHYS2, .ro⟩, ⟨F.TD_ME_MAP1_SPARE2, .ro⟩, ⟨F.TD_ME_MAP1_RETIRED2, .ro⟩, ⟨F.TD_ME_MAP1_PHYS3, .ro⟩, ⟨F.TD_ME_MAP1_SPARE3, .ro⟩, ⟨F.TD_ME_MAP1_RETIRED3, .ro⟩, ⟨F.TD_ME_MAP1_PHYS4, .ro⟩, ⟨F.TD_ME_MAP1_SPARE4, .ro⟩, ⟨F.TD_ME_MAP1_RETIRED4, .ro⟩, ⟨F.TD_ME_MAP1_PHYS5, .ro⟩, ⟨F.TD_ME_MAP1_SPARE5, .ro⟩, ⟨F.TD_ME_MAP1_RETIRED5, .ro⟩, ⟨F.TD_ME_MAP1_PHYS6, .ro⟩, ⟨F.TD_ME_MAP1_SPARE6, .ro⟩, ⟨F.TD_ME_MAP1_RETIRED6, .ro⟩, ⟨F.TD_ME_MAP1_PHYS7, .ro⟩, ⟨F.TD_ME_MAP1_SPARE7, .ro⟩, ⟨F.TD_ME_MAP1_RETIRED7, .ro⟩]⟩,
  ⟨"TD_ME_SPARES", 0x11018, [], [], .all, .plain, [⟨F.TD_ME_SPARES_LEFT, .ro⟩]⟩,
  ⟨"TD_X_ME_FEED", 0x90000, [(16, 0x10)], [.shown], .cluster, .plain, [⟨F.TD_X_ME_FEED_A_DEPTH, .rw⟩, ⟨F.TD_X_ME_FEED_SRAM_PRIO, .rw⟩]⟩,
  ⟨"TD_VE_STATUS", 0x20000, [(16, 0x100)], [.shown], .cluster, .plain, [⟨F.TD_VE_STATUS_STATE, .ro⟩, ⟨F.TD_VE_STATUS_SIDE_ARMED, .ro⟩, ⟨F.TD_VE_STATUS_NARROW, .ro⟩]⟩,
  ⟨"TD_VE_ERR_LAST", 0x20008, [(16, 0x100)], [.shown], .cluster, .plain, [⟨F.TD_VE_ERR_LAST_CODE, .ro⟩, ⟨F.TD_VE_ERR_LAST_COMMAND, .ro⟩, ⟨F.TD_VE_ERR_LAST_WATCH_LO, .ro⟩]⟩,
  ⟨"TD_VE_CYC_BUSY", 0x20010, [(16, 0x100)], [.shown], .cluster, .plain, [⟨F.COUNT, .ro⟩]⟩,
  ⟨"TD_VE_CYC_ACT", 0x20018, [(16, 0x100)], [.shown], .cluster, .plain, [⟨F.COUNT, .ro⟩]⟩,
  ⟨"TD_VE_WAIT_MEM", 0x20020, [(16, 0x100)], [.shown], .cluster, .plain, [⟨F.COUNT, .ro⟩]⟩,
  ⟨"TD_VE_WAIT_DEP", 0x20028, [(16, 0x100)], [.shown], .cluster, .plain, [⟨F.COUNT, .ro⟩]⟩,
  ⟨"TD_VE_WAIT", 0x20030, [(16, 0x100)], [.shown], .cluster, .plain, [⟨F.COUNT, .ro⟩]⟩,
  ⟨"TD_VE_CMDS", 0x20038, [(16, 0x100)], [.shown], .cluster, .plain, [⟨F.COUNT, .ro⟩]⟩,
  ⟨"TD_VE_EXC_INVALID", 0x20040, [(16, 0x100)], [.shown], .cluster, .plain, [⟨F.COUNT, .ro⟩]⟩,
  ⟨"TD_VE_EXC_DIVZERO", 0x20048, [(16, 0x100)], [.shown], .cluster, .plain, [⟨F.COUNT, .ro⟩]⟩,
  ⟨"TD_VE_EXC_OVERFLOW", 0x20050, [(16, 0x100)], [.shown], .cluster, .plain, [⟨F.COUNT, .ro⟩]⟩,
  ⟨"TD_VE_EXC_SAT", 0x20058, [(16, 0x100)], [.shown], .cluster, .plain, [⟨F.COUNT, .ro⟩]⟩,
  ⟨"TD_VE_SIDE_USE", 0x20060, [(16, 0x100)], [.shown], .cluster, .plain, [⟨F.COUNT, .ro⟩]⟩,
  ⟨"TD_VE_CTR_CLEAR", 0x20068, [(16, 0x100)], [.shown], .cluster, .hTdVeCtrClear, [⟨F.TD_VE_CTR_CLEAR_CLEAR, .w1s⟩]⟩,
  ⟨"TD_VE_CFG", 0x21000, [], [], .all, .plain, [⟨F.TD_VE_CFG_COUNT_EN, .rw⟩, ⟨F.TD_VE_CFG_ERR_EVENT, .rw⟩, ⟨F.TD_VE_CFG_SIDE_EVENT, .rw⟩]⟩,
  ⟨"TD_X_VE_TUNE", 0xa0000, [(16, 0x10)], [.shown], .cluster, .plain, [⟨F.TD_X_VE_TUNE_LOAD_DEPTH, .rw⟩, ⟨F.TD_X_VE_TUNE_SRAM_PRIO, .rw⟩]⟩,
  ⟨"TD_CE_STATUS", 0x30000, [(8, 0x100)], [.shown], .copy, .plain, [⟨F.TD_CE_STATUS_STATE, .ro⟩, ⟨F.TD_CE_STATUS_DOORBELL_WAIT, .ro⟩]⟩,
  ⟨"TD_CE_ERR_LAST", 0x30008, [(8, 0x100)], [.shown], .copy, .plain, [⟨F.TD_CE_ERR_LAST_CODE, .ro⟩, ⟨F.TD_CE_ERR_LAST_COMMAND, .ro⟩, ⟨F.TD_CE_ERR_LAST_WATCH_LO, .ro⟩]⟩,
  ⟨"TD_CE_CYC_BUSY", 0x30010, [(8, 0x100)], [.shown], .copy, .plain, [⟨F.COUNT, .ro⟩]⟩,
  ⟨"TD_CE_CYC_ACT", 0x30018, [(8, 0x100)], [.shown], .copy, .plain, [⟨F.COUNT, .ro⟩]⟩]
/-- The registers of the TD block (part 2). -/
def regsTd1 : List RegDesc := [
  ⟨"TD_CE_WAIT_MEM", 0x30020, [(8, 0x100)], [.shown], .copy, .plain, [⟨F.COUNT, .ro⟩]⟩,
  ⟨"TD_CE_WAIT", 0x30028, [(8, 0x100)], [.shown], .copy, .plain, [⟨F.COUNT, .ro⟩]⟩,
  ⟨"TD_CE_BYTES", 0x30030, [(8, 0x100)], [.shown], .copy, .plain, [⟨F.COUNT, .ro⟩]⟩,
  ⟨"TD_CE_CMDS", 0x30038, [(8, 0x100)], [.shown], .copy, .plain, [⟨F.COUNT, .ro⟩]⟩,
  ⟨"TD_CE_CTR_CLEAR", 0x30040, [(8, 0x100)], [.shown], .copy, .hTdCeCtrClear, [⟨F.TD_CE_CTR_CLEAR_CLEAR, .w1s⟩]⟩,
  ⟨"TD_CE_CFG", 0x31000, [], [], .all, .plain, [⟨F.TD_CE_CFG_COUNT_EN, .rw⟩, ⟨F.TD_CE_CFG_ERR_EVENT, .rw⟩]⟩,
  ⟨"TD_X_CE_TUNE", 0xb0000, [(8, 0x10)], [.shown], .copy, .plain, [⟨F.TD_X_CE_TUNE_REQ_DEPTH, .rw⟩, ⟨F.TD_X_CE_TUNE_SRAM_PRIO, .rw⟩]⟩]
/-- The registers of the TD block. -/
def regsTd : List RegDesc := regsTd0 ++ regsTd1
/-- The registers of the HBM block. -/
def regsHbm : List RegDesc := [
  ⟨"HBM_STATUS", 0x0, [], [], .all, .plain, [⟨F.HBM_STATUS_STATE, .ro⟩, ⟨F.HBM_STATUS_TEMP_C, .ro⟩, ⟨F.HBM_STATUS_REFRESH_2X, .ro⟩, ⟨F.HBM_STATUS_SCRUB_PCT, .ro⟩]⟩,
  ⟨"HBM_ALARM", 0x8, [], [], .all, .plain, [⟨F.HBM_ALARM_HBM_UNCORRECTABLE, .w1c⟩, ⟨F.HBM_ALARM_HBM_ROW_WEAK, .w1c⟩, ⟨F.HBM_ALARM_HBM_REPAIR_LIST_FULL, .w1c⟩, ⟨F.HBM_ALARM_HBM_REPAIR_FAILED, .w1c⟩]⟩,
  ⟨"HBM_ERR_LAST", 0x10, [], [], .all, .plain, [⟨F.HBM_ERR_LAST_OFFSET_LO, .ro⟩, ⟨F.HBM_ERR_LAST_OFFSET_HI, .ro⟩, ⟨F.HBM_ERR_LAST_KIND, .ro⟩, ⟨F.HBM_ERR_LAST_SOURCE_DIE, .ro⟩, ⟨F.HBM_ERR_LAST_VALID, .ro⟩]⟩,
  ⟨"HBM_CFG", 0x18, [], [], .all, .hHbmCfg, [⟨F.HBM_CFG_LC_PCT, .rw⟩, ⟨F.HBM_CFG_CE_THRESH, .rw⟩, ⟨F.HBM_CFG_ERR_EVENT, .rw⟩]⟩,
  ⟨"HBM_REPAIR", 0x20, [], [], .all, .plain, [⟨F.HBM_REPAIR_SPARES_LEFT, .ro⟩, ⟨F.HBM_REPAIR_PENDING, .ro⟩, ⟨F.HBM_REPAIR_RETIRED, .ro⟩]⟩,
  ⟨"HBM_RD_BYTES", 0x1000, [], [], .all, .plain, [⟨F.COUNT, .ro⟩]⟩,
  ⟨"HBM_WR_BYTES", 0x1008, [], [], .all, .plain, [⟨F.COUNT, .ro⟩]⟩,
  ⟨"HBM_LC_BYTES", 0x1010, [], [], .all, .plain, [⟨F.COUNT, .ro⟩]⟩,
  ⟨"HBM_NARROW", 0x1018, [], [], .all, .plain, [⟨F.COUNT, .ro⟩]⟩,
  ⟨"HBM_CE", 0x1020, [], [], .all, .plain, [⟨F.COUNT, .ro⟩]⟩,
  ⟨"HBM_UE", 0x1028, [], [], .all, .plain, [⟨F.COUNT, .ro⟩]⟩,
  ⟨"HBM_CTR_CLEAR", 0x1030, [], [], .all, .hHbmCtrClear, [⟨F.HBM_CTR_CLEAR_CLEAR, .w1s⟩]⟩,
  ⟨"HBM_X_TUNE", 0x80000, [], [], .all, .hHbmXTune, [⟨F.HBM_X_TUNE_LC_PCT, .rw⟩, ⟨F.HBM_X_TUNE_SCRUB_H, .rw⟩, ⟨F.HBM_X_TUNE_REFRESH_2X, .rw⟩]⟩]
/-- The registers of the MMU block. -/
def regsMmu : List RegDesc := [
  ⟨"MMU_ROOT", 0x0, [], [.part, .shown], .all, .hMmuRoot, [⟨F.MMU_ROOT_EN, .rw⟩, ⟨F.MMU_ROOT_ROOT_LO, .rw⟩, ⟨F.MMU_ROOT_ROOT_HI, .rw⟩]⟩,
  ⟨"MMU_INV", 0x8, [], [.part, .shown], .all, .hMmuInv, [⟨F.MMU_INV_SCOPE, .rw⟩, ⟨F.MMU_INV_GO, .w1s⟩]⟩,
  ⟨"MMU_INV_VA", 0x10, [], [.part, .shown], .all, .plain, [⟨F.MMU_INV_VA_VA_LO, .rw⟩, ⟨F.MMU_INV_VA_VA_HI, .rw⟩]⟩,
  ⟨"MMU_INV_LEN", 0x18, [], [.part, .shown], .all, .plain, [⟨F.MMU_INV_LEN_PAGES, .rw⟩]⟩,
  ⟨"MMU_FQ_ADDR", 0x20, [], [.part, .shown], .all, .hMmuFqAddr, [⟨F.MMU_FQ_ADDR_ADDR_LO, .rw⟩, ⟨F.MMU_FQ_ADDR_ADDR_HI, .rw⟩]⟩,
  ⟨"MMU_FQ_CTRL", 0x28, [], [.part, .shown], .all, .hMmuFqCtrl, [⟨F.MMU_FQ_CTRL_LOG2, .rw⟩, ⟨F.MMU_FQ_CTRL_BUOY, .rw⟩, ⟨F.MMU_FQ_CTRL_BUOY_EN, .rw⟩]⟩,
  ⟨"MMU_FQ_HEAD", 0x30, [], [.part, .shown], .all, .plain, [⟨F.COUNT, .ro⟩]⟩,
  ⟨"MMU_FQ_LOST", 0x38, [], [.part, .shown], .all, .plain, [⟨F.COUNT, .ro⟩]⟩,
  ⟨"MMU_FAULTS", 0x40, [], [.part, .shown], .all, .plain, [⟨F.COUNT, .ro⟩]⟩,
  ⟨"MMU_SPILL_ADDR", 0x48, [], [.part, .shown], .all, .plain, [⟨F.MMU_SPILL_ADDR_ADDR_LO, .rw⟩, ⟨F.MMU_SPILL_ADDR_ADDR_HI, .rw⟩]⟩,
  ⟨"MMU_SPILL_CTRL", 0x50, [], [.part, .shown], .all, .hMmuSpillCtrl, [⟨F.MMU_SPILL_CTRL_SLOTS, .rw⟩]⟩,
  ⟨"MMU_RESUME", 0x58, [], [.part, .shown], .all, .hMmuResume, [⟨F.MMU_RESUME_FAULT, .wo⟩, ⟨F.MMU_RESUME_ACTION, .wo⟩]⟩,
  ⟨"MMU_PART_STATUS", 0x60, [], [.part, .shown], .all, .hMmuPartStatus, [⟨F.MMU_PART_STATUS_HELD, .ro⟩, ⟨F.MMU_PART_STATUS_BAD_RESUME, .w1c⟩, ⟨F.MMU_PART_STATUS_NO_SPILL, .w1c⟩]⟩,
  ⟨"MMU_FLIP_STAGE", 0x68, [], [.part, .shown], .flipMask, .hMmuFlipStage, [⟨F.MMU_FLIP_STAGE_MASK_LO, .rw⟩, ⟨F.MMU_FLIP_STAGE_MASK_HI, .rw⟩]⟩,
  ⟨"MMU_WLK_STATUS", 0x10000, [(8, 0x100)], [], .all, .plain, [⟨F.MMU_WLK_STATUS_BUSY, .ro⟩, ⟨F.MMU_WLK_STATUS_BUSY_GR, .ro⟩]⟩,
  ⟨"MMU_WALKS", 0x10008, [(8, 0x100)], [], .all, .plain, [⟨F.COUNT, .ro⟩]⟩,
  ⟨"MMU_TLB_MISSES", 0x10010, [(8, 0x100)], [], .all, .plain, [⟨F.COUNT, .ro⟩]⟩,
  ⟨"MMU_WALK_MAX", 0x10018, [(8, 0x100)], [], .all, .plain, [⟨F.MMU_WALK_MAX_MAX_NS, .ro⟩]⟩,
  ⟨"MMU_CTR_CLEAR", 0x10020, [(8, 0x100)], [], .all, .hMmuCtrClear, [⟨F.MMU_CTR_CLEAR_CLEAR, .w1s⟩]⟩,
  ⟨"MMU_FAULT_LAST", 0x20000, [], [], .all, .plain, [⟨F.MMU_FAULT_LAST_ENGINE, .ro⟩, ⟨F.MMU_FAULT_LAST_PARTITION, .ro⟩, ⟨F.MMU_FAULT_LAST_KIND, .ro⟩, ⟨F.MMU_FAULT_LAST_CLASS, .ro⟩, ⟨F.MMU_FAULT_LAST_VALID, .ro⟩]⟩,
  ⟨"MMU_STALE", 0x20008, [], [], .all, .plain, [⟨F.COUNT, .ro⟩]⟩,
  ⟨"MMU_CFG", 0x20010, [], [], .all, .plain, [⟨F.MMU_CFG_FAULT_EVENT, .rw⟩]⟩,
  ⟨"MMU_X_WLK", 0x80000, [(8, 0x10)], [], .all, .plain, [⟨F.MMU_X_WLK_GR_WALKERS, .rw⟩]⟩]
/-- The registers of the COH block. -/
def regsCoh : List RegDesc := [
  ⟨"COH_ALARM", 0x0, [], [], .all, .plain, [⟨F.COH_ALARM_COH_TIMEOUT, .w1c⟩, ⟨F.COH_ALARM_HDRAM_UNCORRECTABLE, .w1c⟩]⟩,
  ⟨"COH_TO_LAST", 0x8, [], [], .all, .plain, [⟨F.COH_TO_LAST_DIE, .ro⟩, ⟨F.COH_TO_LAST_AGENT, .ro⟩, ⟨F.COH_TO_LAST_ENGINE, .ro⟩, ⟨F.COH_TO_LAST_VALID, .ro⟩]⟩,
  ⟨"COH_TO_ADDR", 0x10, [], [], .all, .plain, [⟨F.COH_TO_ADDR_ADDR_LO, .ro⟩, ⟨F.COH_TO_ADDR_ADDR_HI, .ro⟩]⟩,
  ⟨"COH_TIMEOUTS", 0x18, [], [], .all, .plain, [⟨F.COUNT, .ro⟩]⟩,
  ⟨"COH_POISON_LAST", 0x20, [], [], .all, .plain, [⟨F.COH_POISON_LAST_DIE, .ro⟩, ⟨F.COH_POISON_LAST_AGENT, .ro⟩, ⟨F.COH_POISON_LAST_ENGINE, .ro⟩, ⟨F.COH_POISON_LAST_VALID, .ro⟩]⟩,
  ⟨"COH_POISON_ADDR", 0x28, [], [], .all, .plain, [⟨F.COH_POISON_ADDR_ADDR_LO, .ro⟩, ⟨F.COH_POISON_ADDR_ADDR_HI, .ro⟩]⟩,
  ⟨"COH_POISON_USED", 0x30, [], [], .all, .plain, [⟨F.COUNT, .ro⟩]⟩,
  ⟨"COH_X_TUNE", 0x80000, [], [], .all, .plain, [⟨F.COH_X_TUNE_TO_US, .rw⟩]⟩]
/-- The registers of the BUY block. -/
def regsBuy : List RegDesc := [
  ⟨"BUY_VALUE", 0x0, [(16384, 0x8)], [.shown], .buoy, .plain, [⟨F.BUY_VALUE_VALUE, .ro⟩]⟩,
  ⟨"BUY_SIGNAL", 0x20000, [], [.part, .shown], .all, .hBuySignal, [⟨F.BUY_SIGNAL_BUOY, .wo⟩, ⟨F.BUY_SIGNAL_VALUE, .wo⟩]⟩,
  ⟨"BUY_ADD", 0x20008, [], [.part, .shown], .all, .hBuyAdd, [⟨F.BUY_ADD_BUOY, .wo⟩, ⟨F.BUY_ADD_VALUE, .wo⟩]⟩,
  ⟨"BUY_HIT", 0x20010, [], [.part, .shown], .all, .hBuyHit, [⟨F.BUY_HIT_HIT, .w1c⟩]⟩,
  ⟨"BUY_DOORBELL", 0x20100, [(64, 0x8)], [.part, .shown], .all, .hBuyDoorbell, [⟨F.BUY_DOORBELL_PUBLISHED, .rw⟩]⟩,
  ⟨"BUY_ARM", 0x20400, [(8, 0x8)], [.part, .shown], .all, .hBuyArm, [⟨F.BUY_ARM_BUOY, .rw⟩, ⟨F.BUY_ARM_EN, .rw⟩, ⟨F.BUY_ARM_TARGET, .rw⟩]⟩,
  ⟨"MBX_E2H_READ", 0x21000, [], [.part, .shown], .all, .hMbxE2HRead, [⟨F.MBX_E2H_READ_ENTRY, .rc⟩]⟩,
  ⟨"MBX_E2H_COUNT", 0x21008, [], [.part, .shown], .all, .hMbxE2HCount, [⟨F.MBX_E2H_COUNT_COUNT, .ro⟩]⟩,
  ⟨"MBX_H2K_WRITE", 0x21010, [], [.part, .shown], .all, .hMbxH2KWrite, [⟨F.MBX_H2K_WRITE_ENTRY, .wo⟩]⟩,
  ⟨"MBX_H2K_COUNT", 0x21018, [], [.part, .shown], .all, .hMbxH2KCount, [⟨F.MBX_H2K_COUNT_COUNT, .ro⟩]⟩,
  ⟨"MBX_K2H_READ", 0x21020, [], [.part, .shown], .all, .hMbxK2HRead, [⟨F.MBX_K2H_READ_ENTRY, .rc⟩]⟩,
  ⟨"MBX_K2H_COUNT", 0x21028, [], [.part, .shown], .all, .hMbxK2HCount, [⟨F.MBX_K2H_COUNT_COUNT, .ro⟩]⟩,
  ⟨"MBX_STATUS", 0x21030, [], [.part, .shown], .all, .plain, [⟨F.MBX_STATUS_E2H_DROP, .w1c⟩, ⟨F.MBX_STATUS_H2K_DROP, .w1c⟩, ⟨F.MBX_STATUS_E2H_UNDER, .w1c⟩, ⟨F.MBX_STATUS_K2H_UNDER, .w1c⟩, ⟨F.MBX_STATUS_E2H_XQRESET, .w1c⟩, ⟨F.MBX_STATUS_H2K_XQRESET, .w1c⟩, ⟨F.MBX_STATUS_K2H_XQRESET, .w1c⟩]⟩,
  ⟨"MBX_CTRL", 0x21038, [], [.part, .shown], .all, .hMbxCtrl, [⟨F.MBX_CTRL_RESET_E2H, .w1s⟩, ⟨F.MBX_CTRL_RESET_H2K, .w1s⟩, ⟨F.MBX_CTRL_RESET_K2H, .w1s⟩]⟩,
  ⟨"MBX_DROPS", 0x21040, [], [.part, .shown], .all, .plain, [⟨F.COUNT, .ro⟩]⟩,
  ⟨"BUY_ERR_LAST", 0x30000, [], [], .all, .plain, [⟨F.BUY_ERR_LAST_ENGINE, .ro⟩, ⟨F.BUY_ERR_LAST_PARTITION, .ro⟩, ⟨F.BUY_ERR_LAST_CODE, .ro⟩, ⟨F.BUY_ERR_LAST_COMMAND, .ro⟩, ⟨F.BUY_ERR_LAST_VALID, .ro⟩]⟩,
  ⟨"BUY_WAIT_EXPIRED", 0x30008, [], [], .all, .plain, [⟨F.COUNT, .ro⟩]⟩,
  ⟨"BUY_XQ_RESETS", 0x30010, [], [], .all, .plain, [⟨F.COUNT, .ro⟩]⟩,
  ⟨"BUY_XQ_LAST", 0x30018, [], [], .all, .plain, [⟨F.BUY_XQ_LAST_DIE, .ro⟩, ⟨F.BUY_XQ_LAST_WR_DOM, .ro⟩, ⟨F.BUY_XQ_LAST_RD_DOM, .ro⟩, ⟨F.BUY_XQ_LAST_MBX, .ro⟩, ⟨F.BUY_XQ_LAST_LOST, .ro⟩, ⟨F.BUY_XQ_LAST_VALID, .ro⟩]⟩,
  ⟨"BUY_X_INJECT", 0x80000, [], [], .all, .hBuyXInject, [⟨F.BUY_X_INJECT_DIE, .rw⟩, ⟨F.BUY_X_INJECT_MBX, .rw⟩, ⟨F.BUY_X_INJECT_FIRE, .w1s⟩]⟩]
/-- The registers of the LNK block. -/
def regsLnk : List RegDesc := [
  ⟨"LNK_PORT_STATUS", 0x0, [(8, 0x100)], [.shown, .aliasReadOnly], .all, .plain, [⟨F.LNK_PORT_STATUS_STATE, .ro⟩, ⟨F.LNK_PORT_STATUS_HALF, .ro⟩, ⟨F.LNK_PORT_STATUS_ETH, .ro⟩, ⟨F.LNK_PORT_STATUS_SAVED_USED, .ro⟩, ⟨F.LNK_PORT_STATUS_FAIL, .ro⟩, ⟨F.LNK_PORT_STATUS_PEER_PKG, .ro⟩, ⟨F.LNK_PORT_STATUS_PEER_PORT, .ro⟩]⟩,
  ⟨"LNK_PORT_CTRL", 0x8, [(8, 0x100)], [], .all, .hLnkPortCtrl, [⟨F.LNK_PORT_CTRL_AUTO, .rw⟩, ⟨F.LNK_PORT_CTRL_HALF, .rw⟩, ⟨F.LNK_PORT_CTRL_RETRAIN, .w1s⟩, ⟨F.LNK_PORT_CTRL_FULL_TRAIN, .w1s⟩, ⟨F.LNK_PORT_CTRL_CHANGE, .w1s⟩]⟩,
  ⟨"LNK_PORT_FLITS", 0x10, [(8, 0x100)], [], .all, .plain, [⟨F.COUNT, .ro⟩]⟩,
  ⟨"LNK_PORT_REPLAYED", 0x18, [(8, 0x100)], [], .all, .plain, [⟨F.COUNT, .ro⟩]⟩,
  ⟨"LNK_PORT_FEC_CORR", 0x20, [(8, 0x100)], [], .all, .plain, [⟨F.COUNT, .ro⟩]⟩,
  ⟨"LNK_PORT_BAD_FLITS", 0x28, [(8, 0x100)], [], .all, .plain, [⟨F.COUNT, .ro⟩]⟩,
  ⟨"LNK_PORT_DOWNS", 0x30, [(8, 0x100)], [], .all, .plain, [⟨F.COUNT, .ro⟩]⟩,
  ⟨"LNK_PKG", 0x10000, [], [.shown, .aliasReadOnly], .all, .plain, [⟨F.LNK_PKG_PKG, .rw⟩]⟩,
  ⟨"LNK_ALARM", 0x10008, [], [], .all, .plain, [⟨F.LNK_ALARM_LINK_DOWN, .w1c⟩, ⟨F.LNK_ALARM_LINK_PEER_LOST, .w1c⟩, ⟨F.LNK_ALARM_LASER_LOW, .w1c⟩, ⟨F.LNK_ALARM_LINK_MISWIRED, .w1c⟩, ⟨F.LNK_ALARM_PORT_CHANGE_ABORTED, .w1c⟩, ⟨F.LNK_ALARM_ETH_QP_ERROR, .w1c⟩]⟩,
  ⟨"LNK_UNREACH_LAST", 0x10010, [], [], .all, .plain, [⟨F.LNK_UNREACH_LAST_PKG, .ro⟩, ⟨F.LNK_UNREACH_LAST_CAUSE, .ro⟩, ⟨F.LNK_UNREACH_LAST_VALID, .ro⟩]⟩,
  ⟨"LNK_LASER", 0x10018, [], [], .all, .plain, [⟨F.LNK_LASER_LOW_CDBM, .ro⟩, ⟨F.LNK_LASER_HIGH_CDBM, .ro⟩]⟩,
  ⟨"LNK_TIME_STATUS", 0x10020, [], [], .all, .plain, [⟨F.LNK_TIME_STATUS_PARENT, .ro⟩, ⟨F.LNK_TIME_STATUS_VALID, .ro⟩, ⟨F.LNK_TIME_STATUS_DELAY_NS, .ro⟩]⟩,
  ⟨"LNK_RSP_TIMEOUTS", 0x10028, [], [], .all, .plain, [⟨F.COUNT, .ro⟩]⟩,
  ⟨"LNK_MSG_DROPPED", 0x10030, [], [], .all, .plain, [⟨F.COUNT, .ro⟩]⟩,
  ⟨"LNK_REMOTE_VIOL", 0x10038, [], [], .all, .plain, [⟨F.COUNT, .ro⟩]⟩,
  ⟨"LNK_CTR_CLEAR", 0x10040, [], [], .all, .hLnkCtrClear, [⟨F.LNK_CTR_CLEAR_CLEAR, .w1s⟩]⟩,
  ⟨"LNK0_ETH_QP_BASE", 0x20000, [], [.first], .all, .hLnk0EthQpBase, [⟨F.LNK0_ETH_QP_BASE_EN, .rw⟩, ⟨F.LNK0_ETH_QP_BASE_BASE_LO, .rw⟩, ⟨F.LNK0_ETH_QP_BASE_BASE_HI, .rw⟩]⟩,
  ⟨"LNK0_ETH_HSTATUS", 0x20008, [], [.first], .all, .hLnk0EthHstatus, [⟨F.LNK0_ETH_HSTATUS_ERR, .w1c⟩]⟩,
  ⟨"LNK0_ETH_STATUS", 0x20010, [], [.first], .all, .plain, [⟨F.LNK0_ETH_STATUS_UP, .ro⟩]⟩,
  ⟨"LNK0_ETH_MAC", 0x20100, [(8, 0x20)], [.first], .all, .plain, [⟨F.LNK0_ETH_MAC_MAC, .rw⟩]⟩,
  ⟨"LNK0_ETH_IP4", 0x20108, [(8, 0x20)], [.first], .all, .plain, [⟨F.LNK0_ETH_IP4_IP, .rw⟩]⟩,
  ⟨"LNK0_ETH_IP6_LO", 0x20110, [(8, 0x20)], [.first], .all, .plain, [⟨F.LNK0_ETH_IP6_LO_IP, .rw⟩]⟩,
  ⟨"LNK0_ETH_IP6_HI", 0x20118, [(8, 0x20)], [.first], .all, .plain, [⟨F.LNK0_ETH_IP6_HI_IP, .rw⟩]⟩,
  ⟨"LNK_X_TUNE", 0x80000, [], [], .all, .plain, [⟨F.LNK_X_TUNE_REPLAY_US, .rw⟩, ⟨F.LNK_X_TUNE_RSP_US, .rw⟩]⟩]
/-- The registers of the COL block. -/
def regsCol : List RegDesc := [
  ⟨"COL_GRP_CFG", 0x0, [(4, 0x1000)], [.shown], .group, .plain, [⟨F.COL_GRP_CFG_SIZE, .rw⟩, ⟨F.COL_GRP_CFG_RANK, .rw⟩, ⟨F.COL_GRP_CFG_X, .rw⟩, ⟨F.COL_GRP_CFG_EPOCH, .rw⟩]⟩,
  ⟨"COL_GRP_APPLY", 0x8, [(4, 0x1000)], [.shown], .group, .hColGrpApply, [⟨F.COL_GRP_APPLY_WATCH_LO, .rw⟩, ⟨F.COL_GRP_APPLY_WATCH_HI, .rw⟩, ⟨F.COL_GRP_APPLY_GO, .w1s⟩]⟩,
  ⟨"COL_GRP_STATUS", 0x10, [(4, 0x1000)], [.shown], .group, .hColGrpStatus, [⟨F.COL_GRP_STATUS_MEMBERS, .ro⟩, ⟨F.COL_GRP_STATUS_APPLY_REFUSED, .w1c⟩, ⟨F.COL_GRP_STATUS_APPLY_PENDING, .ro⟩, ⟨F.COL_GRP_STATUS_EPOCH, .ro⟩]⟩,
  ⟨"COL_GRP_EXCL", 0x20, [(4, 0x1000), (4, 0x8)], [.shown], .group, .plain, [⟨F.COL_GRP_EXCL_MAP, .rw⟩]⟩,
  ⟨"COL_BCN_CFG", 0x40, [(4, 0x1000)], [.shown], .group, .hColBcnCfg, [⟨F.COL_BCN_CFG_F, .rw⟩, ⟨F.COL_BCN_CFG_SKIP_EVENT, .rw⟩]⟩,
  ⟨"COL_BCN_LAST", 0x48, [(4, 0x1000)], [.shown], .group, .plain, [⟨F.COL_BCN_LAST_DECISION, .ro⟩, ⟨F.COL_BCN_LAST_UNSTABLE, .ro⟩, ⟨F.COL_BCN_LAST_DISAGREE, .ro⟩, ⟨F.COL_BCN_LAST_REASON, .ro⟩, ⟨F.COL_BCN_LAST_KNOWN_COUNT, .ro⟩, ⟨F.COL_BCN_LAST_SKIP_COUNT, .ro⟩, ⟨F.COL_BCN_LAST_STEP_LO, .ro⟩]⟩,
  ⟨"COL_BCN_SUMSQ", 0x50, [(4, 0x1000)], [.shown], .group, .plain, [⟨F.COL_BCN_SUMSQ_SUMSQ, .ro⟩]⟩,
  ⟨"COL_BCN_ALARM", 0x58, [(4, 0x1000)], [.shown], .group, .plain, [⟨F.COL_BCN_ALARM_UNSTABLE, .w1c⟩, ⟨F.COL_BCN_ALARM_DISAGREE, .w1c⟩]⟩,
  ⟨"COL_BCN_KNOWN", 0x60, [(4, 0x1000), (4, 0x8)], [.shown], .group, .plain, [⟨F.COL_BCN_KNOWN_MAP, .ro⟩]⟩,
  ⟨"COL_BCN_SKIP", 0x80, [(4, 0x1000), (4, 0x8)], [.shown], .group, .plain, [⟨F.COL_BCN_SKIP_MAP, .ro⟩]⟩,
  ⟨"COL_BCN_ROUNDS", 0xa0, [(4, 0x1000)], [.shown], .group, .plain, [⟨F.COUNT, .ro⟩]⟩,
  ⟨"COL_BCN_SKIPS", 0xa8, [(4, 0x1000)], [.shown], .group, .plain, [⟨F.COUNT, .ro⟩]⟩,
  ⟨"COL_BCN_DROPPED", 0xb0, [(4, 0x1000)], [.shown], .group, .plain, [⟨F.COUNT, .ro⟩]⟩,
  ⟨"COL_EXCH_FAILED", 0xb8, [(4, 0x1000)], [.shown], .group, .plain, [⟨F.COUNT, .ro⟩]⟩,
  ⟨"COL_CAP_ADDR", 0xc0, [(4, 0x1000)], [.shown], .group, .plain, [⟨F.COL_CAP_ADDR_ADDR_LO, .rw⟩, ⟨F.COL_CAP_ADDR_ADDR_HI, .rw⟩]⟩,
  ⟨"COL_CAP_SIZE", 0xc8, [(4, 0x1000)], [.shown], .group, .plain, [⟨F.COL_CAP_SIZE_SIZE_LO, .rw⟩, ⟨F.COL_CAP_SIZE_SIZE_HI, .rw⟩]⟩,
  ⟨"COL_CAP_CTRL", 0xd0, [(4, 0x1000)], [.shown], .group, .plain, [⟨F.COL_CAP_CTRL_MODE, .rw⟩]⟩,
  ⟨"COL_CAP_STATUS", 0xd8, [(4, 0x1000)], [.shown], .group, .plain, [⟨F.COL_CAP_STATUS_DONE, .w1c⟩, ⟨F.COL_CAP_STATUS_OVERFLOW, .w1c⟩, ⟨F.COL_CAP_STATUS_REFUSED, .w1c⟩, ⟨F.COL_CAP_STATUS_DIVERGED, .w1c⟩, ⟨F.COL_CAP_STATUS_NO_MATCH, .w1c⟩, ⟨F.COL_CAP_STATUS_TAG, .ro⟩]⟩,
  ⟨"COL_FLIP_SEL", 0x30000, [], [.shown], .flipMask, .hColFlipSel, [⟨F.COL_FLIP_SEL_SEL, .ro⟩]⟩,
  ⟨"COL_ERR_LAST", 0x40008, [], [], .all, .plain, [⟨F.COL_ERR_LAST_CODE, .ro⟩, ⟨F.COL_ERR_LAST_ENGINE, .ro⟩, ⟨F.COL_ERR_LAST_COMMAND, .ro⟩, ⟨F.COL_ERR_LAST_WATCH_LO, .ro⟩]⟩,
  ⟨"COL_CFG", 0x40010, [], [], .all, .plain, [⟨F.COL_CFG_ERR_EVENT, .rw⟩]⟩,
  ⟨"COL_X_BCN_TUNE", 0x80000, [(4, 0x10)], [.shown], .group, .plain, [⟨F.COL_X_BCN_TUNE_SG, .rw⟩]⟩]
/-- The registers of the UPD block. -/
def regsUpd : List RegDesc := [
  ⟨"UPD_SEED", 0x0, [], [.part, .shown], .all, .plain, [⟨F.UPD_SEED_SEED, .rw⟩]⟩,
  ⟨"UPD_SEQ_STATUS", 0x10000, [(8, 0x100)], [.shown], .sequencer, .plain, [⟨F.UPD_SEQ_STATUS_STATE, .ro⟩, ⟨F.UPD_SEQ_STATUS_NONFINITE_LAST, .ro⟩, ⟨F.UPD_SEQ_STATUS_TENSOR_ID, .ro⟩]⟩,
  ⟨"UPD_SEQ_ERR_LAST", 0x10008, [(8, 0x100)], [.shown], .sequencer, .plain, [⟨F.UPD_SEQ_ERR_LAST_CODE, .ro⟩, ⟨F.UPD_SEQ_ERR_LAST_COMMAND, .ro⟩, ⟨F.UPD_SEQ_ERR_LAST_WATCH_LO, .ro⟩]⟩,
  ⟨"UPD_SEQ_ITEMS", 0x10010, [(8, 0x100)], [.shown], .sequencer, .plain, [⟨F.COUNT, .ro⟩]⟩,
  ⟨"UPD_SEQ_NONFINITE", 0x10018, [(8, 0x100)], [.shown], .sequencer, .plain, [⟨F.COUNT, .ro⟩]⟩,
  ⟨"UPD_SEQ_CTR_CLEAR", 0x10020, [(8, 0x100)], [.shown], .sequencer, .hUpdSeqCtrClear, [⟨F.UPD_SEQ_CTR_CLEAR_CLEAR, .w1s⟩]⟩,
  ⟨"UPD_EXP_STATUS", 0x20000, [(4, 0x100)], [.shown], .exporter, .plain, [⟨F.UPD_EXP_STATUS_STATE, .ro⟩, ⟨F.UPD_EXP_STATUS_OPEN, .ro⟩, ⟨F.UPD_EXP_STATUS_TORN, .ro⟩, ⟨F.UPD_EXP_STATUS_SNAP_ID, .ro⟩]⟩,
  ⟨"UPD_EXP_ERR_LAST", 0x20008, [(4, 0x100)], [.shown], .exporter, .plain, [⟨F.UPD_EXP_ERR_LAST_CODE, .ro⟩, ⟨F.UPD_EXP_ERR_LAST_COMMAND, .ro⟩, ⟨F.UPD_EXP_ERR_LAST_WATCH_LO, .ro⟩]⟩,
  ⟨"UPD_EXP_BYTES", 0x20010, [(4, 0x100)], [.shown], .exporter, .plain, [⟨F.COUNT, .ro⟩]⟩,
  ⟨"UPD_EXP_TORN", 0x20018, [(4, 0x100)], [.shown], .exporter, .plain, [⟨F.COUNT, .ro⟩]⟩,
  ⟨"UPD_EXP_CTR_CLEAR", 0x20020, [(4, 0x100)], [.shown], .exporter, .hUpdExpCtrClear, [⟨F.UPD_EXP_CTR_CLEAR_CLEAR, .w1s⟩]⟩,
  ⟨"UPD_HOLD", 0x30000, [], [.shown], .flipMask, .hUpdHold, [⟨F.UPD_HOLD_HELD, .ro⟩]⟩,
  ⟨"UPD_CFG", 0x30008, [], [], .all, .plain, [⟨F.UPD_CFG_ERR_EVENT, .rw⟩, ⟨F.UPD_CFG_TORN_EVENT, .rw⟩]⟩,
  ⟨"UPD_X_SEQ_TUNE", 0x80000, [(8, 0x10)], [.shown], .sequencer, .plain, [⟨F.UPD_X_SEQ_TUNE_SR_MODE, .rw⟩]⟩]
/-- The registers of the INT block. -/
def regsInt : List RegDesc := [
  ⟨"INT0_IDL_ADDR", 0x0, [], [.part, .shown, .first], .all, .hInt0IdlAddr, [⟨F.INT0_IDL_ADDR_ADDR_LO, .rw⟩, ⟨F.INT0_IDL_ADDR_ADDR_HI, .rw⟩]⟩,
  ⟨"INT0_IDL_CTRL", 0x8, [], [.part, .shown, .first], .all, .hInt0IdlCtrl, [⟨F.INT0_IDL_CTRL_LOG2, .rw⟩]⟩,
  ⟨"INT0_IDL_HEAD", 0x10, [], [.part, .shown, .first], .all, .plain, [⟨F.COUNT, .ro⟩]⟩,
  ⟨"INT0_IDL_LOST", 0x18, [], [.part, .shown, .first], .all, .plain, [⟨F.COUNT, .ro⟩]⟩,
  ⟨"INT_CTX_STATUS", 0x10000, [(4, 0x100)], [.shown], .context, .plain, [⟨F.INT_CTX_STATUS_STATE, .ro⟩, ⟨F.INT_CTX_STATUS_PARTITION, .ro⟩, ⟨F.INT_CTX_STATUS_RUNNING, .ro⟩, ⟨F.INT_CTX_STATUS_FINISHED, .ro⟩]⟩,
  ⟨"INT_ERR_LAST", 0x20000, [], [], .all, .plain, [⟨F.INT_ERR_LAST_CODE, .ro⟩, ⟨F.INT_ERR_LAST_COMMAND, .ro⟩, ⟨F.INT_ERR_LAST_WATCH_LO, .ro⟩]⟩,
  ⟨"INT_BAD_LAST", 0x20008, [], [], .all, .plain, [⟨F.INT_BAD_LAST_CODE, .ro⟩, ⟨F.INT_BAD_LAST_ENGINE, .ro⟩, ⟨F.INT_BAD_LAST_SAMPLE, .ro⟩]⟩,
  ⟨"INT_SAMPLES", 0x20010, [], [], .all, .plain, [⟨F.COUNT, .ro⟩]⟩,
  ⟨"INT_BAD", 0x20018, [], [], .all, .plain, [⟨F.COUNT, .ro⟩]⟩,
  ⟨"INT_STEERED", 0x20020, [], [], .all, .plain, [⟨F.COUNT, .ro⟩]⟩,
  ⟨"INT_BYTES_IN", 0x20028, [], [], .all, .plain, [⟨F.COUNT, .ro⟩]⟩,
  ⟨"INT_CTR_CLEAR", 0x20030, [], [], .all, .hIntCtrClear, [⟨F.INT_CTR_CLEAR_CLEAR, .w1s⟩]⟩,
  ⟨"INT_CFG", 0x20038, [], [], .all, .plain, [⟨F.INT_CFG_ERR_EVENT, .rw⟩, ⟨F.INT_CFG_BAD_EVENT, .rw⟩]⟩,
  ⟨"INT_X_TUNE", 0x80000, [], [], .all, .plain, [⟨F.INT_X_TUNE_READ_AHEAD, .rw⟩, ⟨F.INT_X_TUNE_STEER_OFF, .rw⟩]⟩]
/-- The registers of the TMV block. -/
def regsTmv : List RegDesc := [
  ⟨"TMV_ALLOC", 0x0, [], [.part, .shown], .all, .hTmvAlloc, [⟨F.TMV_ALLOC_TIER, .rw⟩, ⟨F.TMV_ALLOC_LOWEST, .rw⟩, ⟨F.TMV_ALLOC_SIZE, .rw⟩, ⟨F.TMV_ALLOC_MOVABLE, .rw⟩, ⟨F.TMV_ALLOC_COUNT_M1, .rw⟩, ⟨F.TMV_ALLOC_GO, .w1s⟩]⟩,
  ⟨"TMV_ALLOC_VA", 0x8, [], [.part, .shown], .all, .plain, [⟨F.TMV_ALLOC_VA_VA_LO, .rw⟩, ⟨F.TMV_ALLOC_VA_VA_HI, .rw⟩]⟩,
  ⟨"TMV_ALLOC_RESULT", 0x10, [], [.part, .shown], .all, .plain, [⟨F.TMV_ALLOC_RESULT_TIER_GOT, .ro⟩, ⟨F.TMV_ALLOC_RESULT_STATUS, .ro⟩, ⟨F.TMV_ALLOC_RESULT_DONE, .ro⟩, ⟨F.TMV_ALLOC_RESULT_BASE_LO, .ro⟩, ⟨F.TMV_ALLOC_RESULT_BASE_HI, .ro⟩]⟩,
  ⟨"TMV_FREE", 0x18, [], [.part, .shown], .all, .hTmvFree, [⟨F.TMV_FREE_BASE_LO, .wo⟩, ⟨F.TMV_FREE_BASE_HI, .wo⟩]⟩,
  ⟨"TMV_USE", 0x20, [(4, 0x8)], [.part, .shown], .all, .hTmvUse, [⟨F.TMV_USE_FRAMES, .ro⟩]⟩,
  ⟨"TMV_QUOTA", 0x40, [(4, 0x8)], [.part, .shown, .aliasReadOnly], .all, .hTmvQuota, [⟨F.TMV_QUOTA_GIB, .rw⟩]⟩,
  ⟨"TMV_FW_QUOTA", 0x60, [], [.part, .shown, .aliasReadOnly], .all, .hTmvFwQuota, [⟨F.TMV_FW_QUOTA_GIB, .rw⟩]⟩,
  ⟨"TMV_FW_USED", 0x68, [], [.part, .shown], .all, .plain, [⟨F.COUNT, .ro⟩]⟩,
  ⟨"TMV_PART_STATUS", 0x70, [], [.part, .shown], .all, .hTmvPartStatus, [⟨F.TMV_PART_STATUS_QUOTA_OVER, .ro⟩, ⟨F.TMV_PART_STATUS_FW_REFUSED, .ro⟩, ⟨F.TMV_PART_STATUS_DEMOTE_BLOCKED, .ro⟩, ⟨F.TMV_PART_STATUS_BAD_FREE, .w1c⟩, ⟨F.TMV_PART_STATUS_NOROOM, .w1c⟩]⟩,
  ⟨"TMV_FW_REFUSED", 0x78, [], [.part, .shown], .all, .plain, [⟨F.COUNT, .ro⟩]⟩,
  ⟨"TMV_SUB_ADDR", 0x80, [], [.part, .shown], .all, .hTmvSubAddr, [⟨F.TMV_SUB_ADDR_ADDR_LO, .rw⟩, ⟨F.TMV_SUB_ADDR_ADDR_HI, .rw⟩]⟩,
  ⟨"TMV_SUB_CTRL", 0x88, [], [.part, .shown], .all, .hTmvSubCtrl, [⟨F.TMV_SUB_CTRL_LOG2, .rw⟩]⟩,
  ⟨"TMV_SUB_HEAD", 0x90, [], [.part, .shown], .all, .plain, [⟨F.COUNT, .ro⟩]⟩,
  ⟨"TMV_SUB_LOST", 0x98, [], [.part, .shown], .all, .plain, [⟨F.COUNT, .ro⟩]⟩,
  ⟨"TMV_ROUTE_SEL", 0x10000, [(4, 0x8)], [.shown], .routeMask, .hTmvRouteSel, [⟨F.TMV_ROUTE_SEL_SEL, .ro⟩]⟩,
  ⟨"TMV_ALARM", 0x20000, [], [], .all, .plain, [⟨F.TMV_ALARM_TIER_LATE, .w1c⟩, ⟨F.TMV_ALARM_NEIGHBOUR_LOST, .w1c⟩, ⟨F.TMV_ALARM_LEND_REFUSED, .w1c⟩]⟩,
  ⟨"TMV_ERR_LAST", 0x20008, [], [], .all, .plain, [⟨F.TMV_ERR_LAST_ENGINE, .ro⟩, ⟨F.TMV_ERR_LAST_PARTITION, .ro⟩, ⟨F.TMV_ERR_LAST_CODE, .ro⟩, ⟨F.TMV_ERR_LAST_COMMAND, .ro⟩, ⟨F.TMV_ERR_LAST_VALID, .ro⟩]⟩,
  ⟨"TMV_CFG", 0x20010, [], [], .all, .plain, [⟨F.TMV_CFG_DEMOTE_RATE, .rw⟩, ⟨F.TMV_CFG_ERR_EVENT, .rw⟩, ⟨F.TMV_CFG_MISS_EVENT, .rw⟩]⟩,
  ⟨"TMV_MISSES", 0x20018, [], [], .all, .plain, [⟨F.COUNT, .ro⟩]⟩,
  ⟨"TMV_LATE", 0x20020, [], [], .all, .plain, [⟨F.COUNT, .ro⟩]⟩,
  ⟨"TMV_MOVED", 0x20028, [], [], .all, .plain, [⟨F.COUNT, .ro⟩]⟩,
  ⟨"TMV_FW_RESET", 0x20030, [], [], .all, .hTmvFwReset, [⟨F.TMV_FW_RESET_PARTITION, .rw⟩, ⟨F.TMV_FW_RESET_GO, .w1s⟩]⟩,
  ⟨"TMV_LEND", 0x20100, [(8, 0x8)], [], .all, .hTmvLend, [⟨F.TMV_LEND_BORROWER, .rw⟩, ⟨F.TMV_LEND_TIER, .rw⟩, ⟨F.TMV_LEND_SIZE, .rw⟩, ⟨F.TMV_LEND_EN, .rw⟩]⟩,
  ⟨"TMV_BORROW", 0x20200, [(32, 0x8)], [], .all, .plain, [⟨F.TMV_BORROW_SIZE, .ro⟩, ⟨F.TMV_BORROW_STATE, .ro⟩]⟩,
  ⟨"TMV_X_TUNE", 0x80000, [], [], .all, .plain, [⟨F.TMV_X_TUNE_DEMOTE_MIB, .rw⟩, ⟨F.TMV_X_TUNE_AGE_SHIFT, .rw⟩]⟩]
/-- The registers of the DFT block. -/
def regsDft : List RegDesc := [
  ⟨"DFT_STATUS", 0x0, [], [.shown], .all, .plain, [⟨F.DFT_STATUS_GOV, .ro⟩, ⟨F.DFT_STATUS_DEGRADED, .ro⟩, ⟨F.DFT_STATUS_READ_ONLY, .ro⟩, ⟨F.DFT_STATUS_NO_KEYS, .ro⟩, ⟨F.DFT_STATUS_CACHE_MIB, .ro⟩, ⟨F.DFT_STATUS_USER_TIB, .ro⟩]⟩,
  ⟨"DFT_DURABLE", 0x8, [], [.shown], .all, .plain, [⟨F.DFT_DURABLE_WATCH_LO, .ro⟩, ⟨F.DFT_DURABLE_WATCH_HI, .ro⟩]⟩,
  ⟨"DFT_DUR_BUOY", 0x10, [], [.part, .shown], .all, .plain, [⟨F.DFT_DUR_BUOY_BUOY, .rw⟩, ⟨F.DFT_DUR_BUOY_EN, .rw⟩]⟩,
  ⟨"DFT_LIFE", 0x18, [], [.shown], .all, .plain, [⟨F.DFT_LIFE_USED, .ro⟩, ⟨F.DFT_LIFE_WA_MILLI, .ro⟩]⟩,
  ⟨"DFT_LIFE_STEPS", 0x20, [], [.shown], .all, .plain, [⟨F.DFT_LIFE_STEPS_STEPS, .ro⟩, ⟨F.DFT_LIFE_STEPS_OPEN_STEPS, .ro⟩]⟩,
  ⟨"DFT_CREDIT", 0x28, [], [.shown], .all, .plain, [⟨F.DFT_CREDIT_CREDIT_GB, .ro⟩]⟩,
  ⟨"DFT_LIFE_CTRL", 0x30, [], [], .all, .plain, [⟨F.DFT_LIFE_CTRL_GROUP, .rw⟩, ⟨F.DFT_LIFE_CTRL_SRC, .rw⟩]⟩,
  ⟨"DFT_LIFE_MARK", 0x38, [], [], .all, .hDftLifeMark, [⟨F.DFT_LIFE_MARK_MARK, .wo⟩]⟩,
  ⟨"DFT_ALARM", 0x40, [], [], .all, .plain, [⟨F.DFT_ALARM_FLASH_LIFE_LOW, .w1c⟩, ⟨F.DFT_ALARM_FLASH_WORN, .w1c⟩, ⟨F.DFT_ALARM_FLASH_PACED, .w1c⟩, ⟨F.DFT_ALARM_FLASH_STACK_LOST, .w1c⟩, ⟨F.DFT_ALARM_FLASH_UNCORRECTABLE, .w1c⟩, ⟨F.DFT_ALARM_FLASH_POWER_LOSS, .w1c⟩]⟩,
  ⟨"DFT_PL_RECORD", 0x48, [], [], .all, .plain, [⟨F.DFT_PL_RECORD_WATCH_LO, .ro⟩, ⟨F.DFT_PL_RECORD_LOST_MIB, .ro⟩, ⟨F.DFT_PL_RECORD_VALID, .ro⟩]⟩,
  ⟨"DFT_STACK", 0x100, [(16, 0x8)], [], .all, .plain, [⟨F.DFT_STACK_STATE, .ro⟩, ⟨F.DFT_STACK_REBUILD_PCT, .ro⟩]⟩,
  ⟨"DFT_HOST_WR", 0x1000, [], [], .all, .plain, [⟨F.COUNT, .ro⟩]⟩,
  ⟨"DFT_NAND_WR", 0x1008, [], [], .all, .plain, [⟨F.COUNT, .ro⟩]⟩,
  ⟨"DFT_HOST_RD", 0x1010, [], [], .all, .plain, [⟨F.COUNT, .ro⟩]⟩,
  ⟨"DFT_RELOC", 0x1018, [], [], .all, .plain, [⟨F.COUNT, .ro⟩]⟩,
  ⟨"DFT_CORRECTED", 0x1020, [], [], .all, .plain, [⟨F.COUNT, .ro⟩]⟩,
  ⟨"DFT_UNCORR", 0x1028, [], [], .all, .plain, [⟨F.COUNT, .ro⟩]⟩,
  ⟨"DFT_GOV_REFUSED", 0x1030, [], [], .all, .plain, [⟨F.COUNT, .ro⟩]⟩,
  ⟨"DFT_X_TUNE", 0x80000, [], [], .all, .hDftXTune, [⟨F.DFT_X_TUNE_CREDIT_MAX_PB, .rw⟩, ⟨F.DFT_X_TUNE_READ_LIMIT_K, .rw⟩]⟩]
/-- The registers of the HST block. -/
def regsHst : List RegDesc := [
  ⟨"HST_PORT_STATUS", 0x0, [(8, 0x100)], [], .all, .plain, [⟨F.HST_PORT_STATUS_RATE, .ro⟩, ⟨F.HST_PORT_STATUS_WIDTH, .ro⟩, ⟨F.HST_PORT_STATUS_FLIT, .ro⟩]⟩,
  ⟨"HST_PORT_CFG", 0x8, [(8, 0x100)], [], .all, .plain, [⟨F.HST_PORT_CFG_RELAY, .rw⟩]⟩,
  ⟨"HST_FENCE_BUS", 0x10, [(8, 0x100)], [], .all, .plain, [⟨F.HST_FENCE_BUS_ADDR_LO, .rw⟩, ⟨F.HST_FENCE_BUS_ADDR_HI, .rw⟩]⟩,
  ⟨"HST_OUT_BASE", 0x18, [(8, 0x100)], [], .all, .plain, [⟨F.HST_OUT_BASE_BASE, .rw⟩]⟩,
  ⟨"HST_PORT_VIOL", 0x20, [(8, 0x100)], [], .all, .plain, [⟨F.COUNT, .ro⟩]⟩,
  ⟨"HST_PORT_POISON", 0x28, [(8, 0x100)], [], .all, .plain, [⟨F.COUNT, .ro⟩]⟩,
  ⟨"HST_REGION_BASE", 0x10000, [], [], .all, .plain, [⟨F.HST_REGION_BASE_EN, .rw⟩, ⟨F.HST_REGION_BASE_BASE_LO, .rw⟩, ⟨F.HST_REGION_BASE_BASE_HI, .rw⟩]⟩,
  ⟨"HST_REGION_INV", 0x10008, [], [], .all, .hHstRegionInv, [⟨F.HST_REGION_INV_ENTRY, .rw⟩, ⟨F.HST_REGION_INV_ALL, .rw⟩, ⟨F.HST_REGION_INV_GO, .w1s⟩]⟩,
  ⟨"HST_VIS_EPOCH", 0x10010, [], [.shown], .all, .plain, [⟨F.HST_VIS_EPOCH_EPOCH, .ro⟩]⟩,
  ⟨"HST_DRAM_STATUS", 0x10018, [], [], .all, .plain, [⟨F.HST_DRAM_STATUS_STATE, .ro⟩, ⟨F.HST_DRAM_STATUS_KIND, .ro⟩, ⟨F.HST_DRAM_STATUS_MTS, .ro⟩, ⟨F.HST_DRAM_STATUS_GIB, .ro⟩]⟩,
  ⟨"HST_SV_STALE", 0x10020, [], [], .all, .plain, [⟨F.COUNT, .ro⟩]⟩,
  ⟨"HST_IRQ", 0x20000, [], [.part, .shown], .all, .plain, [⟨F.HST_IRQ_HART, .rw⟩, ⟨F.HST_IRQ_EIID, .rw⟩, ⟨F.HST_IRQ_EN, .rw⟩]⟩,
  ⟨"HST_SV57_ROOT", 0x20008, [], [.part, .shown], .all, .plain, [⟨F.HST_SV57_ROOT_EN, .rw⟩, ⟨F.HST_SV57_ROOT_ROOT_LO, .rw⟩, ⟨F.HST_SV57_ROOT_ROOT_HI, .rw⟩]⟩,
  ⟨"HST_X_PORT", 0x80000, [(8, 0x10)], [], .all, .plain, [⟨F.HST_X_PORT_STRICT, .rw⟩]⟩]

/-- The registers of a block. -/
def Blk.regs : Blk → List RegDesc
  | .kpr => regsKpr
  | .cht => regsCht
  | .wch => regsWch
  | .pwr => regsPwr
  | .log => regsLog
  | .fts => regsFts
  | .td => regsTd
  | .hbm => regsHbm
  | .mmu => regsMmu
  | .coh => regsCoh
  | .buy => regsBuy
  | .lnk => regsLnk
  | .col => regsCol
  | .upd => regsUpd
  | .int => regsInt
  | .tmv => regsTmv
  | .dft => regsDft
  | .hst => regsHst

/-! The values other than zero that registers hold at reset (R8): the reset columns of the register tables; and, for the
fields marked Stored or Fuse map, those of a new package (log entries 1 and 2): PROVISIONED and one chart key installed
(R613), the governor's credit at its cap (R338), and a fuse map that maps logical matrix engine i onto physical engine i with
engines 16 and 17 as spares (R29, R557). Every other register reads zero. -/

/-- Registers other than zero at reset, part 1. -/
def resetRegs0 : List (Nat × Word) := [
  (0x0000008, 0x110000#64), (0x0200018, 0x5a5a5a5a5a5a#64), (0x0200020, 0x98915ef000fdea7#64), (0x0200028, 0x989600000000#64),
  (0x0300018, 0x900#64), (0x0300020, 0x12c0#64), (0x0400040, 0x10#64), (0x0500008, 0x1#64),
  (0x0810100, 0x100#64), (0x0810200, 0x200#64), (0x0810300, 0x300#64), (0x0810400, 0x400#64),
  (0x0810500, 0x500#64), (0x0810600, 0x600#64), (0x0810700, 0x700#64), (0x0810800, 0x800#64),
  (0x0810900, 0x900#64), (0x0810a00, 0xa00#64), (0x0810b00, 0xb00#64), (0x0810c00, 0xc00#64),
  (0x0810d00, 0xd00#64), (0x0810e00, 0xe00#64), (0x0810f00, 0xf00#64), (0x0811000, 0x3#64),
  (0x0811008, 0x706050403020100#64), (0x0811010, 0xf0e0d0c0b0a0908#64), (0x0811018, 0x2#64), (0x0821000, 0x3#64),
  (0x0831000, 0x3#64), (0x0910100, 0x100#64), (0x0910200, 0x200#64), (0x0910300, 0x300#64),
  (0x0910400, 0x400#64), (0x0910500, 0x500#64), (0x0910600, 0x600#64), (0x0910700, 0x700#64),
  (0x0910800, 0x800#64), (0x0910900, 0x900#64), (0x0910a00, 0xa00#64), (0x0910b00, 0xb00#64),
  (0x0910c00, 0xc00#64), (0x0910d00, 0xd00#64), (0x0910e00, 0xe00#64), (0x0910f00, 0xf00#64),
  (0x0911000, 0x3#64), (0x0911008, 0x706050403020100#64), (0x0911010, 0xf0e0d0c0b0a0908#64), (0x0911018, 0x2#64),
  (0x0921000, 0x3#64), (0x0931000, 0x3#64), (0x0a10100, 0x100#64), (0x0a10200, 0x200#64),
  (0x0a10300, 0x300#64), (0x0a10400, 0x400#64), (0x0a10500, 0x500#64), (0x0a10600, 0x600#64),
  (0x0a10700, 0x700#64), (0x0a10800, 0x800#64), (0x0a10900, 0x900#64), (0x0a10a00, 0xa00#64)]
/-- Registers other than zero at reset, part 2. -/
def resetRegs1 : List (Nat × Word) := [
  (0x0a10b00, 0xb00#64), (0x0a10c00, 0xc00#64), (0x0a10d00, 0xd00#64), (0x0a10e00, 0xe00#64),
  (0x0a10f00, 0xf00#64), (0x0a11000, 0x3#64), (0x0a11008, 0x706050403020100#64), (0x0a11010, 0xf0e0d0c0b0a0908#64),
  (0x0a11018, 0x2#64), (0x0a21000, 0x3#64), (0x0a31000, 0x3#64), (0x0b10100, 0x100#64),
  (0x0b10200, 0x200#64), (0x0b10300, 0x300#64), (0x0b10400, 0x400#64), (0x0b10500, 0x500#64),
  (0x0b10600, 0x600#64), (0x0b10700, 0x700#64), (0x0b10800, 0x800#64), (0x0b10900, 0x900#64),
  (0x0b10a00, 0xa00#64), (0x0b10b00, 0xb00#64), (0x0b10c00, 0xc00#64), (0x0b10d00, 0xd00#64),
  (0x0b10e00, 0xe00#64), (0x0b10f00, 0xf00#64), (0x0b11000, 0x3#64), (0x0b11008, 0x706050403020100#64),
  (0x0b11010, 0xf0e0d0c0b0a0908#64), (0x0b11018, 0x2#64), (0x0b21000, 0x3#64), (0x0b31000, 0x3#64),
  (0x0c10100, 0x100#64), (0x0c10200, 0x200#64), (0x0c10300, 0x300#64), (0x0c10400, 0x400#64),
  (0x0c10500, 0x500#64), (0x0c10600, 0x600#64), (0x0c10700, 0x700#64), (0x0c10800, 0x800#64),
  (0x0c10900, 0x900#64), (0x0c10a00, 0xa00#64), (0x0c10b00, 0xb00#64), (0x0c10c00, 0xc00#64),
  (0x0c10d00, 0xd00#64), (0x0c10e00, 0xe00#64), (0x0c10f00, 0xf00#64), (0x0c11000, 0x3#64),
  (0x0c11008, 0x706050403020100#64), (0x0c11010, 0xf0e0d0c0b0a0908#64), (0x0c11018, 0x2#64), (0x0c21000, 0x3#64),
  (0x0c31000, 0x3#64), (0x0d10100, 0x100#64), (0x0d10200, 0x200#64), (0x0d10300, 0x300#64),
  (0x0d10400, 0x400#64), (0x0d10500, 0x500#64), (0x0d10600, 0x600#64), (0x0d10700, 0x700#64)]
/-- Registers other than zero at reset, part 3. -/
def resetRegs2 : List (Nat × Word) := [
  (0x0d10800, 0x800#64), (0x0d10900, 0x900#64), (0x0d10a00, 0xa00#64), (0x0d10b00, 0xb00#64),
  (0x0d10c00, 0xc00#64), (0x0d10d00, 0xd00#64), (0x0d10e00, 0xe00#64), (0x0d10f00, 0xf00#64),
  (0x0d11000, 0x3#64), (0x0d11008, 0x706050403020100#64), (0x0d11010, 0xf0e0d0c0b0a0908#64), (0x0d11018, 0x2#64),
  (0x0d21000, 0x3#64), (0x0d31000, 0x3#64), (0x0e10100, 0x100#64), (0x0e10200, 0x200#64),
  (0x0e10300, 0x300#64), (0x0e10400, 0x400#64), (0x0e10500, 0x500#64), (0x0e10600, 0x600#64),
  (0x0e10700, 0x700#64), (0x0e10800, 0x800#64), (0x0e10900, 0x900#64), (0x0e10a00, 0xa00#64),
  (0x0e10b00, 0xb00#64), (0x0e10c00, 0xc00#64), (0x0e10d00, 0xd00#64), (0x0e10e00, 0xe00#64),
  (0x0e10f00, 0xf00#64), (0x0e11000, 0x3#64), (0x0e11008, 0x706050403020100#64), (0x0e11010, 0xf0e0d0c0b0a0908#64),
  (0x0e11018, 0x2#64), (0x0e21000, 0x3#64), (0x0e31000, 0x3#64), (0x0f10100, 0x100#64),
  (0x0f10200, 0x200#64), (0x0f10300, 0x300#64), (0x0f10400, 0x400#64), (0x0f10500, 0x500#64),
  (0x0f10600, 0x600#64), (0x0f10700, 0x700#64), (0x0f10800, 0x800#64), (0x0f10900, 0x900#64),
  (0x0f10a00, 0xa00#64), (0x0f10b00, 0xb00#64), (0x0f10c00, 0xc00#64), (0x0f10d00, 0xd00#64),
  (0x0f10e00, 0xe00#64), (0x0f10f00, 0xf00#64), (0x0f11000, 0x3#64), (0x0f11008, 0x706050403020100#64),
  (0x0f11010, 0xf0e0d0c0b0a0908#64), (0x0f11018, 0x2#64), (0x0f21000, 0x3#64), (0x0f31000, 0x3#64),
  (0x1000018, 0x10405#64), (0x1100018, 0x10405#64), (0x1200018, 0x10405#64), (0x1300018, 0x10405#64)]
/-- Registers other than zero at reset, part 4. -/
def resetRegs3 : List (Nat × Word) := [
  (0x1400018, 0x10405#64), (0x1500018, 0x10405#64), (0x1600018, 0x10405#64), (0x1700018, 0x10405#64),
  (0x1800018, 0x10405#64), (0x1900018, 0x10405#64), (0x1a00018, 0x10405#64), (0x1b00018, 0x10405#64),
  (0x1c00018, 0x10405#64), (0x1d00018, 0x10405#64), (0x1e00018, 0x10405#64), (0x1f00018, 0x10405#64),
  (0x3000008, 0x1#64), (0x3000108, 0x1#64), (0x3000208, 0x1#64), (0x3000308, 0x1#64),
  (0x3000408, 0x1#64), (0x3000508, 0x1#64), (0x3000608, 0x1#64), (0x3000708, 0x1#64),
  (0x3100008, 0x1#64), (0x3100108, 0x1#64), (0x3100208, 0x1#64), (0x3100308, 0x1#64),
  (0x3100408, 0x1#64), (0x3100508, 0x1#64), (0x3100608, 0x1#64), (0x3100708, 0x1#64),
  (0x3200008, 0x1#64), (0x3200108, 0x1#64), (0x3200208, 0x1#64), (0x3200308, 0x1#64),
  (0x3200408, 0x1#64), (0x3200508, 0x1#64), (0x3200608, 0x1#64), (0x3200708, 0x1#64),
  (0x3300008, 0x1#64), (0x3300108, 0x1#64), (0x3300208, 0x1#64), (0x3300308, 0x1#64),
  (0x3300408, 0x1#64), (0x3300508, 0x1#64), (0x3300608, 0x1#64), (0x3300708, 0x1#64),
  (0x3800040, 0x2#64), (0x3801040, 0x2#64), (0x3802040, 0x2#64), (0x3803040, 0x2#64),
  (0x3840010, 0x1#64), (0x3930008, 0x3#64), (0x4020038, 0x3#64), (0x4120038, 0x3#64),
  (0x4820010, 0x302#64), (0x4900020, 0xffffffffffffffff#64), (0x4900028, 0x1c9c380#64), (0x4a10010, 0x1#64)]
/-- The register store at reset: every register not listed reads zero. -/
def resetRegs : List (Nat × Word) := resetRegs0 ++ resetRegs1 ++ resetRegs2 ++ resetRegs3

/-- The fields that survive a package reset (Stored and Fuse map fields of R8) as masks: (key, bits kept). -/
def storedMasks : List (Nat × Word) := [
  (0x0000000, 0xffffffffffffffff#64), (0x0000008, 0xf7ffff#64), (0x0080000, 0xf#64),
  (0x0100020, 0x8000000fffffffff#64), (0x0100028, 0x8000000fffffffff#64), (0x0302010, 0x800000000000037f#64),
  (0x0401000, 0xffffffffffffffff#64), (0x0500020, 0xffff7f7f#64), (0x0500028, 0xffffffffffffffff#64),
  (0x0500038, 0x8000000fffffffff#64), (0x1000020, 0xffffffff07ffffff#64), (0x1100020, 0xffffffff07ffffff#64),
  (0x1200020, 0xffffffff07ffffff#64), (0x1300020, 0xffffffff07ffffff#64), (0x1400020, 0xffffffff07ffffff#64),
  (0x1500020, 0xffffffff07ffffff#64), (0x1600020, 0xffffffff07ffffff#64), (0x1700020, 0xffffffff07ffffff#64),
  (0x1800020, 0xffffffff07ffffff#64), (0x1900020, 0xffffffff07ffffff#64), (0x1a00020, 0xffffffff07ffffff#64),
  (0x1b00020, 0xffffffff07ffffff#64), (0x1c00020, 0xffffffff07ffffff#64), (0x1d00020, 0xffffffff07ffffff#64),
  (0x1e00020, 0xffffffff07ffffff#64), (0x1f00020, 0xffffffff07ffffff#64), (0x4900018, 0xffff07ff#64),
  (0x4900028, 0xffffffff#64), (0x4900048, 0x80001fffffffffff#64), (0x4900100, 0x7f03#64),
  (0x4900108, 0x7f03#64), (0x4900110, 0x7f03#64), (0x4900118, 0x7f03#64),
  (0x4900120, 0x7f03#64), (0x4900128, 0x7f03#64), (0x4900130, 0x7f03#64),
  (0x4900138, 0x7f03#64), (0x4900140, 0x7f03#64), (0x4900148, 0x7f03#64),
  (0x4900150, 0x7f03#64), (0x4900158, 0x7f03#64), (0x4900160, 0x7f03#64),
  (0x4900168, 0x7f03#64), (0x4900170, 0x7f03#64), (0x4900178, 0x7f03#64),
  (0x4901000, 0xffffffffffffffff#64), (0x4901008, 0xffffffffffffffff#64), (0x4901030, 0xffffffffffffffff#64)]

end Sys2Proof.Machine
end

