-- ==== Sys2Proof/Machine/Sparse.lean ====
section
/-! DEFINITION. Sparse stores in one canonical form: keys strictly rising, no entry equal to zero, so that equal stores are
equal data. Registers, memory, cluster SRAM and the engines' pending stores are kept in this form. Beside it, tables of
records keyed by number. -/
namespace Sys2Proof.Machine

/-- The value at a key; an unlisted key reads zero. -/
def Sparse.get {w : Nat} : List (Nat × BitVec w) → Nat → BitVec w
  | [], _ => 0
  | (a, v) :: l, k => if k = a then v else Sparse.get l k

/-- Enter a value under a key before the first larger key. -/
def Sparse.insert {w : Nat} : List (Nat × BitVec w) → Nat → BitVec w → List (Nat × BitVec w)
  | [], k, v => [(k, v)]
  | (a, x) :: l, k, v => if k < a then (k, v) :: (a, x) :: l else (a, x) :: Sparse.insert l k v

/-- Write a value at a key; writing zero removes the entry. -/
def Sparse.set {w : Nat} (l : List (Nat × BitVec w)) (k : Nat) (v : BitVec w) : List (Nat × BitVec w) :=
  if v = 0 then l.filter (fun e => e.1 ≠ k) else Sparse.insert (l.filter (fun e => e.1 ≠ k)) k v

/-- The canonical form: keys strictly rising from a bound, no zero entry. -/
def Sparse.wfFrom {w : Nat} : Nat → List (Nat × BitVec w) → Bool
  | _, [] => true
  | n, (a, v) :: l => decide (n ≤ a) && decide (v ≠ 0) && Sparse.wfFrom (a + 1) l

/-- The canonical form of a sparse store. -/
def Sparse.wf {w : Nat} (l : List (Nat × BitVec w)) : Bool := Sparse.wfFrom 0 l

/-- A record of a table by its key. -/
def Table.get? {α : Type} : List (Nat × α) → Nat → Option α
  | [], _ => none
  | (a, v) :: l, k => if k = a then some v else Table.get? l k

/-- Put a record under a key: it replaces the key's record, or enters before the first larger key. -/
def Table.put {α : Type} : List (Nat × α) → Nat → α → List (Nat × α)
  | [], k, v => [(k, v)]
  | (a, x) :: l, k, v =>
    if k = a then (k, v) :: l else if k < a then (k, v) :: (a, x) :: l else (a, x) :: Table.put l k v

/-- Remove the records under a key. -/
def Table.del {α : Type} (l : List (Nat × α)) (k : Nat) : List (Nat × α) := l.filter (fun e => e.1 ≠ k)

/-- Change the record under a key, where there is one. -/
def Table.mod {α : Type} (l : List (Nat × α)) (k : Nat) (f : α → α) : List (Nat × α) :=
  l.map (fun e => if e.1 = k then (k, f e.2) else e)

end Sys2Proof.Machine
end

