-- ==== Sys2Proof/Machine/State.lean ====
section
/-! DEFINITION. The state of the B9 as plain data, and the state at reset. Registers have their home in State.regs, keyed as
Machine/RegMap.lean says; what follows is the state that no register shows: plans and slots, engine runs, frames, translations,
coherence, links, power, boot, field test and the Logbook. -/
namespace Sys2Proof.Machine

/-! ## Time and admission -/

/-- The counts of watches behind the timebase states of R54 and R55, whether this watch has had its timing message, a JOIN whose
count step is awaited (R57), and the last measured offset in 1/32 ns. -/
structure Timebase where
  missed : Nat := 0
  heard : Bool := false
  inRange : Nat := 0
  outRange : Nat := 0
  acquiring : Nat := 0
  holdover : Nat := 0
  unlocked : Bool := false
  stepPending : Bool := false
  offset : Int := 0
  deriving DecidableEq, Repr

/-- An expert setting whose effect waits under R26: the register's key, the value still in effect, and the watch at whose
start the written value takes effect. -/
structure Deferred where
  key : Nat
  old : Word
  watch : Nat
  deriving DecidableEq, Repr

/-- A submitted plan (R65). -/
structure Submission where
  part : Nat
  va : Nat
  deriving DecidableEq, Repr

/-- Where a slot of an accepted plan stands. -/
inductive SlotState where
  | waiting | running | suspended | held | finished | cancelled | terminated | notStarted
  deriving DecidableEq, Repr

/-- A slot of an accepted plan (R59), with its demand entry (R62; empty for none). -/
structure Slot where
  engine : Nat
  off : Nat
  gran : Nat
  count : Nat
  demand : List Nat
  stream : Nat
  energy : Nat
  cycles : Nat
  state : SlotState
  deriving DecidableEq, Repr

/-- An accepted plan: its class, granted start watch, completion buoy, result record, tag, slots, and the status with which
it will end (R63; 0 while nothing has gone wrong) with the slot index of that status. -/
structure Plan where
  part : Nat
  guaranteed : Bool
  start : Nat
  buoy : Nat
  result : Nat
  tag : Nat
  slots : List Slot
  ending : Nat
  endSlot : Nat
  deriving DecidableEq, Repr

/-- The admission unit: the queue of R65, the accepted plans by PLAN_ID, and the last PLAN_ID given (R72). -/
structure Admission where
  queue : List Submission := []
  plans : List (Nat × Plan) := []
  lastId : Nat := 0
  deriving DecidableEq, Repr

/-! ## Engine runs -/

/-- What a running engine waits for: nothing, the condition of a BWAIT (COND, BUOY, OPERAND, LIMIT_NS), a doorbell's limit, its fence,
the acknowledgement of its copy's writes before a completion record, a plane swap, or the end of a long command (an exchange,
a Beacon round, an update, a stream's close, a fetch or a draw). -/
inductive Wait where
  | none | buoy (cond b : Nat) (operand : Word) (limit : Nat) | doorbell | fence | record (addr value : Nat) | swap | busy
  deriving DecidableEq, Repr

/-- One stationary plane of a matrix engine (R89): its format byte, rows and columns, element codes in row order and the
block scales of a block-scaled operand. -/
structure Plane where
  fmt : Nat
  kr : Nat
  nc : Nat
  elems : List Nat
  scales : List Nat
  deriving DecidableEq, Repr

/-- The planes of a matrix engine (R89 to R94), whether the shadow's load still runs, the streaming cycles that load has run under,
and the streaming cycles since the latest swap. -/
structure MatrixState where
  active : Option Plane := none
  shadow : Option Plane := none
  loading : Bool := false
  streamed : Nat := 0
  since : Nat := 0
  deriving DecidableEq, Repr

/-- The state of a vector engine (R130 to R132, R164, R166): the tiles' bytes by tile x 16,384 + row x 256 + byte, the count
registers, the carry row, the side accumulator's FP32 code and how it is armed (0 not, 1 for a sum, 2 for a maximum). -/
structure VectorState where
  tiles : List Host.Cell := []
  cnt : List (Nat × BitVec 32) := []
  carry : List (Nat × BitVec 32) := []
  side : Nat := 0
  sideArm : Nat := 0
  deriving DecidableEq, Repr

/-- A fetch or move that a tier mover is running (R294, R295): the fields of its TMOVE, the bases of the frames still to
start, and whether a frame was left in place. -/
structure Fetch where
  tier : Nat
  cls : Nat
  route : Nat
  group : Nat
  va : Nat
  len : Nat
  deadline : Nat
  step : Nat
  tag : Nat
  alt : Nat
  buoy : Nat
  todo : List Nat
  missed : Bool
  late : Bool
  replay : Bool
  deriving DecidableEq, Repr

/-- An engine's running slot: the plan and slot, the segment (R174), the position in it, what it waits for, the writes not
yet visible to others (R117, R156, R196), the addresses among them that hold poisoned data (R354), the draw context of a running IRUN, and the
engine's own state. -/
structure Run where
  plan : Nat := 0
  slot : Nat := 0
  part : Nat := 0
  be : Bool := false
  lent : Bool := false
  stream : Nat := 0
  length : Nat := 0
  opened : Bool := false
  doorbell : Nat := 0
  pos : Nat := 0
  idx : Nat := 0
  wait : Wait := .none
  pend : List (Nat × Byte) := []
  bad : List Nat := []
  mx : MatrixState := {}
  vx : VectorState := {}
  fetch : Option Fetch := none
  ctx : Nat := 0
  deriving DecidableEq, Repr

/-- A slot held after a fault in a spill slot (R376): its engine, its run, and whether software has made it runnable (R379). -/
structure Held where
  engine : Nat
  run : Run
  resumed : Bool
  deriving DecidableEq, Repr

/-- What an engine's next command may have to wait for. Of a vector engine (R154, R155): the registers that cannot be read yet, each with
the cycles left (tile t as t, count register k as 32 + k, the carry row as 40, the side accumulator as 41), and the tile and OPSEL of
the VRED just before. Of a matrix engine (R120, R123): whether the cycles of its latest shadow load are counted already. -/
structure Timing where
  late : List (Nat × Nat) := []
  red : Option (Nat × Nat) := none
  loaded : Bool := false
  deriving DecidableEq, Repr

/-- The engines: the runs by engine identifier, the save banks of suspended slots (R76), the banks being copied to a spill
slot (with the slot number), the held slots by partition x 64 + spill slot, and what engines' next commands wait for. -/
structure Engines where
  runs : List (Nat × Run) := []
  banks : List (Nat × Run) := []
  spilling : List (Nat × Nat × Run) := []
  held : List (Nat × Held) := []
  deps : List (Nat × Timing) := []
  deriving DecidableEq, Repr

/-- A mailbox or log queue as a crossing queue (R202, R209): its entries, oldest first, and whether a reset runs. -/
structure Mailbox where
  entries : List Word := []
  resetting : Bool := false
  commanded : Bool := false
  deriving DecidableEq, Repr

/-- The crossing queues that the B9 shows or resets: the mailboxes by 3 p + m, and the other queues a reset runs on. -/
structure Queues where
  mail : List (Nat × Mailbox) := []
  resetting : List QueueId := []
  deriving DecidableEq, Repr

/-! ## Memory -/

/-- A frame (R289): owner, size (64 KiB or 2 MiB), class, recorded virtual address, allocation run, last-touched stamp, and
whether it is in transit, is to be freed when its move ends, or is being zeroed. -/
structure Frame where
  part : Nat
  big : Bool
  movable : Bool
  va : Nat
  run : Nat
  stamp : Nat
  transit : Bool := false
  freeAfter : Bool := false
  zeroing : Bool := false
  deriving DecidableEq, Repr

/-- An allocation request as captured by GO (R290). -/
structure AllocReq where
  tier : Nat
  lowest : Nat
  big : Bool
  movable : Bool
  count : Nat
  va : Nat
  deriving DecidableEq, Repr

/-- A move under way: source base, destination base, bytes (one frame, or the frames of one larger page: R372), its mover (an
engine, or none for demotion). -/
structure Move where
  src : Nat
  dst : Nat
  bytes : Nat
  engine : Option Nat
  deriving DecidableEq, Repr

/-- One fetch that armed a route (R301): its engine, the TMOVE's fields for the substitution record, the plan's tag, and how
it ended (0 running, 1 HIT, 2 MISS). -/
structure RouteFetch where
  engine : Nat
  step : Nat
  tag : Nat
  alt : Nat
  cls : Nat
  group : Nat
  planTag : Nat
  outcome : Nat
  deriving DecidableEq, Repr

/-- An armed route: its deadline, partition and arming fetches. -/
structure RouteArm where
  deadline : Nat
  part : Nat
  fetches : List RouteFetch
  deriving DecidableEq, Repr

/-- Frames by physical base, allocations under way by partition, frame moves, armed routes by number, lent ranges in the order they were lent
(lending, base, bytes), the frames retired under R360, and the bytes demoted in the current watch by partition. -/
structure Tiers where
  frames : List (Nat × Frame) := []
  nextRun : Nat := 1
  allocs : List (Nat × AllocReq) := []
  moves : List Move := []
  routes : List (Nat × RouteArm) := []
  lent : List (Nat × Nat × Nat) := []
  retired : List Nat := []
  demoted : List (Nat × Nat) := []
  deriving DecidableEq, Repr

/-- A T3 write that is accepted and not yet durable (R324, R325): the watch, the line, what the line held before. -/
structure FlashWrite where
  watch : Nat
  addr : Nat
  old : List Byte
  oldPoison : List Nat
  deriving DecidableEq, Repr

/-- The flash translation layer: writes not yet durable, newest first; bytes in the open stripe and the watch of its first
write; full stripes in the write cache that wait to be programmed, and the cache's occupancy in bytes; page reads by erase
block since its last erase; blocks being relocated and relocations done; the last step marks as (host, NAND) byte counts,
newest first; the governor's credit in bytes; bytes written in the current watch while PACED; after a second stack loss during
a rebuild the number of the free bits that say which sectors lost two members, and the ranges written since; and a power
loss that awaits its record, as its watch w_s and the bytes lost. -/
structure Flash where
  accepted : List FlashWrite := []
  stripe : Nat := 0
  stripeWatch : Nat := 0
  full : Nat := 0
  cache : Nat := 0
  reads : List (Nat × Nat) := []
  relocating : List Nat := []
  moves : Nat := 0
  marks : List (Nat × Nat) := []
  credit : Int := 30000000000000000
  paced : Nat := 0
  double : Option Nat := none
  clean : List (Nat × Nat) := []
  loss : Option (Nat × Nat) := none
  deriving DecidableEq, Repr

/-- One HBM stack's controller (R346 to R358): bytes served in the band by class (MAINT, LC, GR, BE), the LC budget in
effect, requests that wait before they issue (class, write, address, bytes), corrections by row in this scrub period, the
repair list, the refresh state and the granules scrubbed in this pass. -/
structure HbmStack where
  maint : Nat := 0
  lc : Nat := 0
  gr : Nat := 0
  be : Nat := 0
  budget : Nat := 3328000
  waiting : List (Nat × Bool × Nat × Nat) := []
  rows : List (Nat × Nat) := []
  repair : List Nat := []
  scrubbed : Nat := 0
  deriving DecidableEq, Repr

/-! ## Translation and coherence -/

/-- A cached translation (R369): the die whose TLB holds it, partition, page, both physical sides, side kind and set, rights
and pinning; old marks an entry that a running invalidation removes. -/
structure TlbEntry where
  die : Nat
  part : Nat
  va : Nat
  size : Nat
  pa0 : Nat
  pa1 : Nat
  sided : Nat
  set : Nat
  r : Bool
  w : Bool
  a : Bool
  pinned : Bool
  old : Bool := false
  deriving DecidableEq, Repr

/-- A walk in progress (R381): the walking die, the engine and the access (0 read, 1 write, 2 atomic, 3 fetch). -/
structure Walk where
  die : Nat
  engine : Nat
  part : Nat
  va : Nat
  acc : Nat
  guaranteed : Bool
  deriving DecidableEq, Repr

/-- Translation: the die TLBs, walks by number, misses that wait for a walker, and invalidations under way by partition
(scope, first address, bytes). -/
structure Mmu where
  tlb : List TlbEntry := []
  walks : List (Nat × Walk) := []
  nextWalk : Nat := 0
  waiting : List Walk := []
  inv : List (Nat × Bool × Nat × Nat) := []
  deriving DecidableEq, Repr

/-- Which request a forward serves (R397). -/
inductive FwdKind where
  | shared | once | unique | writeLine
  deriving DecidableEq, Repr

/-- A forward that awaits the owner's answer: the owner asked, the requester, the request, and the requester's store (offset in the
line, bytes). -/
structure Forward where
  owner : Agent
  requester : Agent
  kind : FwdKind
  off : Nat := 0
  store : List Byte := []
  deriving DecidableEq, Repr

/-- A line in the snoop filter (R395): its owner, whether the owner has the line in M or O (dirty), the owner's data where it
differs from memory, the sharers, the forwards outstanding in order of arrival, and agents gone silent (R398). -/
structure Line where
  owner : Option Agent := none
  dirty : Bool := false
  data : Option (List Byte) := none
  sharers : List Agent := []
  forwards : List Forward := []
  silent : List Agent := []
  deriving DecidableEq, Repr

/-- A cached region entry (R411). -/
structure RegionEntry where
  flags : Nat
  part : Nat
  ports : Nat
  key : Nat
  va : Nat
  len : Nat
  plan : Nat
  deriving DecidableEq, Repr

/-- An outbound read that awaits its completion (R406). -/
structure OutRead where
  port : Nat
  tag : Nat
  agent : Agent
  addr : Nat
  len : Nat
  deriving DecidableEq, Repr

/-- The root ports: cached region entries, the region invalidation under way (entry, or 65,536 for all), lines fetched ahead
(port, line address, data), fence reads under way, outbound reads, posted and relayed writes that left a port (port, bus
address, data), and the message-signalled interrupts delivered (hart, identity) and the
completions sent to requesters behind a port (port, poisoned, data), newest first. -/
structure Pcie where
  regions : List (Nat × RegionEntry) := []
  inv : Option Nat := none
  ahead : List (Nat × Nat × List Byte) := []
  fences : List Nat := []
  reads : List OutRead := []
  nextTag : Nat := 0
  posted : List (Nat × Nat × List Byte) := []
  msis : List (Nat × Nat) := []
  done : List (Nat × Bool × List Byte) := []
  deriving DecidableEq, Repr

/-! ## Field test and the Logbook -/

/-- One record of the Logbook (R584); SEQ and CRC follow when it is written out. -/
structure LogRecord where
  kind : Nat
  part : Nat
  source : Nat
  code : Nat
  watch : Nat
  boot : Nat
  tick : Nat
  seq : Nat
  args : List Nat
  deriving DecidableEq, Repr

/-- An incident slot (R586): its header's fields, the occurrence counts by line, and the records kept by index j. -/
structure Incident where
  number : Nat
  boot : Nat
  line : Nat
  close : Nat := 0
  openWatch : Nat
  lastWatch : Nat
  records : Nat := 0
  occurrences : Nat := 0
  counts : List (Nat × Nat) := []
  recs : List (Nat × LogRecord) := []
  deriving DecidableEq, Repr

/-- A source's counters (R583). -/
structure SourceCount where
  events : Nat := 0
  suppressed : Nat := 0
  watch : Nat := 0
  boot : Nat := 0
  deriving DecidableEq, Repr

/-- A source's events in the current window of 4,096 watches: sent, suppressed, and the code of the first suppressed (R580). -/
structure SourceWindow where
  sent : Nat := 0
  suppressed : Nat := 0
  first : Nat := 0
  deriving DecidableEq, Repr

/-- An entry of a die's log queue (R581): an event (R582) or a trace (R592), with the time it was made. -/
inductive LogItem where
  | event (source part code watch tick : Nat) (args : List Nat)
  | trace (engine kind part plan index watch tick : Nat)
  deriving DecidableEq, Repr

/-- The Logbook in Keeper MRAM (R583) and the log queues of the dies. final is set once the FINAL record is written (R587). -/
structure LogState where
  boots : Nat := 0
  nextIncident : Nat := 0
  ambientHead : Nat := 0
  oldest : Nat := 0
  nextSlot : Nat := 0
  sources : List (Nat × SourceCount) := []
  ambient : List (Nat × LogRecord) := []
  incidents : List (Nat × Incident) := []
  windows : List (Nat × SourceWindow) := []
  drops : List (Nat × Nat) := []
  queues : List (Nat × List LogItem) := []
  final : Bool := false
  reading : Bool := false
  deriving DecidableEq, Repr

/-- A unit under field test (R575): its state (0 NORMAL, 1 SUSPECT, 2 RETIRED, 3 DEFECTIVE), counts, position in the current
test, the watches in which its last completed and its last passed test and its current one began, when its latest and its last completed
test began in watches of powered time, whether a test is due, runs in reserved windows, or has patterns loaded, and FTS_X_TUNE and FTS_CFG.PASS_EVENT as they
stood when the test became due (R590). -/
structure FtUnit where
  state : Nat := 0
  starved : Bool := false
  method : Nat := 0
  fails : Nat := 0
  passes : Nat := 0
  aborts : Nat := 0
  segment : Nat := 0
  testWatch : Nat := 0
  passWatch : Nat := 0
  start : Nat := 0
  began : Int := 0
  completed : Int := 0
  due : Bool := false
  reserved : Bool := false
  loaded : Bool := false
  tune : Word := 0
  passEvent : Bool := false
  deriving DecidableEq, Repr

/-- A reserved window (R573): unit, watch and first granule. -/
structure FtWindow where
  unit : Nat
  watch : Nat
  gran : Nat
  deriving DecidableEq, Repr

/-- Field test: the units by identifier, the segment running on each die (unit, in a reserved window or not), the reserved
windows, unavailable engines, engines that become unavailable (engine, watch), and new mappings that wait for their watch (logical engine,
physical engine, watch), and what the package's powered time, in watches, is ahead of the watch count. -/
structure FieldTest where
  units : List (Nat × FtUnit) := []
  running : List (Nat × Nat × Bool) := []
  windows : List FtWindow := []
  unavailable : List Nat := []
  leaving : List (Nat × Nat) := []
  mapping : List (Nat × Nat × Nat) := []
  ahead : Int := 0
  deriving DecidableEq, Repr

/-! ## Bring-up -/

/-- A partition of a Chart (R546). -/
structure PartDesc where
  num : Nat
  service : Bool
  headless : Bool
  controller : Nat
  clusters : Nat
  harts : Nat
  buoyFirst : Nat
  buoyCount : Nat
  shareW : Nat
  groups : Nat
  flipSets : Nat
  routes : Nat
  quotas : List Nat
  deriving DecidableEq, Repr

/-- An engine outside the clusters in a Chart: its holder (255 for a shared engine) and its sharers (R546). -/
structure EngineDesc where
  engine : Nat
  holder : Nat
  sharers : Nat
  deriving DecidableEq, Repr

/-- A record of the LINKS section (R547): its kind and the three fields it carries. -/
structure LinkRec where
  kind : Nat
  a : Nat
  b : Nat
  c : Nat
  d : Nat
  e : Nat
  deriving DecidableEq, Repr

/-- A window record of the WATCH section (R547). -/
structure WindowRec where
  engine : Nat
  part : Nat
  gran : Nat
  count : Nat
  deriving DecidableEq, Repr

/-- A Chart (R545 to R547). -/
structure Chart where
  serial : Nat := 0
  device : Nat := 0
  parts : List PartDesc := []
  engines : List EngineDesc := []
  pkg : Nat := 0
  role : Nat := 0
  parent : Nat := 0xFF
  ports : Nat := 0
  half : Nat := 0
  eth : Nat := 0
  links : List LinkRec := []
  resv : List Nat := []
  windows : List WindowRec := []
  mode : Nat := 0
  fixedOp : Nat := 9
  capW : Nat := 4800
  request : Nat := 0
  expertBlocks : Nat := 0
  deriving DecidableEq, Repr

/-- A stored licence with its binding tag (R554, R555). -/
structure Licence where
  image : List Byte
  tag : List Byte
  deriving DecidableEq, Repr

/-- A command of CHT_CTRL that waits or runs (R566). -/
inductive ChtOp where
  | write | select | install | invalidate | reset
  deriving DecidableEq, Repr

/-- Boot, the Chart and the Keeper's stores (R537 to R566): whether the package has power; a trip, and the failed power-up attempts
(0 none, 1 one that awaits its retry, 2 a second attempt under way, 3 off until the input is removed) that keep it off; an input or
a reference not yet back; rails that failed, and whether the boot stands in recovery, is held after a stage or runs no further; the
Chart in effect, the images of slots A and B, the slot selected for the next boot, installed chart keys (slot, key number), the
identity key's number, licences, the CHT commands waiting, and the one that runs with its slot, the code it will fail with (0 for none) and its image or licence; components with a valid settings record, records whose
invalidation waits for the next boot, and all of them; spare assignments (die, logical engine, physical engine); the firmware copy
that runs; how the last boot ended and its KPR_BOOT_STATUS; the debug port; the Keeper's replies that wait for room, those the
sideband will read, and the sideband block under way (its entry, raw entries so far); the domains under active discharge; PWR_OK; KPR_X_BOOT as it stood when the boot began. -/
structure Boot where
  powered : Bool := false
  tripped : Bool := false
  attempt : Nat := 0
  inputLost : Bool := false
  refLost : Bool := false
  rails : List Nat := []
  recovery : Bool := false
  halted : Bool := false
  chart : Chart := {}
  slotA : List Byte := []
  slotB : List Byte := []
  selected : Nat := 0
  keys : List (Nat × Nat) := [(0, 0)]
  identity : Nat := 0
  licences : List Licence := []
  chtQueue : List ChtOp := []
  chtRun : Option (ChtOp × Nat × Nat × List Byte) := none
  saved : List Nat := []
  invalid : List Nat := []
  invalidAll : Bool := false
  spares : List (Nat × Nat × Nat) := []
  firmware : Nat := 0
  endCause : Nat := 0
  lastStatus : Nat := 0
  portOpen : Bool := false
  opening : Bool := false
  replies : List (Nat × Word) := []
  sideband : List Word := []
  block : Option (Nat × List Nat) := none
  discharge : List Nat := []
  pwrOk : Bool := false
  xboot : Nat := 0
  deriving DecidableEq, Repr

/-! ## Streams -/

/-- An exporter's open stream (R270 to R280): its partition, destination and identity, what it has written, and the physical
side recorded for each held set at XOPEN (R276). -/
structure Stream where
  part : Nat
  checkpoint : Bool
  dest : Nat
  base : Nat
  limit : Nat
  handle : Nat
  snapId : Nat
  step : Nat
  pos : Nat
  shards : Nat
  dataBytes : Nat
  sides : List (Nat × Nat)
  torn : Bool := false
  overflow : Bool := false
  closing : Bool := false
  deriving DecidableEq, Repr

/-! ## Links -/

/-- A message that waits to be sent (R469, R471): its channel (0 REQ, 1 RSP, 2 COLL, 3 BULK), class, destination, the optical
engine it is to use where that is settled already (COLL and BULK, one in turn), and its bytes, header first. -/
structure Packet where
  chan : Nat
  gr : Bool
  dest : Nat
  port : Option Nat
  bytes : List Byte
  deriving DecidableEq, Repr

/-- A port of Morco Link (R453 to R467, R481 to R486). Sending: the next SEQ, the replay buffer (SEQ, flit) with the oldest
first, the SEQs still to be resent, timeouts in a row with the same oldest flit, bodies used and freed by channel, the message
under way by channel (its bytes still to send), CTRL bodies that wait (CTYPE, body), and the latest flit sent. Receiving: the
SEQ expected, the value of E for which REPLAY_REQ was sent and whether one goes with the next flit, bodies freed by channel, the
channel whose total goes next, and the part of a message received by channel. Training: 0 none, 1 with saved settings, 2 in full,
3 a change; the rate before a change; and whether the laser input keeps the port out of UP. -/
structure Port where
  next : Nat := 0
  held : List (Nat × List Byte) := []
  replay : List Nat := []
  timeouts : Nat := 0
  used : List (Nat × Nat) := []
  freed : List (Nat × Nat) := []
  going : List (Nat × Packet) := []
  ctrl : List (Nat × List Byte) := []
  sent : List Byte := []
  expect : Nat := 0
  asked : Option Nat := none
  ask : Bool := false
  drained : List (Nat × Nat) := []
  turn : Nat := 0
  part : List (Nat × List Byte) := []
  training : Nat := 0
  half : Bool := false
  back : Option Bool := none
  dark : Bool := false
  deriving DecidableEq, Repr

/-- A request of this package that awaits its response (R475): its tag, the die that issued it, its link die, destination, what it
reads or writes. -/
structure RemoteReq where
  tag : Nat
  src : Nat
  die : Nat
  dest : Nat
  write : Bool
  addr : Nat
  len : Nat
  deriving DecidableEq, Repr

/-- A loaded Ethernet handle (R491 to R493): its 64-byte entry, the next PSN, the RDMA WRITEs not yet acknowledged (PSN, remote
address, data), retries of the oldest, and its rate in thousandths. -/
structure Handle where
  entry : List Byte
  psn : Nat
  sent : List (Nat × Nat × List Byte) := []
  retries : Nat := 0
  rate : Nat := 1000
  deriving DecidableEq, Repr

/-- The optical fabric: ports by optical engine, messages that wait, the optical engine that takes the next COLL or BULK message,
requests awaiting a response, the next tag, destinations a timeout made unreachable, remote requests received and not yet
served, remote writes not yet acknowledged, visibility epochs applied by the link dies, lines they fetched ahead
(die, epoch, line, data), Ethernet handles, the answers to inbound RDMA requests (queue pair, data or none for a NAK), newest first, and
the priorities paused by Ethernet engine (8 x engine + priority). -/
structure Links where
  ports : List (Nat × Port) := []
  out : List Packet := []
  turn : Nat := 0
  reqs : List RemoteReq := []
  nextTag : Nat := 0
  silent : List Nat := []
  reads : List (Nat × LinkMsg) := []
  writes : List (Nat × LinkMsg × Bool) := []
  epochs : List (Nat × Nat) := []
  ahead : List (Nat × Nat × Nat × List Byte) := []
  handles : List (Nat × Handle) := []
  answers : List (Nat × Option (List Byte)) := []
  paused : List Nat := []
  deriving DecidableEq, Repr

/-! ## Collectives -/

/-- The values of a group that an apply captures (R220). -/
structure GroupSet where
  size : Nat := 1
  rank : Nat := 0
  x : Nat := 0
  epoch : Nat := 0
  excl : Nat := 0
  deriving DecidableEq, Repr

/-- A group's step capture (R244, R245): the step, the mode of its first CSTEP (0 off, 1 capture, 2 replay), whether it is open,
the area's address and size, entries and bytes used. -/
structure Capture where
  step : Nat := 0
  mode : Nat := 0
  opened : Bool := false
  addr : Nat := 0
  size : Nat := 0
  entries : Nat := 0
  used : Nat := 0
  deriving DecidableEq, Repr

/-- A Beacon round that runs (R232 to R240): the CBEACON's fields, F and SG, the latest sub-round opened, KNOWN and SKIP, what its
last opening sent, the vote's reasons and sums, the captured sections, and whether the alarms were raised in it. -/
structure Round where
  engine : Nat
  step : Nat
  f : Nat
  sg : Nat
  sub : Nat
  known : Nat
  skip : Nat
  reason : Nat
  sumsq : Nat
  nonfinite : Nat
  reduced : Nat
  result : Nat
  flips : Nat
  capture : Bool
  ids : List Byte
  subs : List Byte
  unstable : Bool := false
  disagree : Bool := false
  deriving DecidableEq, Repr

/-- A group: the values in effect, a pending apply (watch and values), the previous decision and its step, the closed steps,
its capture and its round. -/
structure Group where
  now : GroupSet := {}
  pending : Option (Nat × GroupSet) := none
  decision : Nat := 0
  decided : Nat := 0
  closed : List Nat := []
  cap : Capture := {}
  round : Option Round := none
  deriving DecidableEq, Repr

/-- An engine's open step for a group (R223): its threshold, the accumulators of R228 and the mark of R230. -/
structure OpenStep where
  step : Nat
  thresh : Nat
  sumsq : Nat := 0
  nonfinite : Nat := 0
  reduced : Nat := 0
  failed : Bool := false
  deriving DecidableEq, Repr

/-- COLL data received (R469): source package, element offset, the bytes. -/
structure CollData where
  group : Nat
  tag : Nat
  step : Nat
  src : Nat
  off : Nat
  data : List Byte
  deriving DecidableEq, Repr

/-- A CREDUCE that runs (R222): its fields, the members with their ranks, this package's place among them, X after the fallback
of R226 (0 for the ring), and the codes of the local input. -/
structure Reduce where
  group : Nat
  step : Nat
  tag : Nat
  flags : Nat
  inFmt : Nat
  wire : Nat
  outFmt : Nat
  outAddr : Nat
  count : Nat
  members : List Nat
  self : Nat
  x : Nat
  input : List Nat
  inCrc : Nat
  deriving DecidableEq, Repr

/-- The collective engines: groups, open steps by link die x 4 + group, running CREDUCEs by link die, COLL data received for
CREDUCEs not complete, the CREDUCEs that stopped (group, step, tag), and flips that wait for their watch (watch, mask). -/
structure Collective where
  groups : List (Nat × Group) := []
  steps : List (Nat × OpenStep) := []
  running : List (Nat × Reduce) := []
  inbox : List CollData := []
  stopped : List (Nat × Nat × Nat) := []
  flips : List (Nat × Nat) := []
  deriving DecidableEq, Repr

/-! ## Updates -/

/-- A UAPPLY that runs on a die's sequencer (R255 to R268): DONE_BUOY, the first item, the bytes each item stages by physical
address, the non-finite elements among them, and the physical address of the progress header (none for ELEMENT and FROZEN). -/
structure UpdRun where
  buoy : Nat
  first : Nat
  items : List (List (Nat × Byte))
  nonfinite : Nat
  header : Option Nat
  deriving DecidableEq, Repr

/-- The seed and rounding mode at a tensor's item 0 (R283): partition, tensor, step. -/
structure SeedUse where
  part : Nat
  tensor : Nat
  step : Nat
  seed : Nat
  mode : Nat
  deriving DecidableEq, Repr

/-- The sequencers: running UAPPLYs by die, and the seeds in use. -/
structure Update where
  running : List (Nat × UpdRun) := []
  seeds : List SeedUse := []
  deriving DecidableEq, Repr

/-! ## Draws -/

/-- A draw in a context of an intake die (R424 to R429): the fields of its IOPEN, the seed it copied, and what it copied of the source
table (N, K, the containers as base, bytes and first sample) and of the profile (its entries of 64 bytes); the slots finished and, in
ANY mode, the samples taken. -/
structure Draw where
  part : Nat
  mode : Nat
  flags : Nat
  group : Nat
  steerLog : Nat
  buoy : Nat
  step : Nat
  epoch : Nat
  count : Nat
  pos : Nat
  slotBytes : Nat
  dest : Nat
  steer : Nat
  margin : Nat
  tag : Nat
  seed : Nat
  n : Nat
  k : Nat
  containers : List (Nat × Nat × Nat)
  profile : List (List Byte)
  finished : List Nat := []
  taken : List Nat := []
  deriving DecidableEq, Repr

/-! ## The Sextant -/

/-- The Sextant (R505 to R523): the input power of the last bands in W, newest first; the bands started in this watch; each partition's
phase as it stood at tick 125,000; the energy of domains 0 to 47 in this watch in uJ; estimates by (16 p + k) x 8 + d with their
samples; a mode write that waits, with the watch it came in; the fixed point in effect; PWR_X_TUNE as it stood at the watch's start;
dies whose point changes and targets that wait for a change; the emergency's point caps; the point to which R518 has lowered the
dies; each sensor's temperature and level; watches without a sensor within 5 degrees of its emergency threshold, and whether this
one has had such a sensor; whether any die has run below OP9 in this watch and did in the last; and whether the tensor clocks run. -/
structure Sextant where
  hist : List Nat := []
  band : Nat := 0
  phases : Option (List (Nat × Nat)) := none
  energy : List (Nat × Nat) := []
  est : List (Nat × Nat × Nat) := []
  modeWatch : Option Nat := none
  fixedOp : Nat := 9
  tune : Word := 0
  moving : List Nat := []
  next : List (Nat × Nat) := []
  caps : List (Nat × Nat) := []
  lowered : Option Nat := none
  temps : List (Nat × Nat) := []
  levels : List (Nat × Nat) := []
  cool : Nat := 0
  hot : Bool := false
  below : Bool := false
  wasBelow : Bool := false
  clocks : Bool := false
  deriving DecidableEq, Repr

/-! ## The whole state -/

/-- The state of the B9. -/
structure State where
  /-- registers by key (R6); an unlisted register reads zero -/
  regs : List (Nat × Word)
  /-- memory by physical address (R32); an unlisted byte reads zero (log entry 4) -/
  mem : List Host.Cell
  /-- cluster SRAM (R284): cluster x 2^26 + offset; an unlisted byte reads zero -/
  sram : List Host.Cell
  /-- the poisoned 32-byte granules, by address, ascending (R354) -/
  poison : List Nat
  /-- the data returned by the latest register or bus read (the model's own field, log entry 8) -/
  resp : Word
  /-- the counter that numbers free values (the model's own field, log entry 3) -/
  free : Nat
  /-- the commands that wait, first in, first out -/
  pending : List Instr
  /-- the counts of the timebase (R54, R55) -/
  tb : Timebase
  /-- expert settings that wait under R26 -/
  deferred : List Deferred
  /-- engines that wait for an entry of their tensor die's transaction tracker (R37) -/
  tracker : List (Nat × List Nat)
  /-- submissions and plans (R65 to R82) -/
  adm : Admission
  /-- engine runs, save banks and held slots -/
  eng : Engines
  /-- mailboxes and queue resets (R202 to R214) -/
  xq : Queues
  /-- frames, moves, routes and lending (R289 to R312) -/
  tiers : Tiers
  /-- the flash translation layer (R320 to R342) -/
  flash : Flash
  /-- the HBM controllers by stack (R346 to R358) -/
  hbm : List (Nat × HbmStack)
  /-- translations and walks (R369 to R383) -/
  mmu : Mmu
  /-- the snoop filter by line address (R395) -/
  coh : List (Nat × Line)
  /-- the root ports (R402 to R412) -/
  pcie : Pcie
  /-- the Logbook and log queues (R578 to R588) -/
  log : LogState
  /-- field test (R567 to R577) -/
  ft : FieldTest
  /-- boot, Chart, licences and Keeper stores (R537 to R566) -/
  boot : Boot
  /-- the exporters' open streams by link die (R276) -/
  exp : List (Nat × Stream)
  /-- the optical fabric (R451 to R497) -/
  lnk : Links
  /-- groups, collectives and Beacon rounds (R218 to R248) -/
  col : Collective
  /-- the update-unit sequencers (R253 to R269) -/
  upd : Update
  /-- the latency probe that runs: source die, count and address as START captured them (R50) -/
  probe : Option (Nat × Nat × Nat)
  /-- the draw contexts in use by 4 x intake die + context (R424 to R428) -/
  draws : List (Nat × Draw)
  /-- the Sextant (R505 to R523) -/
  pwr : Sextant
  deriving DecidableEq, Repr

/-- No command of this block stops the machine: the spec answers a bad register access, a refused request, an ill-formed
command and a hardware fault with an effect of its own. The one constructor is raised by no meaning (safe). -/
inductive Fault where
  | stopped
  deriving DecidableEq, Repr

/-- Refusals. notModelled is answered only by Machine/Dispatch.lean, for a command whose meaning is not written (safe). -/
inductive Refusal where
  | notModelled (mnemonic : String)
  deriving DecidableEq, Repr

/-- The state at reset: a new package before its first power-up. Registers hold the values of the register tables' Reset
columns (R8); Stored and Fuse map fields hold those of a new package (log entries 1 and 2); nothing is in memory, no Chart is
in effect, no engine runs. -/
def State.reset : State :=
  { regs := resetRegs,
    mem := [],
    sram := [],
    poison := [],
    resp := 0,
    free := 0,
    pending := [],
    tb := {},
    deferred := [],
    tracker := [],
    adm := {},
    eng := {},
    xq := {},
    tiers := {},
    flash := {},
    hbm := [],
    mmu := {},
    coh := [],
    pcie := {},
    log := {},
    ft := {},
    boot := {},
    exp := [],
    lnk := {},
    col := {},
    upd := {},
    probe := none,
    draws := [],
    pwr := {} }

/-! The updates of one field each. -/

/-- The state with another regs. -/
def State.setRegs (s : State) (x : List (Nat × Word)) : State := { s with regs := x }
/-- The state with another mem. -/
def State.setMem (s : State) (x : List Host.Cell) : State := { s with mem := x }
/-- The state with another sram. -/
def State.setSram (s : State) (x : List Host.Cell) : State := { s with sram := x }
/-- The state with another poison. -/
def State.setPoison (s : State) (x : List Nat) : State := { s with poison := x }
/-- The state with another resp. -/
def State.setResp (s : State) (x : Word) : State := { s with resp := x }
/-- The state with another free. -/
def State.setFree (s : State) (x : Nat) : State := { s with free := x }
/-- The state with another pending. -/
def State.setPending (s : State) (x : List Instr) : State := { s with pending := x }
/-- The state with another tb. -/
def State.setTb (s : State) (x : Timebase) : State := { s with tb := x }
/-- The state with another deferred. -/
def State.setDeferred (s : State) (x : List Deferred) : State := { s with deferred := x }
/-- The state with another tracker. -/
def State.setTracker (s : State) (x : List (Nat × List Nat)) : State := { s with tracker := x }
/-- The state with another adm. -/
def State.setAdm (s : State) (x : Admission) : State := { s with adm := x }
/-- The state with another eng. -/
def State.setEng (s : State) (x : Engines) : State := { s with eng := x }
/-- The state with another xq. -/
def State.setXq (s : State) (x : Queues) : State := { s with xq := x }
/-- The state with another tiers. -/
def State.setTiers (s : State) (x : Tiers) : State := { s with tiers := x }
/-- The state with another flash. -/
def State.setFlash (s : State) (x : Flash) : State := { s with flash := x }
/-- The state with another hbm. -/
def State.setHbm (s : State) (x : List (Nat × HbmStack)) : State := { s with hbm := x }
/-- The state with another mmu. -/
def State.setMmu (s : State) (x : Mmu) : State := { s with mmu := x }
/-- The state with another coh. -/
def State.setCoh (s : State) (x : List (Nat × Line)) : State := { s with coh := x }
/-- The state with another pcie. -/
def State.setPcie (s : State) (x : Pcie) : State := { s with pcie := x }
/-- The state with another log. -/
def State.setLog (s : State) (x : LogState) : State := { s with log := x }
/-- The state with another ft. -/
def State.setFt (s : State) (x : FieldTest) : State := { s with ft := x }
/-- The state with another boot. -/
def State.setBoot (s : State) (x : Boot) : State := { s with boot := x }
/-- The state with another exp. -/
def State.setExp (s : State) (x : List (Nat × Stream)) : State := { s with exp := x }
/-- The state with another lnk. -/
def State.setLnk (s : State) (x : Links) : State := { s with lnk := x }
/-- The state with another col. -/
def State.setCol (s : State) (x : Collective) : State := { s with col := x }
/-- The state with another upd. -/
def State.setUpd (s : State) (x : Update) : State := { s with upd := x }
/-- The state with another probe. -/
def State.setProbe (s : State) (x : Option (Nat × Nat × Nat)) : State := { s with probe := x }
/-- The state with another draws. -/
def State.setDraws (s : State) (x : List (Nat × Draw)) : State := { s with draws := x }
/-- The state with another pwr. -/
def State.setPwr (s : State) (x : Sextant) : State := { s with pwr := x }

end Sys2Proof.Machine
end

