-- ==== Sys2Proof/Machine/Ops.lean ====
section
/-! DEFINITION. The named operations over registers, time, free values and the Chart in effect. -/
namespace Sys2Proof.Machine

/-- The outcome type of a command. -/
abbrev Out := Host.Outcome State Fault Refusal

/-! ## Registers -/

/-- The content of a register. -/
def State.reg (s : State) (k : Nat) : Word := Sparse.get s.regs k

/-- A register replaced. -/
def State.putReg (s : State) (k : Nat) (w : Word) : State := s.setRegs (Sparse.set s.regs k w)

/-- A field of a register. -/
def State.fld (s : State) (k : Nat) (f : Fld) : Nat := fget (s.reg k) f

/-- Is a one-bit field set? -/
def State.flag (s : State) (k : Nat) (f : Fld) : Bool := s.fld k f = 1

/-- A field of a register replaced. -/
def State.putFld (s : State) (k : Nat) (f : Fld) (v : Nat) : State := s.putReg k (fset (s.reg k) f v)

/-- A one-bit field set. -/
def State.setBit (s : State) (k : Nat) (f : Fld) : State := s.putFld k f 1

/-- A one-bit field cleared. -/
def State.clrBit (s : State) (k : Nat) (f : Fld) : State := s.putFld k f 0

/-- A counter advanced, saturating (R14). -/
def State.count (s : State) (k : Nat) (n : Nat := 1) : State := s.putReg k (BitVec.ofNat 64 (sat64 (s.reg k).toNat n))

/-- Registers cleared. -/
def State.clearRegs (s : State) : List Nat → State
  | [] => s
  | k :: ks => (s.putReg k 0).clearRegs ks

/-- Two fields that together hold an address: the low part's bits [31:lo] and the high part's bits above 31. -/
def State.addr (s : State) (k : Nat) (lo hi : Fld) : Nat := s.fld k lo * 2 ^ lo.lo + s.fld k hi * 2 ^ 32

/-! ## Time -/

/-- The watch count (R51). -/
def State.watch (s : State) : Nat := s.fld WCH_COUNT F.WCH_COUNT_COUNT_LO + s.fld WCH_COUNT F.WCH_COUNT_COUNT_HI * 2 ^ 32

/-- The watch count set (48 bits). -/
def State.setWatch (s : State) (w : Nat) : State := s.putReg WCH_COUNT (BitVec.ofNat 64 (w % 2 ^ 48))

/-- The ticks elapsed in the watch. -/
def State.tick (s : State) : Nat := s.fld WCH_TB_STATUS F.WCH_TB_STATUS_TICK

/-- Time moves on to a tick of the watch, if it lies ahead (log entry 7). -/
def State.toTick (s : State) (t : Nat) : State :=
  if s.tick < t then s.putFld WCH_TB_STATUS F.WCH_TB_STATUS_TICK t else s

/-- The granule of the watch that is running (R51). -/
def State.granule (s : State) : Nat := s.tick / 1000

/-- Bits [31:0] of the watch count, as records hold it. -/
def State.watchLo (s : State) : Nat := s.watch % 2 ^ 32

/-- Watches in n hours of powered time (one watch is 250 us). -/
def watchesOfHours (n : Nat) : Nat := n * 14400000

/-! ## Free values -/

/-- The next free value's number, taken. -/
def State.tookFree (s : State) : State := s.setFree (s.free + 1)

/-- The next free number. -/
def State.anyNat (s : State) : Nat := Config.freeNat s.free
/-- The next free bit. -/
def State.anyBool (s : State) : Bool := Config.freeBool s.free
/-- The next free word. -/
def State.anyWord (s : State) : Word := Config.freeWord s.free

/-! ## The Chart in effect -/

/-- The description of a partition, where the Chart defines it. -/
def State.partOf (s : State) (p : Nat) : Option PartDesc := s.boot.chart.parts.find? (fun d => d.num = p)

/-- Does the Chart define the partition? -/
def State.hasPart (s : State) (p : Nat) : Bool := (s.partOf p).isSome

/-- The service partition's number (R41). -/
def State.service? (s : State) : Option Nat := (s.boot.chart.parts.find? (fun d => d.service)).map (·.num)

/-- The partition that holds a hart (R39). -/
def State.partOfHart (s : State) (h : Nat) : Option Nat :=
  (s.boot.chart.parts.find? (fun d => d.harts.testBit h)).map (·.num)

/-- Does a buoy belong to a partition (R184)? -/
def State.ownsBuoy (s : State) (p b : Nat) : Bool :=
  match s.partOf p with
  | some d => decide (d.buoyFirst ≤ b) && decide (b < d.buoyFirst + d.buoyCount) && decide (b < 16384)
  | none => false

/-- Does a group belong to a partition? -/
def State.ownsGroup (s : State) (p g : Nat) : Bool := match s.partOf p with | some d => d.groups.testBit g | none => false

/-- The partition that owns a group. -/
def State.groupOwner (s : State) (g : Nat) : Option Nat :=
  (s.boot.chart.parts.find? (fun d => d.groups.testBit g)).map (·.num)

/-- Does a flip set belong to a partition? -/
def State.ownsSet (s : State) (p x : Nat) : Bool := match s.partOf p with | some d => d.flipSets.testBit x | none => false

/-- Does a route belong to a partition? -/
def State.ownsRoute (s : State) (p r : Nat) : Bool := match s.partOf p with | some d => d.routes.testBit r | none => false

/-! ## Engine identifiers (R61) -/

/-- The die number of an engine identifier. -/
def eDie (e : Nat) : Nat := e / 2048
/-- The kind of an engine identifier. -/
def eKind (e : Nat) : Nat := e / 64 % 32
/-- The index of an engine identifier. -/
def eIdx (e : Nat) : Nat := e % 64

/-- An engine identifier from die, kind and index. -/
def eId (die kind idx : Nat) : Nat := die * 2048 + kind * 64 + idx

/-- The dies of R28 that carry a kind of engine, as first die and number of dies, and how many each carries. -/
def kindShape : Nat → Nat × Nat × Nat
  | 0 | 1 => (0, 8, 16)
  | 2 | 3 => (0, 8, 4)
  | 4 => (0, 8, 2)
  | 5 => (0, 8, 1)
  | 6 | 7 => (10, 4, 1)
  | 8 => (14, 2, 2)
  | 9 => (14, 2, 4)
  | 10 => (14, 2, 8)
  | 11 => (14, 2, 2)
  | 12 | 13 => (14, 2, 1)
  | _ => (0, 0, 0)

/-- Does the package have this engine (R61)? -/
def eExists (e : Nat) : Bool :=
  let (d0, n, m) := kindShape (eKind e)
  decide (e < 65536) && decide (d0 ≤ eDie e) && decide (eDie e < d0 + n) && decide (eIdx e < m)

/-- Is the engine a matrix or vector engine, which lies in a cluster? -/
def eInCluster (e : Nat) : Bool := decide (eKind e ≤ 1)

/-- The cluster of a matrix or vector engine. -/
def eCluster (e : Nat) : Nat := 4 * eDie e + eIdx e / 4

/-- Is the engine held by the partition or shared with it (R39)? -/
def State.engineOf (s : State) (p e : Nat) : Bool :=
  if eInCluster e then (match s.partOf p with | some d => d.clusters.testBit (eCluster e) | none => false)
  else match s.boot.chart.engines.find? (fun d => d.engine = e) with
    | some d => if d.holder = 0xFF then d.sharers.testBit p else decide (d.holder = p)
    | none => false

/-- The status register of an engine whose block has one, with its state field (R127, R171, R215, R282). -/
def statusKey (e : Nat) : Option (Nat × Fld) :=
  match eKind e with
  | 0 => some (TD_ME_STATUS (eDie e) (eIdx e), F.TD_ME_STATUS_STATE)
  | 1 => some (TD_VE_STATUS (eDie e) (eIdx e), F.TD_VE_STATUS_STATE)
  | 2 => some (TD_CE_STATUS (eDie e) (eIdx e), F.TD_CE_STATUS_STATE)
  | 3 => some (TD_CE_STATUS (eDie e) (4 + eIdx e), F.TD_CE_STATUS_STATE)
  | 5 => some (UPD_SEQ_STATUS (eDie e), F.UPD_SEQ_STATUS_STATE)
  | 7 => some (UPD_EXP_STATUS (eDie e - 10), F.UPD_EXP_STATUS_STATE)
  | _ => none

/-- The state shown for an engine: 0 idle, 1 running a slot, 2 suspended best-effort slot held, 3 under field test. -/
def State.showEngine (s : State) (e v : Nat) : State :=
  match statusKey e with
  | some (k, f) => s.putFld k f v
  | none => s

/-! ## Expert settings in effect (R24, R26) -/

/-- The block index of R550 of a register key (its window in the order of R43), where it lies in a block with one. -/
def blockIndex (k : Nat) : Nat :=
  let w := k % 0x10000000 / 0x100000
  if w < 6 then w else if w < 35 then w - 2
  else if w < 0x34 then w - 0x30 + 33 else if w < 0x3A then w - 0x38 + 37 else if w < 0x42 then w - 0x40 + 39
  else w - 0x48 + 41

/-- Is the expert enable of the register's block set (R23)? -/
def State.expertOn (s : State) (k : Nat) : Bool := (s.reg CHT_EXPERT_EN).toNat.testBit (blockIndex k)

/-- The value of an expert register in effect: zero while its block's expert enable is clear, the value before the write
while R26 defers it, else the register. -/
def State.expert (s : State) (k : Nat) : Word :=
  if s.expertOn k then
    match s.deferred.find? (fun d => d.key = k) with
    | some d => d.old
    | none => s.reg k
  else 0

/-- A field of an expert register in effect. -/
def State.xfld (s : State) (k : Nat) (f : Fld) : Nat := fget (s.expert k) f

/-- A register's setting in effect where R26 may defer a change of it. -/
def State.inEffect (s : State) (k : Nat) : Word :=
  match s.deferred.find? (fun d => d.key = k) with
  | some d => d.old
  | none => s.reg k

/-- The setting in effect: the expert field where it is other than zero, else the basic value (R24). -/
def orElse (x basic : Nat) : Nat := if x = 0 then basic else x

end Sys2Proof.Machine
end

