-- ==== Sys2Proof/Machine/Flags.lean ====
section
/-! DEFINITION. Alarms, events, traces and Logbook records (R578 to R588): the W1C status bits that raise alarm lines, the log
queues of the dies, and what the Keeper writes. -/
namespace Sys2Proof.Machine

/-! ## Records -/

/-- The index of record n within its incident slot (R586). -/
def recordSlot (n : Nat) : Nat := if n < 64 then n else 64 + (n - 64) % 448

/-- The Keeper writes a record: into the open incident, else into the ambient ring; LOG_SEQ numbers it. After the FINAL
record nothing more is written (R583, R586, R587). -/
def State.logRecord (s : State) (kind part source code watch tick : Nat) (args : List Nat) : State :=
  if s.log.final then s else
  let r : LogRecord := ⟨kind, part, source, code, watch, s.log.boots, tick, (s.reg LOG_SEQ).toNat, args⟩
  let s1 := s.count LOG_SEQ
  if s.flag LOG_STATUS F.LOG_STATUS_OPEN then
    s1.setLog { s.log with incidents := Table.mod s.log.incidents (s.fld LOG_STATUS F.LOG_STATUS_SLOT) (fun i =>
      { i with records := i.records + 1, recs := Table.put i.recs (recordSlot i.records) r }) }
  else
    s1.setLog { s.log with ambient := Table.put s.log.ambient (s.log.ambientHead % 16384) r
                           ambientHead := s.log.ambientHead + 1 }

/-! ## Alarms -/

/-- An occurrence of an alarm line while an incident is open: counted, and recorded the first time (R579). -/
def State.occurrenceIn (s : State) (line : Nat) (image : Nat) : State :=
  let slot := s.fld LOG_STATUS F.LOG_STATUS_SLOT
  let seen := match Table.get? s.log.incidents slot with
    | some i => (Table.get? i.counts line).getD 0
    | none => 0
  let s1 := s.setLog { s.log with incidents := Table.mod s.log.incidents slot (fun i =>
    { i with lastWatch := s.watch, occurrences := min (i.occurrences + 1) (2 ^ 32 - 1)
             counts := Table.put i.counts line (min (seen + 1) (2 ^ 32 - 1)) }) }
  if seen = 0 then s1.logRecord 1 0xFF line line s.watch s.tick [image] else s1

/-- An incident opens with its first alarm line, in the slot after the previous incident's, modulo 900 (R585). -/
def State.openIncident (s : State) (line : Nat) : State :=
  let slot := s.log.nextSlot % 900
  let n := s.log.nextIncident
  let s1 := s.setLog { s.log with
    nextIncident := n + 1
    nextSlot := (slot + 1) % 900
    oldest := if (Table.get? s.log.incidents slot).isSome then (slot + 1) % 900 else s.log.oldest
    incidents := Table.put s.log.incidents slot
      { number := n, boot := s.log.boots, line := line, openWatch := s.watch, lastWatch := s.watch } }
  ((s1.setBit LOG_STATUS F.LOG_STATUS_OPEN).putFld LOG_STATUS F.LOG_STATUS_SLOT slot).putFld LOG_STATUS F.LOG_STATUS_NUMBER n

/-- An alarm occurrence (R579, R585): an incident opens if none is open; overwriting a slot that holds an incident raises
LOG_INCIDENT_LOST, line 126. -/
def State.occurrence (s : State) (line : Nat) (image : Nat) : State :=
  if s.log.final then s
  else if s.flag LOG_STATUS F.LOG_STATUS_OPEN then s.occurrenceIn line image
  else
    let lost := (Table.get? s.log.incidents (s.log.nextSlot % 900)).isSome
    let s1 := (s.openIncident line).occurrenceIn line image
    if lost then
      let s2 := s1.setBit LOG_ALARM F.LOG_ALARM_LOG_INCIDENT_LOST
      s2.occurrenceIn 126 (s2.reg LOG_ALARM).toNat
    else s1

/-- The hardware sets an alarm's source bit: the bit, and an occurrence of its line with the register's image (R579). -/
def State.raise (s : State) (key : Nat) (f : Fld) (line : Nat) : State :=
  let s1 := s.setBit key f
  s1.occurrence line (s1.reg key).toNat

/-! The alarm lines of R578, each with its source bit. -/

/-- WCH_ALARM bits [3:0] raise lines 0 to 3. -/
def State.alarmWch (s : State) (f : Fld) : State := s.raise WCH_ALARM f f.lo
/-- COL_BCN_ALARM of group g raises lines 4 + 2g + i. -/
def State.alarmBeacon (s : State) (g : Nat) (f : Fld) : State := s.raise (COL_BCN_ALARM g) f (4 + 2 * g + f.lo)
/-- TMV_ALARM bits [2:0] raise lines 12 to 14. -/
def State.alarmTmv (s : State) (f : Fld) : State := s.raise TMV_ALARM f (12 + f.lo)
/-- DFT_ALARM bits [5:0] raise lines 15 to 20. -/
def State.alarmDft (s : State) (f : Fld) : State := s.raise DFT_ALARM f (15 + f.lo)
/-- HBMn_ALARM raises lines 21 + 4n + i. -/
def State.alarmHbm (s : State) (n : Nat) (f : Fld) : State := s.raise (HBM_ALARM n) f (21 + 4 * n + f.lo)
/-- COH_ALARM raises lines 85 and 86. -/
def State.alarmCoh (s : State) (f : Fld) : State := s.raise COH_ALARM f (85 + f.lo)
/-- LNKn_ALARM raises lines 87 + 6n + i. -/
def State.alarmLnk (s : State) (n : Nat) (f : Fld) : State := s.raise (LNK_ALARM n) f (87 + 6 * n + f.lo)
/-- PWR_ALARM raises lines 111 to 119. -/
def State.alarmPwr (s : State) (f : Fld) : State := s.raise PWR_ALARM f (111 + f.lo)
/-- CHT_ALARM raises line 120. -/
def State.alarmCht (s : State) (f : Fld) : State := s.raise CHT_ALARM f 120
/-- FTS_ALARM raises lines 122 to 125. -/
def State.alarmFts (s : State) (f : Fld) : State := s.raise FTS_ALARM f (122 + f.lo)

/-- The level of an alarm line: the OR of the bits that feed it (R578). Line 121 is the power-fail warning itself, until its path has ended, and lines
127 to 255 are never raised. -/
def State.lineLevel (s : State) (i : Nat) : Bool :=
  if i < 4 then (s.reg WCH_ALARM).toNat.testBit i
  else if i < 12 then (s.reg (COL_BCN_ALARM ((i - 4) / 2))).toNat.testBit ((i - 4) % 2)
  else if i < 15 then (s.reg TMV_ALARM).toNat.testBit (i - 12)
  else if i < 21 then (s.reg DFT_ALARM).toNat.testBit (i - 15)
  else if i < 85 then (s.reg (HBM_ALARM ((i - 21) / 4))).toNat.testBit ((i - 21) % 4)
  else if i < 87 then (s.reg COH_ALARM).toNat.testBit (i - 85)
  else if i < 111 then (s.reg (LNK_ALARM ((i - 87) / 6))).toNat.testBit ((i - 87) % 6)
  else if i < 120 then (s.reg PWR_ALARM).toNat.testBit (i - 111)
  else if i = 120 then (s.reg CHT_ALARM).toNat.testBit 0
  else if i = 121 then s.log.final && s.boot.powered
  else if i < 126 then (s.reg FTS_ALARM).toNat.testBit (i - 122)
  else if i = 126 then (s.reg LOG_ALARM).toNat.testBit 0
  else false

/-- LOG_LINES word j: the levels of lines 64j to 64j + 63. -/
def State.lineWord (s : State) (j : Nat) : Word :=
  BitVec.ofNat 64 ((List.range 64).foldl (fun v b => if s.lineLevel (64 * j + b) then v + 2 ^ b else v) 0)

/-! ## Events and traces -/

/-- The log queue of a die. -/
def State.logQueue (s : State) (die : Nat) : List LogItem := (Table.get? s.log.queues die).getD []

/-- One event of a source counts as suppressed in its window; the first one's code is kept (R580). -/
def State.suppress (s : State) (source code : Nat) (n : Nat := 1) : State :=
  let w := (Table.get? s.log.windows source).getD {}
  let c := (Table.get? s.log.sources source).getD {}
  (s.count LOG_SUPPRESSED n).setLog { s.log with
    windows := Table.put s.log.windows source
      { w with suppressed := w.suppressed + n, first := if w.suppressed = 0 then code else w.first },
    sources := Table.put s.log.sources source { c with suppressed := min (c.suppressed + n) (2 ^ 32 - 1) } }

/-- A source sends an event into its die's log queue, which holds 1,024 entries; an event refused, or lost to a reset of the queue, counts
as suppressed (R205, R580, R581). -/
def State.event (s : State) (die source part code : Nat) (args : List Nat) : State :=
  let q := s.logQueue die
  if q.length < 1024 ∧ ¬ s.xq.resetting.contains (.log die) then
    s.setLog { s.log with queues := Table.put s.log.queues die (q ++ [.event source part code s.watch s.tick args]) }
  else s.suppress source code

/-- n traces of a die are dropped (R581). -/
def State.dropTrace (s : State) (die : Nat) (n : Nat := 1) : State :=
  (s.count LOG_TRACE_DROPS n).setLog { s.log with drops := Table.put s.log.drops die ((Table.get? s.log.drops die).getD 0 + n) }

/-- An engine emits a trace while LOG_CFG.TRACE_EN is set; it enters its die's queue only below 256 entries (R578, R581). -/
def State.trace (s : State) (engine kind part plan index : Nat) : State :=
  if s.flag LOG_CFG F.LOG_CFG_TRACE_EN then
    let q := s.logQueue (eDie engine)
    if q.length < 256 ∧ ¬ s.xq.resetting.contains (.log (eDie engine)) then
      s.setLog { s.log with
        queues := Table.put s.log.queues (eDie engine) (q ++ [.trace engine kind part plan index s.watch s.tick]) }
    else s.dropTrace (eDie engine)
  else s

/-- The source number of a block (R580). -/
def blockSource (index : Nat) : Nat := 0xF800 + index

/-- The die whose log queue a block's events enter: the block's own die where it has one, else the Keeper die (log entry 9). -/
def blockDie (index : Nat) : Nat :=
  if 6 ≤ index ∧ index < 14 then index - 6
  else if 14 ≤ index ∧ index < 30 then (index - 14) / 2
  else if 33 ≤ index ∧ index < 37 then index - 33 + 10
  else if 39 ≤ index ∧ index < 41 then index - 39 + 14
  else 18

/-- An event whose source is a block, by its block index of R550. -/
def State.blockEvent (s : State) (index part code : Nat) (args : List Nat) : State :=
  s.event (blockDie index) (blockSource index) part code args

/-- The Logbook name of an engine: a matrix engine by its physical engine, kind 0 and index 32 + PHYS (R567, R580). -/
def State.engineSource (s : State) (e : Nat) : Nat :=
  if eKind e = 0 then eId (eDie e) 0 (32 + s.fld (TD_ME_STATUS (eDie e) (eIdx e)) F.TD_ME_STATUS_PHYS) else e

/-- An event whose source is an engine. -/
def State.engineEvent (s : State) (e part code : Nat) (args : List Nat) : State :=
  s.event (eDie e) (s.engineSource e) part code args

/-! ## The Keeper's side -/

/-- The length of the trace ring: 2^LOG2 for LOG2 4 to 20, else none (R592). -/
def State.traceRing (s : State) : Nat :=
  let l := s.fld LOG_TRACE_CTRL F.LOG_TRACE_CTRL_LOG2
  if 4 ≤ l ∧ l ≤ 20 then 2 ^ l else 0

/-- EVENT_LIMIT in effect: 0 acts as 16 (R580). -/
def State.eventLimit (s : State) : Nat := orElse (s.fld LOG_CFG F.LOG_CFG_EVENT_LIMIT) 16

/-- An event reaches the Keeper: written while its source is below its limit in this window, else counted (R580, R583). -/
def State.keepEvent (s : State) (source part code watch tick : Nat) (args : List Nat) : State :=
  let w := (Table.get? s.log.windows source).getD {}
  if w.sent < s.eventLimit then
    let c := (Table.get? s.log.sources source).getD {}
    let s1 := s.logRecord 2 part source code watch tick args
    s1.setLog { s1.log with
      windows := Table.put s1.log.windows source { w with sent := w.sent + 1 },
      sources := Table.put s1.log.sources source
        { c with events := min (c.events + 1) (2 ^ 32 - 1), watch := watch, boot := s.log.boots % 65536 } }
  else s.suppress source code

/-- The 32 bytes of a trace entry (R592). -/
def traceBytes (engine kind part plan index watch tick : Nat) : List Byte :=
  leBytes 8 (watch % 2 ^ 48) ++ leBytes 4 tick ++ leBytes 2 engine ++ leBytes 1 kind ++ leBytes 1 part
    ++ leBytes 4 plan ++ leBytes 4 index ++ leBytes 8 0

/-! ## Writing records out (R583, R584, R586) -/

/-- The 64 bytes of a record (R584). -/
def recordBytes (r : LogRecord) : List Byte :=
  let arg (i : Nat) : Nat := (r.args[i]?).getD 0
  let b := leBytes 1 r.kind ++ leBytes 1 r.part ++ leBytes 2 r.source ++ leBytes 2 r.code ++ leBytes 2 0
    ++ leBytes 6 r.watch ++ leBytes 2 r.boot ++ leBytes 4 r.tick ++ leBytes 4 0 ++ leBytes 8 r.seq
    ++ leBytes 8 (arg 0) ++ leBytes 8 (arg 1) ++ leBytes 8 (arg 2) ++ leBytes 4 (arg 3)
  b ++ leBytes 4 (crc32c b)

/-- The 64 bytes of an incident header (R586). -/
def incidentBytes (i : Incident) : List Byte :=
  let b := leBytes 4 0x4E434449 ++ leBytes 4 i.number ++ leBytes 2 i.boot ++ leBytes 2 i.line ++ leBytes 1 i.close
    ++ leBytes 3 0 ++ leBytes 6 i.openWatch ++ leBytes 2 0 ++ leBytes 6 i.lastWatch ++ leBytes 2 0
    ++ leBytes 8 i.records ++ leBytes 8 (i.records - 512) ++ leBytes 4 i.occurrences ++ leBytes 8 0
  b ++ leBytes 4 (crc32c b)

/-- Sixty-four zero bytes. -/
def zeros64 : List Byte := List.replicate 64 0

/-- The 64 bytes at index n of an incident slot: header, the 256 occurrence counts, and the records from 0x800 (R583). -/
def incidentPart (i : Incident) (n : Nat) : List Byte :=
  if n = 0 then incidentBytes i
  else if n ≤ 16 then ((List.range 16).map (fun j => leBytes 4 ((Table.get? i.counts (16 * (n - 1) + j)).getD 0))).flatten
  else if 32 ≤ n then (match Table.get? i.recs (n - 32) with | some r => recordBytes r | none => zeros64)
  else zeros64

/-- The 64 bytes that LOG_RD_SEL selects (R592); an INDEX beyond its part reads zeros. -/
def State.logBytes (s : State) (area slot index : Nat) : List Byte :=
  if area = 0 then
    if index = 0 then leBytes 4 s.log.boots ++ leBytes 4 s.log.nextIncident ++ leBytes 4 s.log.ambientHead
      ++ leBytes 4 s.log.oldest ++ List.replicate 48 0
    else zeros64
  else if area = 1 then
    if index < 16384 then (match Table.get? s.log.ambient index with | some r => recordBytes r | none => zeros64) else zeros64
  else if area = 2 then
    if index < 544 ∧ slot < 900 then
      (match Table.get? s.log.incidents slot with | some i => incidentPart i index | none => zeros64)
    else zeros64
  else if index < 16384 then
    ((List.range 4).map (fun j =>
      let c := (Table.get? s.log.sources (4 * index + j)).getD {}
      leBytes 4 c.events ++ leBytes 4 c.suppressed ++ leBytes 6 c.watch ++ leBytes 2 c.boot)).flatten
  else zeros64

end Sys2Proof.Machine
end

