-- ==== Sys2Proof/Machine/Wire.lean ====
section
/-! DEFINITION. Messages that leave for other packages (R468 to R471, R475, R476): routes, the queue of messages, requests and
their tags, control messages, and what becomes of an unreachable destination (R308). -/
namespace Sys2Proof.Machine

/-! ## The Chart's link records (R547) -/

/-- The records of a kind. -/
def State.linkRecs (s : State) (kind : Nat) : List LinkRec := s.boot.chart.links.filter (fun r => r.kind = kind)

/-- The route mask of a destination package. -/
def State.routeMask (s : State) (pkg : Nat) : Nat := match (s.linkRecs 2).find? (fun r => r.a = pkg) with | some r => r.b | none => 0

/-- The package that holds a rank of a group (R468). -/
def State.rankPkg (s : State) (g rank : Nat) : Nat :=
  match (s.linkRecs 4).find? (fun r => r.a = g ∧ r.b = rank) with | some r => r.c | none => 0

/-- The lender index of a package, and the package of a lender index (R306). -/
def State.lenderOf (s : State) (pkg : Nat) : Option Nat := ((s.linkRecs 5).find? (fun r => r.a = pkg)).map (·.b)
/-- The package of a lender index. -/
def State.lenderPkg (s : State) (l : Nat) : Nat := match (s.linkRecs 5).find? (fun r => r.b = l) with | some r => r.a | none => 0

/-- This package's number (R468). -/
def State.pkg (s : State) : Nat := s.fld (LNK_PKG 0) F.LNK_PKG_PKG

/-! ## Ports -/

/-- A port by optical engine. -/
def State.port (s : State) (oe : Nat) : Port := (Table.get? s.lnk.ports oe).getD {}

/-- A port changed. -/
def State.putPort (s : State) (oe : Nat) (p : Port) : State := s.setLnk { s.lnk with ports := Table.put s.lnk.ports oe p }

/-- The status register of an optical engine's port. -/
def portStatus (oe : Nat) : Nat := LNK_PORT_STATUS (oe / 8) (oe % 8)

/-- The state of a port: 0 OFF, 1 TRAINING, 2 UP, 3 DOWN, 4 FAILED (R481). -/
def State.portState (s : State) (oe : Nat) : Nat := s.fld (portStatus oe) F.LNK_PORT_STATUS_STATE

/-- Is a port of Morco Link UP? -/
def State.portUp (s : State) (oe : Nat) : Bool := decide (s.portState oe = 2) && !s.flag (portStatus oe) F.LNK_PORT_STATUS_ETH

/-- The ports of a destination's route mask that are UP, in ascending order (R471). -/
def State.upPorts (s : State) (pkg : Nat) : List Nat := (setBits (s.routeMask pkg) 32).filter s.portUp

/-- Is a destination unreachable: no port of its mask UP, or silent since a timeout (R476)? -/
def State.unreachable (s : State) (pkg : Nat) : Bool := (s.upPorts pkg).isEmpty || s.lnk.silent.contains pkg

/-! ## Messages -/

/-- The fields of a message's header (R469). len is the LEN of a message without data of its own: a read request names the bytes
to be read, and carries none (log entry 20). -/
structure MsgHead where
  type : Nat
  gr : Bool
  poison : Bool := false
  space : Nat := 0
  dest : Nat
  src : Nat
  addr : Nat
  tag : Nat
  part : Nat := 0
  hops : Nat := 8
  group : Nat := 0
  epoch : Nat := 0
  len : Nat := 0
  deriving DecidableEq, Repr

/-- Data padded with zero bytes to a multiple of 8. -/
def pad8 (bs : List Byte) : List Byte := bs ++ List.replicate ((8 - bs.length % 8) % 8) 0

/-- The bytes of a message: its header and its data (R469). -/
def messageBytes (h : MsgHead) (data : List Byte) : List Byte :=
  let d := pad8 data
  leBytes 1 h.type ++ leBytes 1 (h.gr.toNat + 2 * h.poison.toNat + 4 * h.space) ++ leBytes 2 (h.dest % 4096)
    ++ leBytes 2 (h.src % 4096) ++ leBytes 2 (if data.isEmpty then h.len else d.length) ++ leBytes 8 h.addr ++ leBytes 4 h.tag ++ leBytes 1 h.part
    ++ leBytes 1 h.hops ++ leBytes 1 h.group ++ leBytes 1 0 ++ leBytes 8 h.epoch ++ d

/-- The channel of a message type (R470); fromMover: a write of a tier mover or an exporter. -/
def channelOf (type : Nat) (fromMover : Bool) : Nat :=
  if type = 0x20 then 2
  else if type = 0x11 ∨ type = 0x12 ∨ type = 0x13 then 1
  else if type = 0x02 ∧ fromMover then 3
  else 0

/-- A message joins those that wait. A COLL or BULK message is given the next UP port of its destination's mask in turn (R471). -/
def State.send (s : State) (chan : Nat) (gr : Bool) (dest : Nat) (bytes : List Byte) : State :=
  let ups := s.upPorts dest
  if chan = 2 ∨ chan = 3 then
    let oe := ups[s.lnk.turn % ups.length]?
    s.setLnk { s.lnk with out := s.lnk.out ++ [⟨chan, gr, dest, oe, bytes⟩], turn := s.lnk.turn + 1 }
  else s.setLnk { s.lnk with out := s.lnk.out ++ [⟨chan, gr, dest, none, bytes⟩] }

/-- A control message waits on a port (R477): CTYPE, and its body of 240 bytes. -/
def State.sendCtrl (s : State) (oe ctype dest group : Nat) (data : List Byte) (hops : Nat := 8) (src : Option Nat := none) : State :=
  let body := leBytes 1 ctype ++ leBytes 1 hops ++ leBytes 2 dest ++ leBytes 2 (src.getD s.pkg) ++ leBytes 1 group
    ++ List.replicate 9 0 ++ data
  let p := s.port oe
  s.putPort oe { p with ctrl := p.ctrl ++ [(ctype, (body ++ List.replicate 240 0).take 240)] }

/-- The link die of a request: that of the lowest UP port of its destination, else LD0 (log entry 19). -/
def State.reqDie (s : State) (dest : Nat) : Nat := match s.upPorts dest with | oe :: _ => oe / 8 | [] => 0

/-- A request of a die of this package to a lender goes out (R306, R469): it waits for its response, and a read quotes an epoch. -/
def State.request (s : State) (src l : Nat) (write : Bool) (pa : Nat) (data : List Byte) (len : Nat) (gr mover bad : Bool) : State :=
  let dest := s.lenderPkg l
  let tag := s.lnk.nextTag % 2 ^ 32
  let off := pa % 0x100000000000
  let lo := off - off % 8
  let n := (off + len + 7) / 8 * 8 - lo
  let body := if write then List.replicate (off - lo) 0 ++ data ++ List.replicate (n - (off - lo) - len) 0 else []
  let h : MsgHead := { type := if write then 2 else 1, gr := gr, poison := bad && write, dest := dest, src := s.pkg, addr := lo
                       tag := tag, epoch := if write then 0 else s.anyNat, len := if write then 0 else n }
  let s1 := s.setLnk { s.lnk with
    reqs := s.lnk.reqs ++ [⟨tag, src, s.reqDie dest, dest, write, pa, len⟩], nextTag := s.lnk.nextTag + 1 }
  (s1.send (channelOf h.type mover) gr dest (messageBytes h body)).tookFree

/-! ## Unreachable destinations -/

/-- A lender becomes unreachable: its capacity in use is LOST (R308). -/
def State.lenderLost (s : State) (l : Nat) : State :=
  if s.fld (TMV_BORROW l) F.TMV_BORROW_STATE = 1 then
    (s.putFld (TMV_BORROW l) F.TMV_BORROW_STATE 2).alarmTmv F.TMV_ALARM_NEIGHBOUR_LOST
  else s

/-- A destination becomes unreachable (R476): LNKn_UNREACH_LAST, the alarm, and the lender it may be. -/
def State.peerLost (s : State) (die pkg cause : Nat) : State :=
  let last := fset (fset (fset 0 F.LNK_UNREACH_LAST_PKG pkg) F.LNK_UNREACH_LAST_CAUSE cause) F.LNK_UNREACH_LAST_VALID 1
  let s1 := (s.putReg (LNK_UNREACH_LAST die) last).alarmLnk die F.LNK_ALARM_LINK_PEER_LOST
  match s.lenderOf pkg with
  | some l => s1.lenderLost l
  | none => s1

end Sys2Proof.Machine
end

