-- ==== Sys2Proof/Machine/Memory.lean ====
section
/-! DEFINITION. The physical address map (R32 to R34), frames (R289), reading memory, poison (R353, R354) and violations
(R18, R19, R33, R48). -/
namespace Sys2Proof.Machine

/-! ## The address map -/

/-- The ranges of R32. A neighbour window carries its lender index, a PCIe window its port. -/
inductive Region where
  | hbm | hdram | flash | neighbour (l : Nat) | pcie (port : Nat) | registers | windows | unmapped
  deriving DecidableEq, Repr

/-- The base of host DRAM. -/
def hdramBase : Nat := 0x100000000000
/-- The base of the deep flash tier aperture. -/
def flashBase : Nat := 0x1000000000000
/-- The base of the neighbour tier aperture; lender windows are 16 TiB each (R306). -/
def neighbourBase : Nat := 0x2000000000000
/-- The size of a lender window. -/
def lenderSize : Nat := 0x100000000000
/-- The base of the PCIe windows, 32 TiB each (R406). -/
def pcieBase : Nat := 0xE000000000000
/-- The base of the register space (R6). -/
def regBase : Nat := 0xFF00000000000
/-- The base of the partition alias windows (R44). -/
def aliasBase : Nat := 0xFF10000000000
/-- The bytes of HBM. -/
def hbmBytes : Nat := 0x18000000000

/-- The populated bytes of host DRAM (R390): 16 channels, none unless in service. -/
def State.hdramBytes (s : State) : Nat :=
  if s.fld HST_DRAM_STATUS F.HST_DRAM_STATUS_STATE = 2 then s.fld HST_DRAM_STATUS F.HST_DRAM_STATUS_GIB * 16 * 2 ^ 30 else 0

/-- The licensed bytes of user flash in effect. -/
def State.flashBytes (s : State) : Nat := s.fld DFT_STATUS F.DFT_STATUS_USER_TIB * 2 ^ 40

/-- The bytes lender l lends. -/
def State.borrowBytes (s : State) (l : Nat) : Nat :=
  if s.fld (TMV_BORROW l) F.TMV_BORROW_STATE = 0 then 0 else s.fld (TMV_BORROW l) F.TMV_BORROW_SIZE * 2 ^ 30

/-- Is the address in memory that this package lends (R307)? -/
def State.isLent (s : State) (pa : Nat) : Bool :=
  s.tiers.lent.any (fun r => decide (r.2.1 ≤ pa) && decide (pa < r.2.1 + r.2.2))

/-- The region of R32 an address lies in, counting only the populated or licensed part. Lent frames count as memory here. -/
def State.regionRaw (s : State) (pa : Nat) : Region :=
  if pa < hbmBytes then .hbm
  else if hdramBase ≤ pa ∧ pa < hdramBase + s.hdramBytes then .hdram
  else if flashBase ≤ pa ∧ pa < flashBase + s.flashBytes then .flash
  else if neighbourBase ≤ pa ∧ pa < neighbourBase + 32 * lenderSize then
    let l := (pa - neighbourBase) / lenderSize
    if (pa - neighbourBase) % lenderSize < s.borrowBytes l then .neighbour l else .unmapped
  else if pcieBase ≤ pa ∧ pa < 0xF000000000000 then .pcie ((pa - pcieBase) / 0x200000000000)
  else if regBase ≤ pa ∧ pa < regBase + 0x10000000 then .registers
  else if aliasBase ≤ pa ∧ pa < aliasBase + 0x20000000 then .windows
  else .unmapped

/-- The region of an address for this package's own agents: lent frames are unmapped (R307). -/
def State.region (s : State) (pa : Nat) : Region :=
  match s.regionRaw pa with
  | .hbm => if s.isLent pa then .unmapped else .hbm
  | .hdram => if s.isLent pa then .unmapped else .hdram
  | r => r

/-- The tier of a region (R284), 0 for none. -/
def Region.tier : Region → Nat
  | .hbm => 1 | .hdram => 2 | .flash => 3 | .neighbour _ => 4 | _ => 0

/-- The first address and the bytes of a tier's capacity in effect; T4 spans the lender windows. -/
def State.tierRanges (s : State) (t : Nat) : List (Nat × Nat) :=
  if t = 1 then [(0, hbmBytes)]
  else if t = 2 then [(hdramBase, s.hdramBytes)]
  else if t = 3 then [(flashBase, s.flashBytes)]
  else if t = 4 then (List.range 32).filterMap (fun l =>
    if s.fld (TMV_BORROW l) F.TMV_BORROW_STATE = 1 then some (neighbourBase + l * lenderSize, s.borrowBytes l) else none)
  else []

/-- The HBM stack of an address (R34): the XOR of the nibbles of the page number. -/
def hbmStack (pa : Nat) : Nat :=
  let n := bits pa 40 12
  (List.range 8).foldl (fun x i => x ^^^ bits n (4 * i + 3) (4 * i)) 0

/-- The byte offset of an address within its stack (R34). -/
def hbmOffset (pa : Nat) : Nat := (bits pa 40 12 >>> 4) * 4096 + pa % 4096

/-- The physical address of a stack's offset: the page of the block of sixteen whose hash is the stack (R34). -/
def hbmAddress (stack off : Nat) : Nat :=
  let hi := off / 4096
  let x := (List.range 7).foldl (fun v i => v ^^^ bits hi (4 * i + 3) (4 * i)) 0
  (hi * 16 + (x ^^^ stack)) * 4096 + off % 4096

/-- The host DRAM channel of an address (R391). -/
def hdramChannel (pa : Nat) : Nat :=
  let n := bits (pa - hdramBase) 41 12
  (List.range 8).foldl (fun x i => x ^^^ bits n (min (4 * i + 3) 29) (4 * i)) 0

/-- The home agent's host die of a line (R394). -/
def State.home (s : State) (pa : Nat) : Nat :=
  if s.region pa = .hdram then hdramChannel pa / 8
  else (List.range 8).foldl (fun x i => x ^^^ bits pa (12 + i) (12 + i)) 0

/-! ## Violations -/

/-- The counter of a violation kind (R47). -/
def violCounter : Nat → Nat
  | 0 => KPR_VIOL_SIZE | 1 => KPR_VIOL_ALIGN | 2 => KPR_VIOL_UNMAPPED | 3 => KPR_VIOL_EXPERT
  | 4 => KPR_VIOL_ALIAS | 5 => KPR_VIOL_WINDOW | _ => KPR_VIOL_PHYS

/-- The die number of a requester outside the package: a PCIe peer, a remote package, a remote controller (R28). -/
def outsideDie : Nat := 31

/-- One violation (R48): the total, its kind's counter, the requester's partition's own counter, and KPR_VIOL_LAST. -/
def State.violation (s : State) (kind off : Nat) (part : Option Nat) (viaAlias write : Bool) (die : Nat) : State :=
  let last := fset (fset (fset (fset (fset (fset (fset 0 F.KPR_VIOL_LAST_OFFSET off) F.KPR_VIOL_LAST_PARTITION (part.getD 0))
    F.KPR_VIOL_LAST_VIA_ALIAS viaAlias.toNat) F.KPR_VIOL_LAST_WRITE write.toNat) F.KPR_VIOL_LAST_KIND kind)
    F.KPR_VIOL_LAST_SOURCE_DIE die) F.KPR_VIOL_LAST_VALID 1
  let s1 := ((s.count KPR_VIOLATIONS).count (violCounter kind)).putReg KPR_VIOL_LAST last
  match part with
  | some p => s1.count (KPR_PART_VIOLATIONS p)
  | none => s1

/-! ## Frames -/

/-- The size of a frame. -/
def Frame.size (f : Frame) : Nat := if f.big then 0x200000 else 0x10000

/-- The frame that holds an address, with its base (R289). -/
def State.frameAt (s : State) (pa : Nat) : Option (Nat × Frame) :=
  match Table.get? s.tiers.frames (pa - pa % 0x10000) with
  | some f => some (pa - pa % 0x10000, f)
  | none => match Table.get? s.tiers.frames (pa - pa % 0x200000) with
    | some f => if f.big then some (pa - pa % 0x200000, f) else none
    | none => none

/-- The owner of the frame at an address. -/
def State.frameOwner (s : State) (pa : Nat) : Option Nat :=
  match s.frameAt pa with
  | some (_, f) => if f.zeroing then none else some f.part
  | none => none

/-- Does a byte range lie within PINNED T1 frames of a partition? -/
def State.pinnedT1 (s : State) (p pa n : Nat) : Bool :=
  (List.range (n / 0x10000 + 2)).all (fun i =>
    let a := if i = 0 then pa else pa - pa % 0x10000 + i * 0x10000
    if a < pa + n then
      decide (s.regionRaw a = .hbm) &&
      (match s.frameAt a with
        | some (_, f) => decide (f.part = p) && !f.movable && !f.zeroing
        | none => false)
    else true)

/-- Is any frame that the range touches in transit (R296)? -/
def State.inTransit (s : State) (pa n : Nat) : Bool :=
  s.tiers.frames.any (fun e => e.2.transit && decide (e.1 < pa + n) && decide (pa < e.1 + e.2.size))

/-- A partition's use of a tier in 64 KiB units, in which a 2 MiB frame counts 32 (R309, R313). -/
def State.use (s : State) (p t : Nat) : Nat :=
  s.tiers.frames.foldl (fun n e =>
    if e.2.part = p ∧ ¬ e.2.zeroing ∧ (s.regionRaw e.1).tier = t then n + (if e.2.big then 32 else 1) else n) 0

/-- A partition's quota of a tier in 64 KiB units; none for no limit. -/
def State.quota (s : State) (p t : Nat) : Option Nat :=
  let q := s.fld (TMV_QUOTA p (t - 1)) F.TMV_QUOTA_GIB
  if q = 0xFFFFFFFF then none else some (q * 16384)

/-- Does the partition stand over its quota of a tier? -/
def State.overQuota (s : State) (p t : Nat) : Bool :=
  match s.quota p t with | some q => decide (q < s.use p t) | none => false

/-- Has the partition spent its flash write budget (R312)? -/
def State.budgetSpent (s : State) (p : Nat) : Bool :=
  let q := s.fld (TMV_FW_QUOTA p) F.TMV_FW_QUOTA_GIB
  decide (q ≠ 0xFFFFFFFF) && decide (q * 2 ^ 30 ≤ (s.reg (TMV_FW_USED p)).toNat)

/-- The level bits of TMV_PART_STATUS in force: QUOTA_OVER and FW_REFUSED follow use, quota and budget; DEMOTE_BLOCKED clears
with the last over-quota tier (R310 to R312). -/
def State.tierLevels (s : State) (p : Nat) : State :=
  let above := (List.range 4).foldl (fun v t => if s.overQuota p (t + 1) then v + 2 ^ t else v) 0
  let s1 := (s.putFld (TMV_PART_STATUS p) F.TMV_PART_STATUS_QUOTA_OVER above).putFld (TMV_PART_STATUS p)
    F.TMV_PART_STATUS_FW_REFUSED (s.budgetSpent p).toNat
  if above = 0 then s1.clrBit (TMV_PART_STATUS p) F.TMV_PART_STATUS_DEMOTE_BLOCKED else s1

/-! ## Reading memory -/

/-- The pieces of a byte range that lie in one unit of u bytes each: (address, length). The first argument bounds their
number. -/
def piecesOf (u : Nat) : Nat → Nat → Nat → List (Nat × Nat)
  | 0, _, _ => []
  | k + 1, a, n =>
    if n = 0 then []
    else
      let m := min n (u - a % u)
      (a, m) :: piecesOf u k (a + m) (n - m)

/-- The pieces of a byte range by 64-byte line (R33 judges each line on its own). -/
def linePieces (a n : Nat) : List (Nat × Nat) := piecesOf 64 (n / 64 + 2) a n

/-- Is the address in the stored memory of the package (HBM, host DRAM, flash, neighbour aperture)? -/
def Region.isMemory : Region → Bool
  | .hbm | .hdram | .flash | .neighbour _ => true
  | _ => false

/-- The coherent data of one byte: the owner's copy where it differs from memory, else memory (R396). -/
def State.byteAt (s : State) (pa : Nat) : Byte :=
  match Table.get? s.coh (pa - pa % 64) with
  | some l => (match l.data with
    | some d => (d[pa % 64]?).getD 0
    | none => Sparse.get s.mem pa)
  | none => Sparse.get s.mem pa

/-- Is the byte poisoned: its granule (listed by address) or its whole line (listed as address + 1, for a host DRAM line or
the line of a coherence timeout, which only a write of all 64 bytes replaces: R392, R398)? A lost lender's memory reads
poisoned (R308), and so does a flash sector whose stripe lost two members, until it is written (R342). -/
def State.isPoisoned (s : State) (pa : Nat) : Bool :=
  s.poison.contains (pa - pa % 32) || s.poison.contains (pa - pa % 64 + 1) ||
  (match s.regionRaw pa with
    | .neighbour l => decide (s.fld (TMV_BORROW l) F.TMV_BORROW_STATE = 2)
    | .flash => (match s.flash.double with
      | some k => Config.freeBool (k + (pa - flashBase) / 4096) && !s.flash.clean.any (fun r => decide (r.1 ≤ pa) && decide (pa < r.1 + r.2))
      | none => false)
    | _ => false)

/-- Bytes read, and whether any of them is poisoned: unmapped lines read zero (R33); what a device behind a PCIe window answers an
engine is free (R406, log entry 31). -/
def State.rdMem (s : State) (pa n : Nat) : List Byte × Bool :=
  (linePieces pa n).foldl (fun acc p =>
    if (s.region p.1).isMemory then
      (acc.1 ++ (List.range p.2).map (fun i => s.byteAt (p.1 + i)),
       acc.2 || (piecesOf 32 3 p.1 p.2).any (fun q => s.isPoisoned q.1))
    else match s.region p.1 with
      | .pcie _ => (acc.1 ++ (List.range p.2).map (fun i => Config.freeByte (s.free + p.1 + i)), acc.2)
      | _ => (acc.1 ++ List.replicate p.2 0, acc.2)) ([], false)

/-- The bytes of a memory word by its physical address, as a little-endian number. -/
def State.rdNat (s : State) (pa n : Nat) : Nat := leNat (s.rdMem pa n).1

/-- Does any line of the range lie at an unmapped address? -/
def State.touchesUnmapped (s : State) (pa n : Nat) : Bool := (linePieces pa n).any (fun p => s.region p.1 = .unmapped)

/-- The frame's last-touched stamp follows an access, at the resolution of AGE_SHIFT (R311). -/
def State.touch (s : State) (pa : Nat) : State :=
  let sh := orElse (s.xfld TMV_X_TUNE F.TMV_X_TUNE_AGE_SHIFT) 10
  match s.frameAt pa with
  | some (b, f) => s.setTiers { s.tiers with frames := Table.put s.tiers.frames b { f with stamp := s.watch / 2 ^ sh * 2 ^ sh } }
  | none => s

/-- One piece of a read is counted: HBM bytes by stack, a narrow access as 32 bytes (R346, R350), flash host reads. -/
def State.countRead (s : State) (die pa n : Nat) : State :=
  match s.region pa with
  | .hbm =>
    let k := hbmStack pa
    if n ≤ 32 ∧ pa % 32 + n ≤ 32 then (s.count (HBM_RD_BYTES k) 32).count (HBM_NARROW k) else s.count (HBM_RD_BYTES k) n
  | .flash =>
    let b := Config.eraseBlock s.flash.moves ((pa - flashBase) / 4096)
    (s.setFlash { s.flash with reads := Table.put s.flash.reads b ((Table.get? s.flash.reads b).getD 0 + 1) }).count DFT_HOST_RD n
  | .neighbour l => if s.fld (TMV_BORROW l) F.TMV_BORROW_STATE = 2 then s else s.request die l false pa [] n false false false
  | _ => s

/-- What a read of a range changes besides what it returns: counters, stamps, and one violation when a line is unmapped. -/
def State.noteRead (s : State) (pa n : Nat) (part : Option Nat) (die : Nat) : State :=
  let s1 := (piecesOf 4096 (n / 4096 + 2) pa n).foldl (fun s p => (s.countRead die p.1 p.2).touch p.1) s
  if s.touchesUnmapped pa n then s1.violation 7 (pa % 2 ^ 29) part false false die else s1

end Sys2Proof.Machine
end

