-- ==== Sys2Proof/Machine/Translate.lean ====
section
/-! DEFINITION. The Compass: the walk of R364 to R367, its checks (R370, R371), the side of a sided leaf (R368), the TLBs (R369,
R374), and translation of an engine's accesses. -/
namespace Sys2Proof.Machine

/-- A translation found by a walk: page size, both physical sides, side kind (0 plain, 1 flip set, 2 route) and set, rights,
whether its frames are PINNED (a PCIe window passes: R406), and where the leaf lies. -/
structure Leaf where
  size : Nat
  pa0 : Nat
  pa1 : Nat
  sided : Nat
  set : Nat
  r : Bool
  w : Bool
  a : Bool
  pinned : Bool
  entry : Nat
  twin : Nat
  deriving DecidableEq, Repr

/-- What stops an access: a translation fault (R373) with its address, kind, level and access; poisoned data (R399); or an
access that waits (for a frame in transit, R296, or for room in the flash write cache, R327, R339). -/
inductive Trap where
  | fault (va kind level acc : Nat)
  | poison (pa : Nat)
  | wait
  deriving DecidableEq, Repr

/-- A lent or sequencer access writes staging; an exporter reads the sides it recorded (R368); a copy carries poison instead of
consuming it (R399). -/
structure Access where
  engine : Nat
  part : Nat
  guaranteed : Bool
  acc : Nat
  staging : Bool := false
  sides : List (Nat × Nat) := []
  carry : Bool := false
  deriving DecidableEq, Repr

/-- The page size of a leaf at a level, by whether its table was reached by TABLE64 (R364); none where no leaf is allowed. -/
def leafSize (level : Nat) (small : Bool) (type : Nat) : Option Nat :=
  if level = 2 ∧ type = 2 then some 0x40000000
  else if level = 1 ∧ type = 2 then some 0x200000
  else if level = 0 ∧ type = 3 then some (if small then 0x10000 else 0x1000)
  else none

/-- The index into a table at a level (R364). -/
def tableIndex (level : Nat) (small : Bool) (va : Nat) : Nat :=
  if level = 0 ∧ small then bits va 20 16 else bits va (12 + 9 * level + 8) (12 + 9 * level)

/-- The bytes of a table (R364). -/
def tableSize (level : Nat) (small : Bool) : Nat := if level = 0 ∧ small then 256 else 4096

/-- A TABLE or TABLE64 entry sets no bit but V, TYPE, TWIN and PA (R365). -/
def tableEntryOk (e : Nat) : Bool := decide (bits e 11 4 = 0) && decide (bits e 63 52 = 0)

/-- A leaf entry's format (R365, R367): no reserved bit, SIDED below 3, SET in range for its SIDED. -/
def leafEntryOk (e : Nat) : Bool :=
  decide (bits e 3 3 = 0) && decide (bits e 11 9 = 0) && decide (bits e 55 52 = 0) &&
  (match bits e 8 7 with
    | 0 => decide (bits e 63 56 = 0)
    | 1 => decide (bits e 63 56 < 64)
    | 2 => true
    | _ => false)

/-- A twin holds only PA (R367). -/
def twinOk (t : Nat) : Bool := decide (bits t 11 0 = 0) && decide (bits t 63 52 = 0)

/-- The frames that overlap a range. -/
def State.framesIn (s : State) (pa n : Nat) : List (Nat × Frame) :=
  s.tiers.frames.filter (fun e => decide (e.1 < pa + n) && decide (pa < e.1 + e.2.size))

/-- Does the page lie wholly within frames of one allocation run of the partition (R370)? -/
def State.oneRun (s : State) (p pa n : Nat) : Bool :=
  let fs := s.framesIn pa n
  let covered := fs.foldl (fun t e => t + (min (e.1 + e.2.size) (pa + n) - max e.1 pa)) 0
  decide (covered = n) && fs.all (fun e => decide (e.2.part = p) && !e.2.zeroing &&
    decide (some e.2.run = (fs.head?).map (·.2.run)))

/-- Does the page lie wholly within one PCIe window (R406)? -/
def State.inWindow (s : State) (pa n : Nat) : Bool :=
  match s.region pa, s.region (pa + n - 1) with
  | .pcie p, .pcie q => decide (p = q)
  | _, _ => false

/-- The frame check of R370 for a page. -/
def State.pageOk (s : State) (p pa n : Nat) : Bool := s.inWindow pa n || s.oneRun p pa n

/-- Is the page in PINNED frames, or in a PCIe window? -/
def State.pagePinned (s : State) (pa n : Nat) : Bool := s.inWindow pa n || (s.framesIn pa n).all (fun e => !e.2.movable)

/-- One level of a walk and those below it. Errors are (fault kind, level), kinds of R373. -/
def State.walkAt (s : State) (p va : Nat) : Nat → Nat → Bool → Bool → Except (Nat × Nat) Leaf
  | level, tbl, twins, small =>
    let size := tableSize level small
    if ¬ s.pinnedT1 p tbl (if twins then 2 * size else size) then .error (4, level)
    else
      let at0 := tbl + 8 * tableIndex level small va
      let (b0, bad0) := s.rdMem at0 8
      let (b1, bad1) := if twins then s.rdMem (at0 + size) 8 else ([], false)
      let e := leNat b0
      let t := leNat b1
      if bad0 || bad1 then .error (4, level)
      else if ¬ e.testBit 0 then .error (2, level)
      else if bits e 2 1 ≤ 1 then
        if level = 0 ∨ (bits e 2 1 = 1 ∧ level ≠ 1) ∨ ¬ tableEntryOk e ∨ ¬ twinOk t then .error (3, level)
        else match level with
          | 0 => .error (3, 0)
          | l + 1 => s.walkAt p va l (bits e 51 12 * 4096) (e.testBit 3) (bits e 2 1 = 1)
      else match leafSize level small (bits e 2 1) with
        | none => .error (3, level)
        | some n =>
          let pa0 := bits e 51 12 * 4096
          let pa1 := bits t 51 12 * 4096
          let sided := bits e 8 7
          if ¬ leafEntryOk e ∨ ¬ twinOk t ∨ pa0 % n ≠ 0 ∨ (sided ≠ 0 ∧ (¬ twins ∨ pa1 % n ≠ 0)) then .error (3, level)
          else if ¬ s.pageOk p pa0 n ∨ (sided ≠ 0 ∧ ¬ s.pageOk p pa1 n) then .error (5, 0xFF)
          else if (sided = 1 ∧ ¬ s.ownsSet p (bits e 63 56)) ∨ (sided = 2 ∧ ¬ s.ownsRoute p (bits e 63 56)) then .error (6, 0xFF)
          else .ok ⟨n, pa0, pa1, sided, bits e 63 56, e.testBit 4, e.testBit 5, e.testBit 6,
            s.pagePinned pa0 n && (decide (sided = 0) || s.pagePinned pa1 n), at0, if twins then at0 + size else 0⟩
termination_by structural level => level

/-- A walk through a partition's Compass tables (R364, R373). -/
def State.walk (s : State) (p va : Nat) : Except (Nat × Nat) Leaf :=
  if ¬ s.flag (MMU_ROOT p) F.MMU_ROOT_EN then .error (1, 4)
  else s.walkAt p va 4 (s.addr (MMU_ROOT p) F.MMU_ROOT_ROOT_LO F.MMU_ROOT_ROOT_HI) false false

/-- The live side of a flip set (R368). -/
def State.liveSide (s : State) (x : Nat) : Nat := ((s.reg COL_FLIP_SEL).toNat.testBit x).toNat

/-- The side a route selects (R368). -/
def State.routeSide (s : State) (r : Nat) : Nat := ((s.reg (TMV_ROUTE_SEL (r / 64))).toNat.testBit (r % 64)).toNat

/-- The side an access through a sided leaf uses: the first row of R368 that applies. -/
def State.side (s : State) (a : Access) (sided x : Nat) : Nat :=
  if sided = 0 then 0
  else if sided = 2 then s.routeSide x
  else match (if a.acc = 0 then a.sides.find? (fun h => h.1 = x) else none) with
    | some h => h.2
    | none =>
      if (a.acc = 1 ∨ a.acc = 2) ∧ (a.staging ∨ (s.reg (MMU_FLIP_STAGE a.part)).toNat.testBit x) then 1 - s.liveSide x
      else s.liveSide x

/-- The die whose walkers and TLB serve an engine (R380). -/
def walkDie (e : Nat) : Nat :=
  let d := eDie e
  if d < 8 then d else if 10 ≤ d ∧ d < 14 then 2 * (d - 10) else if d = 14 then 1 else 5

/-- The TLB entry that covers an address. An entry that a running invalidation is removing may or may not still be there
(R383): a free bit decides. -/
def State.tlbHit (s : State) (die p va : Nat) : Option TlbEntry :=
  s.mmu.tlb.find? (fun t => decide (t.die = die) && decide (t.part = p) && decide (t.va ≤ va) && decide (va < t.va + t.size)
    && (!t.old || s.anyBool))

/-- The translation an access finds: the TLB's, else a walk's. -/
def State.translation (s : State) (die p va : Nat) : Except (Nat × Nat) Leaf :=
  match s.tlbHit die p va with
  | some t => .ok ⟨t.size, t.pa0, t.pa1, t.sided, t.set, t.r, t.w, t.a, t.pinned, 0, 0⟩
  | none => s.walk p va

/-- Translate one access within a page of 4 KiB or more: rights and pinning are checked at every access (R371). -/
def State.translate (s : State) (a : Access) (va : Nat) : Except Trap Nat :=
  match s.translation (walkDie a.engine) a.part va with
  | .error (k, l) => .error (.fault va k l a.acc)
  | .ok f =>
    let granted := if a.acc = 1 then f.w else if a.acc = 2 then f.a else f.r
    if ¬ granted then .error (.fault va 7 0xFF a.acc)
    else if a.guaranteed ∧ ¬ f.pinned then .error (.fault va 8 0xFF a.acc)
    else .ok ((if s.side a f.sided f.set = 0 then f.pa0 else f.pa1) + va % f.size)

/-- The engine's own pending stores laid over bytes read at a physical address (R156). -/
def overlay (pend : List (Nat × Byte)) (pa : Nat) (bs : List Byte) : List Byte :=
  if pend.isEmpty then bs
  else (List.range bs.length).map (fun i => (Table.get? pend (pa + i)).getD ((bs[i]?).getD 0))

/-- The pending stores of an engine's run. -/
def State.pendOf (s : State) (e : Nat) : List (Nat × Byte) :=
  match Table.get? s.eng.runs e with | some r => r.pend | none => []

/-- The addresses of an engine's pending stores that hold poisoned data. -/
def State.badOf (s : State) (e : Nat) : List Nat := match Table.get? s.eng.runs e with | some r => r.bad | none => []

/-- Read one piece that lies within a 4 KiB page. -/
def State.readPiece (s : State) (a : Access) (pend : List (Nat × Byte)) (va n : Nat) : Except Trap (List Byte × State) :=
  match s.translate a va with
  | .error t => .error t
  | .ok pa =>
    if s.inTransit pa n then .error .wait
    else
      let (bs, bad) := s.rdMem pa n
      if ¬ a.carry ∧ ((bad ∧ ¬ (List.range n).all (fun i => (Table.get? pend (pa + i)).isSome))
        ∨ (s.badOf a.engine).any (fun x => decide (pa ≤ x) && decide (x < pa + n))) then .error (.poison pa)
      else .ok (overlay pend pa bs, s.noteRead pa n (some a.part) (eDie a.engine))

/-- Read the pieces of a range in order. -/
def State.readPieces (s : State) (a : Access) (pend : List (Nat × Byte)) : List (Nat × Nat) → Except Trap (List Byte × State)
  | [] => .ok ([], s)
  | (va, n) :: rest =>
    match s.readPiece a pend va n with
    | .error t => .error t
    | .ok (bs, s1) =>
      match s1.readPieces a pend rest with
      | .error t => .error t
      | .ok (cs, s2) => .ok (bs ++ cs, s2)

/-- The pieces of a virtual range by 4 KiB page. -/
def pagePieces (va n : Nat) : List (Nat × Nat) := piecesOf 4096 (n / 4096 + 2) va n

/-- An engine reads a virtual range. -/
def State.vRead (s : State) (a : Access) (va n : Nat) : Except Trap (List Byte × State) :=
  s.readPieces a (s.pendOf a.engine) (pagePieces va n)

/-- The physical pieces of a virtual range for a write: (physical address, length). -/
def State.vPieces (s : State) (a : Access) : List (Nat × Nat) → Except Trap (List (Nat × Nat))
  | [] => .ok []
  | (va, n) :: rest =>
    match s.translate a va with
    | .error t => .error t
    | .ok pa =>
      if s.inTransit pa n then .error .wait
      else match s.vPieces a rest with
        | .error t => .error t
        | .ok l => .ok ((pa, n) :: l)

/-- Bytes put into a list of pending stores at a physical address. -/
def pendBytes (pend : List (Nat × Byte)) (pa : Nat) : List Byte → List (Nat × Byte)
  | [] => pend
  | b :: bs => pendBytes (Table.put pend pa b) (pa + 1) bs

/-- The side of a flip set that a physical address backs, found through the leaf at its frame's recorded address (R277,
R292): (set, side). -/
def State.backs (s : State) (pa : Nat) : Option (Nat × Nat) :=
  match s.frameAt pa with
  | none => none
  | some (b, f) =>
    match s.walk f.part (f.va + (pa - b)) with
    | .error _ => none
    | .ok l =>
      if l.sided = 1 then
        if l.pa0 ≤ pa ∧ pa < l.pa0 + l.size then some (l.set, 0)
        else if l.pa1 ≤ pa ∧ pa < l.pa1 + l.size then some (l.set, 1)
        else none
      else none

end Sys2Proof.Machine
end

