-- ==== Sys2Proof/Machine/Store.lean ====
section
/-! DEFINITION. Writing memory: poison (R354), the snoop filter's part of a write (R396), writes into flash and the wear governor
(R312, R324, R336 to R339, R342), torn streams (R277), outbound writes (R406), and an engine's pending stores. -/
namespace Sys2Proof.Machine

/-- Bytes stored from an address on. -/
def putBytes (m : List Host.Cell) (a : Nat) : List Byte → List Host.Cell
  | [] => m
  | b :: bs => putBytes (Sparse.set m a b) (a + 1) bs

/-- Bytes of a sparse store from an address on. -/
def getBytes (m : List Host.Cell) (a n : Nat) : List Byte := (List.range n).map (fun i => Sparse.get m (a + i))

/-- A number entered into an ascending list without repeats. -/
def enter (x : Nat) : List Nat → List Nat
  | [] => [x]
  | y :: ys => if x = y then y :: ys else if x < y then x :: y :: ys else y :: enter x ys

/-! ## Poison -/

/-- The 32-byte granules a piece touches. -/
def granules (pa n : Nat) : List (Nat × Nat) := piecesOf 32 (n / 32 + 2) pa n

/-- Poison after a write of a piece within one line: poisoned data poisons every granule it touches (a whole host DRAM line);
clean data lifts the poison of the granules it covers wholly, and of the line when it covers all 64 bytes (R353, R354). -/
def State.poisonWrite (s : State) (pa n : Nat) (bad : Bool) : State :=
  let line := pa - pa % 64
  if bad then
    if s.regionRaw pa = .hdram then s.setPoison (enter (line + 1) s.poison)
    else s.setPoison ((granules pa n).foldl (fun l g => enter (g.1 - g.1 % 32) l) s.poison)
  else
    let l1 := if n = 64 then s.poison.filter (· ≠ line + 1) else s.poison
    let s := if s.flash.double.isSome ∧ s.region pa = .flash then s.setFlash { s.flash with
      clean := (granules pa n).foldl (fun l g => if g.2 = 32 ∧ ¬ l.contains g then g :: l else l) s.flash.clean } else s
    s.setPoison ((granules pa n).foldl (fun l g => if g.2 = 32 then l.filter (· ≠ g.1) else l) l1)

/-! ## The snoop filter -/

/-- The home performs a write of its own: an owner's data is merged into memory, every holder is invalidated and the line is
left UNCACHED (R396). Forwards already sent keep their place. -/
def State.uncache (s : State) (line : Nat) : State :=
  match Table.get? s.coh line with
  | none => s
  | some l =>
    let s1 := match l.data with
      | some d => s.setMem (putBytes s.mem line ((List.range 64).map (fun i => (d[i]?).getD 0)))
      | none => s
    if l.forwards.isEmpty ∧ l.silent.isEmpty then s1.setCoh (Table.del s1.coh line)
    else s1.setCoh (Table.put s1.coh line { forwards := l.forwards, silent := l.silent })

/-! ## Streams -/

/-- A stream of one of the four exporters becomes torn (R277). -/
def State.tear (s : State) (n : Nat) : State :=
  match Table.get? s.exp n with
  | none => s
  | some st =>
    if st.torn ∨ 4 ≤ n then s
    else
      let s1 := s.setExp (Table.put s.exp n { st with torn := true })
      let s2 := (s1.setBit (UPD_EXP_STATUS n) F.UPD_EXP_STATUS_TORN).count (UPD_EXP_TORN n)
      if s2.flag UPD_CFG F.UPD_CFG_TORN_EVENT then s2.engineEvent (eId (10 + n) 7 0) st.part 0x900 [st.snapId, st.step] else s2

/-- A write to an address tears every open stream that holds the side it backs (R277). -/
def State.tearHeld (s : State) (pa : Nat) : State :=
  if s.exp.all (fun e => e.2.sides.isEmpty) then s
  else match s.backs pa with
    | none => s
    | some x => s.exp.foldl (fun s e => if e.2.sides.contains x then s.tear e.1 else s) s

/-! ## Flash -/

/-- CREDIT_MAX in bytes (R338, R343): 30 PB, or the expert cap up to 300 PB. -/
def State.creditMax (s : State) : Nat :=
  let c := s.xfld DFT_X_TUNE F.DFT_X_TUNE_CREDIT_MAX_PB
  (if c = 0 then 30 else min c 300) * 10 ^ 15

/-- The governor's credit set: never above CREDIT_MAX or the remaining host budget of 300 PB; DFT_CREDIT shows it in GB
(R338, R343). -/
def State.setCredit (s : State) (c : Int) : State :=
  let c1 := min c (min (s.creditMax : Int) (3 * 10 ^ 17 - ((s.reg DFT_HOST_WR).toNat : Int)))
  (s.setFlash { s.flash with credit := c1 }).putFld DFT_CREDIT F.DFT_CREDIT_CREDIT_GB (unsigned 32 (c1 / 10 ^ 9))

/-- The governor's states (R337, R339): life used, WORN at 1,000 thousandths, PACED at a credit of zero or below, OPEN again
at one per cent of CREDIT_MAX. -/
def State.govern (s : State) : State :=
  let used := min ((s.reg DFT_NAND_WR).toNat * 1000 / (36 * 10 ^ 16)) 2047
  let before := s.fld DFT_LIFE F.DFT_LIFE_USED
  let s1 := s.putFld DFT_LIFE F.DFT_LIFE_USED used
  let s2 := if before < 900 ∧ 900 ≤ used then s1.alarmDft F.DFT_ALARM_FLASH_LIFE_LOW else s1
  let gov := s.fld DFT_STATUS F.DFT_STATUS_GOV
  if gov ≠ 2 ∧ 1000 ≤ used then (s2.putFld DFT_STATUS F.DFT_STATUS_GOV 2).alarmDft F.DFT_ALARM_FLASH_WORN
  else if gov = 0 ∧ s2.flash.credit ≤ 0 then (s2.putFld DFT_STATUS F.DFT_STATUS_GOV 1).alarmDft F.DFT_ALARM_FLASH_PACED
  else if gov = 1 ∧ (s2.creditMax / 100 : Int) ≤ s2.flash.credit then s2.putFld DFT_STATUS F.DFT_STATUS_GOV 0
  else s2

/-- The cache occupancy shown in DFT_STATUS. -/
def State.showCache (s : State) : State :=
  s.putFld DFT_STATUS F.DFT_STATUS_CACHE_MIB (min (ceilDiv s.flash.cache (2 ^ 20)) 4096)

/-- n bytes of user data are programmed: they leave the write cache and count as NAND writes (R336). -/
def State.program (s : State) (n pages : Nat) : State :=
  ((((s.setFlash { s.flash with cache := s.flash.cache - n }).showCache).count DFT_NAND_WR (pages * 16384))).govern

/-- The data of a full stripe: fifteen pages of 16 KiB (R320). -/
def stripeBytes : Nat := 15 * 16384

/-- Does the tier take host writes at all: neither WORN, read-only, without keys, nor stopped by a power-fail warning (R330,
R335, R337, R342)? -/
def State.flashWritable (s : State) : Bool :=
  decide (s.fld DFT_STATUS F.DFT_STATUS_GOV ≠ 2) && !s.flag DFT_STATUS F.DFT_STATUS_READ_ONLY && !s.log.final

/-- A piece of at most one line accepted into the write cache of T3, and charged (R312, R324, R337, R338). -/
def State.flashAccept (s : State) (pa : Nat) (bs : List Byte) (bad : Bool) : State :=
  let n := bs.length
  let line := pa - pa % 64
  let old : FlashWrite := ⟨s.watch, line, getBytes s.mem line 64, s.poison.filter (fun g => g - g % 64 = line)⟩
  let s1 := (s.setMem (putBytes s.mem pa bs)).poisonWrite pa n bad
  let full := stripeBytes ≤ s1.flash.stripe + n
  let s2 := s1.setFlash { s1.flash with
    accepted := old :: s1.flash.accepted,
    stripe := if full then s1.flash.stripe + n - stripeBytes else s1.flash.stripe + n,
    stripeWatch := if full ∨ s1.flash.stripe = 0 then s.watch else s1.flash.stripeWatch,
    full := if full then s1.flash.full + 1 else s1.flash.full, cache := s1.flash.cache + n, paced := s1.flash.paced + n }
  let s3 := ((s2.count DFT_HOST_WR n).showCache).setCredit (s2.flash.credit - (n : Int))
  let s4 := match s.frameOwner pa with
    | some p => (s3.count (TMV_FW_USED p) n).tierLevels p
    | none => s3
  s4.govern

/-- A piece of at most one line written into T3: discarded when the tier or the owner's budget refuses it, else accepted (R312,
R337). -/
def State.flashWrite (s : State) (pa : Nat) (bs : List Byte) (bad : Bool) : State :=
  if s.log.final then s
  else if ¬ s.flashWritable then s.count DFT_GOV_REFUSED bs.length
  else match s.frameOwner pa with
    | some p => if s.budgetSpent p then s.count (TMV_FW_REFUSED p) bs.length else s.flashAccept pa bs bad
    | none => s.flashAccept pa bs bad

/-- Must a best-effort writer of n bytes into T3 wait: the write cache of 4 GiB is full, or the governor is PACED and the
watch's 464 KiB are spent (R327, R339)? -/
def State.flashWait (s : State) (be : Bool) (n : Nat) : Bool :=
  be && (decide (2 ^ 32 < s.flash.cache + n) || (decide (s.fld DFT_STATUS F.DFT_STATUS_GOV = 1) && decide (464 * 1024 < s.flash.paced + n)))

/-! ## Writes -/

/-- One piece of a write within a line, by region; unmapped lines are ignored, a lost lender's memory discards (R33, R308,
R406). -/
def State.wrPiece (s : State) (die pa : Nat) (bs : List Byte) (bad : Bool) : State :=
  match s.region pa with
  | .hbm =>
    let s1 := (s.uncache (pa - pa % 64)).tearHeld pa
    let s2 := (s1.setMem (putBytes s1.mem pa bs)).poisonWrite pa bs.length bad
    if bs.length ≤ 32 ∧ pa % 32 + bs.length ≤ 32 then
      ((s2.count (HBM_WR_BYTES (hbmStack pa)) 32).count (HBM_NARROW (hbmStack pa))).touch pa
    else (s2.count (HBM_WR_BYTES (hbmStack pa)) bs.length).touch pa
  | .hdram =>
    let s1 := (s.uncache (pa - pa % 64)).tearHeld pa
    ((s1.setMem (putBytes s1.mem pa bs)).poisonWrite pa bs.length bad).touch pa
  | .flash => (((s.uncache (pa - pa % 64)).tearHeld pa).flashWrite pa bs bad).touch pa
  | .neighbour l =>
    if s.fld (TMV_BORROW l) F.TMV_BORROW_STATE = 2 then s
    else
      let s1 := ((s.uncache (pa - pa % 64)).tearHeld pa).request die l true pa bs bs.length false false bad
      ((s1.setMem (putBytes s1.mem pa bs)).poisonWrite pa bs.length bad).touch pa
  | .pcie port =>
    s.setPcie { s.pcie with posted :=
      (port, s.fld (HST_OUT_BASE port) F.HST_OUT_BASE_BASE * 2 ^ 45 + (pa - pcieBase) % 0x200000000000, bs) :: s.pcie.posted }
  | _ => s

/-- The pieces of a write by line, each with its bytes. -/
def writePieces : List (Nat × Nat) → List Byte → List (Nat × List Byte)
  | [], _ => []
  | (a, n) :: ps, bs => (a, bs.take n) :: writePieces ps (bs.drop n)

/-- A write of bytes at a physical address, on the coherent fabric. It counts once in KPR_VIOL_PHYS when any of its lines is
unmapped (R33). -/
def State.wrMem (s : State) (pa : Nat) (bs : List Byte) (bad : Bool) (part : Option Nat) (die : Nat) : State :=
  let s1 := (writePieces (linePieces pa bs.length) bs).foldl (fun s p => s.wrPiece die p.1 p.2 bad) s
  if s.touchesUnmapped pa bs.length then s1.violation 7 (pa % 2 ^ 29) part false true die else s1

/-! ## Engines' stores -/

/-- The run of an engine changed. -/
def State.modRun (s : State) (e : Nat) (f : Run → Run) : State :=
  s.setEng { s.eng with runs := Table.mod s.eng.runs e f }

/-- Bytes entered into pending stores piece by piece. -/
def pendPieces (pend : List (Nat × Byte)) : List (Nat × Nat) → List Byte → List (Nat × Byte)
  | [], _ => pend
  | (pa, n) :: ps, bs => pendPieces (pendBytes pend pa (bs.take n)) ps (bs.drop n)

/-- Bytes entered into a run's pending stores; the flags say which of them hold poisoned data (none for clean bytes). -/
def Run.put (r : Run) (ps : List (Nat × Nat)) (bs : List Byte) (flags : List Bool) : Run :=
  let old := if r.bad.isEmpty then [] else r.bad.filter (fun x => !ps.any (fun p => decide (p.1 ≤ x) && decide (x < p.1 + p.2)))
  let addrs := if flags.any id then (ps.map (fun p => (List.range p.2).map (p.1 + ·))).flatten else []
  { r with pend := pendPieces r.pend ps bs, bad := ((addrs.zip flags).filter (·.2)).map (·.1) ++ old }

/-- An engine writes a virtual range: the stores stay its own until a fence or the end of its segment (R117, R156). -/
def State.vWrite (s : State) (a : Access) (va : Nat) (bs : List Byte) (flags : List Bool := []) : Except Trap State :=
  match s.vPieces { a with acc := 1 } (pagePieces va bs.length) with
  | .error t => .error t
  | .ok ps =>
    if ps.any (fun p => s.region p.1 = .flash) ∧ s.flashWait (!a.guaranteed) bs.length then .error .wait
    else .ok (s.modRun a.engine (fun r => r.put ps bs flags))

/-- A write that is on the fabric at once: records, headers and acknowledged common commands. It replaces the engine's own
pending stores to the same bytes. -/
def State.vStore (s : State) (a : Access) (va : Nat) (bs : List Byte) (bad : Bool := false) : Except Trap State :=
  match s.vPieces { a with acc := 1 } (pagePieces va bs.length) with
  | .error t => .error t
  | .ok ps =>
    if ps.any (fun p => s.region p.1 = .flash) ∧ s.flashWait (!a.guaranteed) bs.length then .error .wait
    else
      let mine (x : Nat) : Bool := ps.any (fun p => decide (p.1 ≤ x) && decide (x < p.1 + p.2))
      let s1 := s.modRun a.engine (fun r => { r with pend := r.pend.filter (fun b => !mine b.1), bad := r.bad.filter (fun x => !mine x) })
      .ok ((writePieces ps bs).foldl (fun s p => s.wrMem p.1 p.2 bad (some a.part) (eDie a.engine)) s1)

/-- The runs of consecutive bytes in a list of pending stores. -/
def pendRuns : List (Nat × Byte) → List (Nat × List Byte)
  | [] => []
  | (a, b) :: l =>
    match pendRuns l with
    | (a2, bs) :: rest => if a2 = a + 1 then (a, b :: bs) :: rest else (a, [b]) :: (a2, bs) :: rest
    | [] => [(a, [b])]

/-- The key of a byte of cluster SRAM among an engine's pending stores, above every physical address; cluster c is 0 to 31. -/
def sramKey (c off : Nat) : Nat := 2 ^ 52 + c * 2 ^ 26 + off

/-- A run of pending stores goes out: into cluster SRAM, or on the fabric. -/
def State.putOut (s : State) (part e a : Nat) (bs : List Byte) (bad : Bool := false) : State :=
  if 2 ^ 52 ≤ a then (s.setSram (putBytes s.sram (a - 2 ^ 52) bs)).poisonWrite a bs.length bad
  else s.wrMem a bs bad (some part) (eDie e)

/-- Pending stores go out; a granule that holds poisoned data is stored poisoned (R354). -/
def State.putAll (s : State) (part e : Nat) (pend : List (Nat × Byte)) (bad : List Nat) : State :=
  (pendRuns pend).foldl (fun s p =>
    if bad.isEmpty then s.putOut part e p.1 p.2
    else (writePieces (granules p.1 p.2.length) p.2).foldl (fun s q =>
      s.putOut part e q.1 q.2 (bad.any (fun x => decide (q.1 ≤ x) && decide (x < q.1 + q.2.length)))) s) s

/-- An engine's pending stores go out on the fabric. -/
def State.drain (s : State) (e : Nat) : State :=
  match Table.get? s.eng.runs e with
  | none => s
  | some r => (s.putAll r.part e r.pend r.bad).modRun e (fun r => { r with pend := [], bad := [] })

/-- A terminated slot's pending stores: each 64-byte line is written whole or keeps its earlier contents, as a free bit
decides (R124, R168, R200). -/
def State.dropPend (s : State) (e : Nat) : State :=
  match Table.get? s.eng.runs e with
  | none => s
  | some r =>
    let kept := r.pend.filter (fun p => Config.freeBool (s.free + p.1 / 64))
    ((s.putAll r.part e kept r.bad).modRun e (fun r => { r with pend := [], bad := [] })).tookFree

/-- The bytes of a partition's structure at a virtual address, read by the B9 itself for a partition (admission, logs). -/
def State.pRead (s : State) (p va n : Nat) : Except Trap (List Byte × State) :=
  s.vRead ⟨0xFFFF, p, false, 0, false, [], false⟩ va n

/-- The physical pieces of a record of the B9's own at a partition's virtual address (R63, R303, R378). -/
def State.ownPieces (s : State) (p : Nat) : List (Nat × Nat) → Except Trap (List (Nat × Nat))
  | [] => .ok []
  | (va, n) :: rest =>
    match s.translate ⟨0xFFFF, p, false, 1, false, [], false⟩ va with
    | .error t => .error t
    | .ok pa => match s.ownPieces p rest with
      | .error t => .error t
      | .ok l => .ok ((pa, n) :: l)

/-- A record the B9 writes at a partition's virtual address; none where translation fails. -/
def State.pStore (s : State) (p va : Nat) (bs : List Byte) : Option State :=
  match s.ownPieces p (pagePieces va bs.length) with
  | .error _ => none
  | .ok ps => some ((writePieces ps bs).foldl (fun s q => s.wrMem q.1 q.2 false (some p) 18) s)

end Sys2Proof.Machine
end

