-- ==== Sys2Proof/Machine/Frames.lean ====
section
/-! DEFINITION. Frames: free runs (R289, R290), the mappings the B9 maintains (R292, R372, R387), frees and zeroing (R291, R293),
and moves of frames between tiers (R288, R295, R296, R311). -/
namespace Sys2Proof.Machine

/-! ## Free runs -/

/-- A range entered into a list ordered by base. -/
def enterRange (x : Nat × Nat) : List (Nat × Nat) → List (Nat × Nat)
  | [] => [x]
  | y :: ys => if x.1 ≤ y.1 then x :: y :: ys else y :: enterRange x ys

/-- What is not free in tiers T1 to T4, as (first address, end), ascending: frames, free or not yet zeroed, lent ranges (R307)
and retired frames (R360). -/
def State.occupied (s : State) : List (Nat × Nat) :=
  let held : List (Nat × Nat) := s.tiers.frames.map (fun f => (f.1, f.1 + f.2.size))
  let others : List (Nat × Nat) := s.tiers.lent.map (fun l => (l.2.1, l.2.1 + l.2.2)) ++ s.tiers.retired.map (fun b => (b, b + 0x10000))
  others.foldl (fun l x => enterRange x l) held

/-- The gaps of a range between occupied ranges. -/
def gapsOf (lo hi : Nat) : List (Nat × Nat) → List (Nat × Nat)
  | [] => if lo < hi then [(lo, hi)] else []
  | (a, b) :: rest =>
    if b ≤ lo ∨ hi ≤ a then gapsOf lo hi rest
    else (if lo < a then [(lo, a)] else []) ++ gapsOf (max lo b) hi rest

/-- The free gaps of a tier. -/
def State.freeGaps (s : State) (t : Nat) : List (Nat × Nat) :=
  ((s.tierRanges t).map (fun r => gapsOf r.1 (r.1 + r.2) s.occupied)).flatten

/-- The first aligned base in a gap, and the number of bases at which n bytes fit. -/
def gapPlaces (n align : Nat) (g : Nat × Nat) : Nat × Nat :=
  let first := ceilDiv g.1 align * align
  (first, if first + n ≤ g.2 then (g.2 - n - first) / align + 1 else 0)

/-- The base of the k-th place. -/
def nthPlace (align : Nat) : List (Nat × Nat) → Nat → Option Nat
  | [], _ => none
  | (first, m) :: rest, k => if k < m then some (first + k * align) else nthPlace align rest (k - m)

/-- A free run of n bytes in a tier; which one the spec leaves open. -/
def State.freeRun (s : State) (t n align : Nat) : Option Nat :=
  let places := (s.freeGaps t).map (gapPlaces n align)
  let total := places.foldl (fun m p => m + p.2) 0
  nthPlace align places (s.anyNat % total)

/-- n bytes of free 64 KiB frames of a tier in pieces, none where the pool lacks them; which ones the spec leaves open. -/
def takeFrames : List (Nat × Nat) → Nat → Option (List (Nat × Nat))
  | _, 0 => some []
  | [], _ => none
  | (lo, hi) :: rest, n =>
    let first := ceilDiv lo 0x10000 * 0x10000
    let m := min n ((hi - first) / 0x10000 * 0x10000)
    if m = 0 then takeFrames rest n
    else (takeFrames rest (n - m)).map (fun l => (first, m) :: l)

/-- Memory, poison and cached copies of a range become zeros. -/
def State.zeroRange (s : State) (a n : Nat) : State :=
  let inside (x : Nat) : Bool := decide (a ≤ x) && decide (x < a + n)
  let s1 := ((s.setMem (s.mem.filter (fun c => !inside c.1))).setPoison (s.poison.filter (fun g => !inside g))).setCoh
    (s.coh.filter (fun c => !inside c.1))
  if s.flash.double.isSome ∧ flashBase ≤ a then s1.setFlash { s1.flash with clean := (a, n) :: s1.flash.clean } else s1

/-! ## Mappings -/

/-- A leaf as it stands in a partition's tables: its address, its twin's (0 for none), page size and both physical sides. -/
structure RawLeaf where
  entry : Nat
  twin : Nat
  size : Nat
  pa0 : Nat
  pa1 : Nat
  deriving DecidableEq, Repr

/-- The leaf the Compass tables hold for an address, level by level, without the checks of R370. -/
def State.rawAt (s : State) (va : Nat) : Nat → Nat → Bool → Bool → Option RawLeaf
  | level, tbl, twins, small =>
    let at0 := tbl + 8 * tableIndex level small va
    let at1 := if twins then at0 + tableSize level small else 0
    let e := s.rdNat at0 8
    if ¬ e.testBit 0 then none
    else if bits e 2 1 ≤ 1 then
      match level with
      | 0 => none
      | l + 1 => s.rawAt va l (bits e 51 12 * 4096) (e.testBit 3) (bits e 2 1 = 1)
    else (leafSize level small (bits e 2 1)).map (fun n =>
      ⟨at0, at1, n, bits e 51 12 * 4096, if twins then bits (s.rdNat at1 8) 51 12 * 4096 else 0⟩)
termination_by structural level => level

/-- The leaf of a partition's Compass tables. -/
def State.rawLeaf (s : State) (p va : Nat) : Option RawLeaf :=
  if s.flag (MMU_ROOT p) F.MMU_ROOT_EN then s.rawAt va 4 (s.addr (MMU_ROOT p) F.MMU_ROOT_ROOT_LO F.MMU_ROOT_ROOT_HI) false false
  else none

/-- The leaf the Sv57 tables hold for an address: five levels of 512 entries, a leaf where R, W or X is set, its page number in
bits [53:10] (log entry 23). -/
def State.svAt (s : State) (va : Nat) : Nat → Nat → Option RawLeaf
  | level, tbl =>
    let at0 := tbl + 8 * bits va (12 + 9 * level + 8) (12 + 9 * level)
    let e := s.rdNat at0 8
    if ¬ e.testBit 0 then none
    else if bits e 3 1 = 0 then
      match level with
      | 0 => none
      | l + 1 => s.svAt va l (bits e 53 10 * 4096)
    else some ⟨at0, 0, 4096 * 512 ^ level, bits e 53 10 * 4096, 0⟩
termination_by structural level => level

/-- The leaf of a partition's Sv57 tables. -/
def State.svLeaf (s : State) (p va : Nat) : Option RawLeaf :=
  if s.flag (HST_SV57_ROOT p) F.HST_SV57_ROOT_EN then
    s.svAt va 4 (s.addr (HST_SV57_ROOT p) F.HST_SV57_ROOT_ROOT_LO F.HST_SV57_ROOT_ROOT_HI)
  else none

/-- The entry of a leaf, or its twin, that maps an address to a physical base. -/
def RawLeaf.maps (l : RawLeaf) (va base : Nat) : Option Nat :=
  if l.pa0 + va % l.size = base then some l.entry
  else if l.twin ≠ 0 ∧ l.pa1 + va % l.size = base then some l.twin
  else none

/-- The entries that map a run: that of its first address, and those of each page that starts inside it. -/
def mapEntries (find : Nat → Option RawLeaf) (va base n : Nat) : List (Nat × RawLeaf) :=
  (List.range (n / 4096)).filterMap (fun i =>
    match find (va + 4096 * i) with
    | some l => if i = 0 ∨ (va + 4096 * i) % l.size = 0 then (l.maps (va + 4096 * i) (base + 4096 * i)).map (fun x => (x, l)) else none
    | none => none)

/-- A table entry rewritten by the B9. -/
def State.putEntry (s : State) (at0 e : Nat) : State := s.wrMem at0 (leBytes 8 e) false none 18

/-- The mappings of a run at its recorded address move from one physical base to another; one that holds neither counts as stale
(R372, R387). shift: the bit at which an entry holds its page number. -/
def State.remapIn (s : State) (find : Nat → Option RawLeaf) (stale shift va src dst n : Nat) : State :=
  let l := mapEntries find va src n
  let s1 := l.foldl (fun s x => s.putEntry x.1 (s.rdNat x.1 8 + dst / 4096 * 2 ^ shift - src / 4096 * 2 ^ shift)) s
  if (match find va with | some x => (x.maps va src).isSome | none => false) then s1 else s1.count stale

/-- The old translations of a physical range leave every TLB of the package. -/
def State.flushRange (s : State) (p src n : Nat) : State :=
  let meets (pa size : Nat) : Bool := decide (pa < src + n) && decide (src < pa + size)
  s.setMmu { s.mmu with tlb := s.mmu.tlb.filter (fun t => ¬(t.part = p ∧ (meets t.pa0 t.size ∨ (t.sided ≠ 0 ∧ meets t.pa1 t.size)))) }

/-- Both mappings of a moved run are rewritten, and the old translations invalidated (R292). -/
def State.remap (s : State) (p va src dst n : Nat) : State :=
  ((s.remapIn (s.rawLeaf p) MMU_STALE 12 va src dst n).remapIn (s.svLeaf p) HST_SV_STALE 10 va src dst n).flushRange p src n

/-- Both mappings of a freed frame become invalid: V clears in the leaf that maps it (R292). -/
def State.unmap (s : State) (p va base n : Nat) : State :=
  let clear (s : State) (l : RawLeaf) : State := let e := s.rdNat l.entry 8; if e.testBit 0 then s.putEntry l.entry (e - 1) else s
  let s1 := (mapEntries (s.rawLeaf p) va base n).foldl (fun s x => clear s x.2) s
  ((mapEntries (s1.svLeaf p) va base n).foldl (fun s x => clear s x.2) s1).flushRange p base n

/-! ## Frees -/

/-- A frame is freed: its zeroing tears a stream that holds the side it backs, its mappings become invalid, its partition's use
falls (R292, R293, R310). A lost lender is done with once none of its frames is left (R308, log entry 24). -/
def State.freeFrame (s : State) (base : Nat) (f : Frame) : State :=
  let s1 := (s.tearHeld base).unmap f.part f.va base f.size
  let s2 := s1.setTiers { s1.tiers with
    frames := Table.put s1.tiers.frames base { f with zeroing := true, transit := false, freeAfter := false } }
  let s3 := s2.tierLevels f.part
  match s3.regionRaw base with
  | .neighbour l =>
    if s3.fld (TMV_BORROW l) F.TMV_BORROW_STATE = 2 ∧
        ¬ s3.tiers.frames.any (fun e => !e.2.zeroing && decide (neighbourBase + l * lenderSize ≤ e.1)
          && decide (e.1 < neighbourBase + (l + 1) * lenderSize)) then s3.putReg (TMV_BORROW l) 0
    else s3
  | _ => s3

/-- A write of a base to TMV_FREE by a partition (R293). -/
def State.freeBase (s : State) (p base : Nat) : State :=
  match Table.get? s.tiers.frames base with
  | none => s.setBit (TMV_PART_STATUS p) F.TMV_PART_STATUS_BAD_FREE
  | some f =>
    if f.part ≠ p ∨ f.zeroing then s.setBit (TMV_PART_STATUS p) F.TMV_PART_STATUS_BAD_FREE
    else if f.transit then s.setTiers { s.tiers with frames := Table.put s.tiers.frames base { f with freeAfter := true } }
    else s.freeFrame base f

/-- FRAME_ZEROED: a freed frame is zero and returns to the free pool (R291). -/
def execFrameZeroed (base : Nat) (s : State) : Out :=
  match Table.get? s.tiers.frames base with
  | none => .next s
  | some f =>
    if f.zeroing then .next ((s.setTiers { s.tiers with frames := Table.del s.tiers.frames base }).zeroRange base f.size)
    else .next s

/-! ## Moves -/

/-- Does a frame's base lie in a run? -/
def inRun (a n b : Nat) : Bool := decide (a ≤ b) && decide (b < a + n)

/-- The run that moves with a frame: the page that holds it where that is larger than the frame (R372), else the frame. -/
def State.moveUnit (s : State) (base : Nat) (f : Frame) : Nat × Nat :=
  match s.rawLeaf f.part f.va with
  | some l =>
    if l.size ≤ f.size then (base, f.size)
    else match l.maps f.va base with
      | some _ => (base - f.va % l.size, l.size)
      | none => (base, f.size)
  | none => (base, f.size)

/-- A move's frames leave transit; a free that waited for the end takes effect (R293). -/
def State.settleRun (s : State) (a n : Nat) : State :=
  (s.tiers.frames.filter (fun e => inRun a n e.1)).foldl (fun s e =>
    let f := { e.2 with transit := false, freeAfter := false }
    let s1 := s.setTiers { s.tiers with frames := Table.put s.tiers.frames e.1 f }
    if e.2.freeAfter then s1.freeFrame e.1 f else s1) s

/-- The partition of a move. -/
def State.movePart (s : State) (m : Move) : Nat := match Table.get? s.tiers.frames m.dst with | some f => f.part | none => 0

/-- A move is cancelled: the frames stay at their source and the destination frames are freed (R295, R299). -/
def State.cancelMove (s : State) (m : Move) : State :=
  let p := s.movePart m
  let s1 := s.setTiers { s.tiers with frames := s.tiers.frames.filter (fun e => !inRun m.dst m.bytes e.1),
                                      moves := s.tiers.moves.filter (· ≠ m) }
  (s1.settleRun m.src m.bytes).tierLevels p

/-- A move of a frame starts toward a tier: a destination run against the quota (where charged), the source in transit (R295,
R311). None where no destination is available. -/
def State.startMove (s : State) (base t : Nat) (f : Frame) (engine : Option Nat) : Option State :=
  let (src, n) := s.moveUnit base f
  let refused := (decide (t = 3) && (s.budgetSpent f.part || !s.flashWritable))
    || (engine.isSome && (match s.quota f.part t with | some q => decide (q < s.use f.part t + n / 0x10000) | none => false))
  if refused then none
  else match s.freeRun t n n with
    | none => none
    | some dst =>
      let mine := s.tiers.frames.filter (fun e => inRun src n e.1)
      let moved := mine.foldl (fun l e => Table.put (Table.put l e.1 { e.2 with transit := true }) (e.1 - src + dst)
        { e.2 with run := s.tiers.nextRun, transit := false, freeAfter := false }) s.tiers.frames
      some ((s.setTiers { s.tiers with frames := moved, nextRun := s.tiers.nextRun + 1,
                                       moves := s.tiers.moves ++ [⟨src, dst, n, engine⟩] }).tierLevels f.part).tookFree

/-- The poisoned places of a run. -/
def State.poisonIn (s : State) (a n : Nat) : List Nat :=
  s.poison.filter (inRun a n) ++
    (if s.flash.double.isSome ∧ flashBase ≤ a then
      ((List.range (n / 32)).map (fun i => a + 32 * i)).filter (fun g => s.isPoisoned g && !s.poison.contains g) else [])

/-- Where a poisoned place of a moved run lies at its destination: a whole line in host DRAM (R354, R392). -/
def movedPoison (src dst : Nat) (whole : Bool) (g : Nat) : Nat :=
  let x := g - src + dst
  if whole then x - x % 64 + 1 else x

/-- The bytes of a run are copied: every cached line is written back, fetch-ahead buffers discard theirs, poison goes along
(R288). The copy is counted as what it reads and writes. -/
def State.copyRun' (s : State) (src dst n part die : Nat) : State :=
  let s1 := (s.coh.filter (fun c => inRun src n c.1)).foldl (fun s c => s.uncache c.1) s
  let s2 := s1.setPcie { s1.pcie with ahead := s1.pcie.ahead.filter (fun x => !inRun src n x.2.1) }
  let s3 := s2.noteRead src n (some part) die
  let bad := s3.poisonIn src n
  let cells := s3.mem.filter (fun c => inRun src n c.1)
  match s3.region dst with
  | .flash =>
    (linePieces dst n).foldl (fun s p => s.flashAccept p.1 (getBytes s.mem (p.1 - dst + src) p.2)
      (bad.any (fun g => decide (g - g % 64 = p.1 - dst + src)))) s3
  | r =>
    let s4 := cells.foldl (fun s c => s.setMem (Sparse.set s.mem (c.1 - src + dst) c.2)) (s3.zeroRange dst n)
    let s5 := s4.setPoison (bad.foldl (fun l g => enter (movedPoison src dst (r = .hdram) g) l) s4.poison)
    match r with
    | .hbm => (piecesOf 4096 (n / 4096 + 2) dst n).foldl (fun s p => s.count (HBM_WR_BYTES (hbmStack p.1)) p.2) s5
    | .neighbour l => (piecesOf 4096 (n / 4096 + 2) dst n).foldl (fun s p =>
        s.request die l true p.1 (getBytes s.mem p.1 p.2) p.2 false true (bad.any (fun g => inRun (p.1 - dst + src) p.2 g))) s5
    | _ => s5

/-- Is a lender's memory lost? -/
def State.lostAt (s : State) (pa : Nat) : Bool :=
  match s.regionRaw pa with
  | .neighbour l => decide (s.fld (TMV_BORROW l) F.TMV_BORROW_STATE = 2)
  | _ => false

/-- A move ends: the copy, the mappings, and the source freed; a free that waited then takes effect on the moved frame (R288,
R292, R293). -/
def State.endMove (s : State) (m : Move) : State :=
  let p := s.movePart m
  let die := match m.engine with | some e => eDie e | none => 18
  let old := s.tiers.frames.filter (fun e => inRun m.src m.bytes e.1)
  let va := match old with | e :: _ => e.2.va - (e.1 - m.src) | [] => 0
  let s1 := ((s.copyRun' m.src m.dst m.bytes p die).count TMV_MOVED m.bytes).remap p va m.src m.dst m.bytes
  let s2 := s1.setTiers { s1.tiers with
    frames := s1.tiers.frames.map (fun e =>
      if inRun m.src m.bytes e.1 then (e.1, { e.2 with zeroing := true, transit := false, freeAfter := false }) else e),
    moves := s1.tiers.moves.filter (· ≠ m) }
  let s3 := old.foldl (fun s e =>
    if e.2.freeAfter then
      match Table.get? s.tiers.frames (e.1 - m.src + m.dst) with
      | some f => s.freeFrame (e.1 - m.src + m.dst) f
      | none => s
    else s) s2
  s3.tierLevels p

end Sys2Proof.Machine
end

