-- ==== Sys2Proof/Machine/Plans.lean ====
section
/-! DEFINITION. Buoys, arms and their interrupt (R184 to R192, R389); plans and their ends (R63, R77 to R82, R115); engines'
starts and stops. -/
namespace Sys2Proof.Machine

/-! ## Buoys -/

/-- A message-signalled interrupt to a hart of a partition: nothing while EN is clear, or for a hart of another partition
(R389, R414). -/
def State.buoyInterrupt (s : State) (p : Nat) : State :=
  let h := s.fld (HST_IRQ p) F.HST_IRQ_HART
  if s.flag (HST_IRQ p) F.HST_IRQ_EN ∧ s.partOfHart h = some p then
    s.setPcie { s.pcie with msis := (h, s.fld (HST_IRQ p) F.HST_IRQ_EIID) :: s.pcie.msis }
  else s

/-- The condition of arm k of a partition (R192): enabled, on a buoy of the partition, with the value at TARGET or above. -/
def State.armHolds (s : State) (p k : Nat) : Bool :=
  let a := BUY_ARM p k
  let b := s.fld a F.BUY_ARM_BUOY
  s.flag a F.BUY_ARM_EN && s.ownsBuoy p b && decide (s.fld a F.BUY_ARM_TARGET ≤ (s.reg (BUY_VALUE b)).toNat)

/-- The arms of a partition at the end of a buoy-unit cycle: a hit sets its bit, and a bit that rises interrupts a coupled
partition (R187, R192). -/
def State.arms (s : State) (p : Nat) : State :=
  (List.range 8).foldl (fun s k =>
    if s.armHolds p k then
      if (s.reg (BUY_HIT p)).toNat.testBit k then s
      else
        let s1 := s.putReg (BUY_HIT p) (s.reg (BUY_HIT p) ||| BitVec.ofNat 64 (2 ^ k))
        (match s.partOf p with | some d => if d.headless then s1 else s1.buoyInterrupt p | none => s1)
    else s) s

/-- The partition that owns a buoy. -/
def State.buoyOwner (s : State) (b : Nat) : Option Nat :=
  (s.boot.chart.parts.find? (fun d => decide (d.buoyFirst ≤ b) && decide (b < d.buoyFirst + d.buoyCount))).map (·.num)

/-- The value of a buoy. -/
def State.buoy (s : State) (b : Nat) : Word := s.reg (BUY_VALUE b)

/-- A buoy takes a value, and its owner's arms are evaluated. -/
def State.putBuoy (s : State) (b : Nat) (v : Word) : State :=
  let s1 := s.putReg (BUY_VALUE b) v
  match s.buoyOwner b with
  | some p => s1.arms p
  | none => s1

/-- An add to a buoy wraps modulo 2^64 (R185). -/
def State.addBuoy (s : State) (b : Nat) (v : Word) : State := s.putBuoy b (s.buoy b + v)

/-- An add to a buoy on behalf of a partition: a buoy of another partition is never changed. -/
def State.addOwnBuoy (s : State) (p b : Nat) (v : Word) : State := if s.ownsBuoy p b then s.addBuoy b v else s

/-! ## Plans -/

/-- The last watch offset of a plan's slots. -/
def Plan.maxOff (pl : Plan) : Nat := pl.slots.foldl (fun m x => max m x.off) 0

/-- The 32 bytes of a result record (R63). -/
def resultBytes (status reason id a b slot : Nat) : List Byte :=
  leBytes 1 status ++ leBytes 1 reason ++ leBytes 2 0 ++ leBytes 4 id ++ leBytes 8 a ++ leBytes 8 b ++ leBytes 4 slot ++ leBytes 4 0

/-- The result record of an accepted plan with a status; WATCH_A and WATCH_B are zero for a best-effort plan (R73). -/
def Plan.record (pl : Plan) (id status slot : Nat) : List Byte :=
  resultBytes status 0 id (if pl.guaranteed then pl.start else 0) (if pl.guaranteed then pl.start + pl.maxOff else 0) slot

/-- The record rewritten in place. -/
def State.writeRecord (s : State) (pl : Plan) (id status slot : Nat) : State :=
  (s.pStore pl.part pl.result (pl.record id status slot)).getD s

/-- A plan changed. -/
def State.modPlan (s : State) (id : Nat) (f : Plan → Plan) : State :=
  s.setAdm { s.adm with plans := Table.mod s.adm.plans id f }

/-- A slot of a plan put into a state. -/
def Plan.setSlot (pl : Plan) (i : Nat) (st : SlotState) : Plan :=
  { pl with slots := pl.slots.modify i (fun x => { x with state := st }) }

/-- Every slot not yet started is cancelled (R78, R82). -/
def Plan.cancelWaiting (pl : Plan) : Plan :=
  { pl with slots := pl.slots.map (fun x => if x.state = .waiting then { x with state := .cancelled } else x) }

/-- Has a slot ended? -/
def SlotState.isOver : SlotState → Bool
  | .finished | .cancelled | .terminated | .notStarted => true
  | _ => false

/-- A plan whose slots have all ended: the record with its final status, and then 1 to its completion buoy (R81). -/
def State.planEnd (s : State) (id : Nat) : State :=
  match Table.get? s.adm.plans id with
  | none => s
  | some pl =>
    if pl.slots.all (fun x => x.state.isOver) then
      let status := if pl.ending = 0 then 3 else pl.ending
      let s1 := s.writeRecord pl id status (if pl.ending = 4 ∨ pl.ending = 6 then pl.endSlot else 0xFFFFFFFF)
      let s2 := s1.setAdm { s1.adm with plans := Table.del s1.adm.plans id }
      s2.addBuoy pl.buoy 1
    else s

/-- The plan's failure: its unstarted slots are cancelled, its ending is set (a first failure stands, and replaces a cancel:
R82), the record shows it, and a class 2 event carries its TAG (R78, R80, R582). -/
def State.failPlan (s : State) (id slot status : Nat) (engine : Nat) : State :=
  match Table.get? s.adm.plans id with
  | none => s
  | some pl =>
    let first := pl.ending = 0 ∨ pl.ending = 5
    let pl1 := { pl.cancelWaiting with ending := if first then status else pl.ending, endSlot := if first then slot else pl.endSlot }
    let s1 := s.setAdm { s.adm with plans := Table.put s.adm.plans id pl1 }
    let s2 := s1.writeRecord pl1 id pl1.ending pl1.endSlot
    s2.engineEvent engine pl.part (0x200 + status) [pl.tag, slot, id]

/-- A broken promise (R78): the alarm, the partition's notice, the counters and WCH_BROKEN_LAST. -/
def State.broken (s : State) (engine part : Nat) (notStarted : Bool) : State :=
  let last := fset (fset (fset (fset 0 F.WCH_BROKEN_LAST_ENGINE engine) F.WCH_BROKEN_LAST_PARTITION part)
    F.WCH_BROKEN_LAST_NOT_STARTED notStarted.toNat) F.WCH_BROKEN_LAST_WATCH_LO s.watchLo
  let s1 := (s.setBit (WCH_PART_STATUS part) F.WCH_PART_STATUS_BROKEN).alarmWch F.WCH_ALARM_PROMISE_BROKEN
  ((s1.count WCH_BROKEN).count (WCH_PART_BROKEN part)).putReg WCH_BROKEN_LAST last

/-! ## Engines -/

/-- TDn_ME_STATUS shows a matrix engine's planes (R127), TDn_VE_STATUS whether the side reducer is armed (R171). -/
def State.showPlanes (s : State) (e : Nat) : State :=
  let r := (Table.get? s.eng.runs e).getD {}
  if eKind e = 0 then
    (s.putFld (TD_ME_STATUS (eDie e) (eIdx e)) F.TD_ME_STATUS_SHADOW_READY (r.mx.shadow.isSome && !r.mx.loading).toNat).putFld
      (TD_ME_STATUS (eDie e) (eIdx e)) F.TD_ME_STATUS_ACTIVE_VALID r.mx.active.isSome.toNat
  else if eKind e = 1 then
    s.putFld (TD_VE_STATUS (eDie e) (eIdx e)) F.TD_VE_STATUS_SIDE_ARMED (decide (r.vx.sideArm ≠ 0)).toNat
  else s

/-- What an engine's next command may wait for. -/
def State.depsOf (s : State) (e : Nat) : Timing := (Table.get? s.eng.deps e).getD {}

/-- What an engine's next command may wait for, replaced. -/
def State.putDeps (s : State) (e : Nat) (x : Timing) : State :=
  s.setEng { s.eng with deps := if x = {} then Table.del s.eng.deps e else Table.put s.eng.deps e x }

/-- Cycles pass: what was written earlier can be read that much sooner, and no VRED is just before any more. -/
def Timing.pass (x : Timing) (n : Nat) : Timing :=
  { x with late := (x.late.filter (fun p => n < p.2)).map (fun p => (p.1, p.2 - n)), red := none }

/-- The cycles until every one of some registers can be read. -/
def Timing.wait (x : Timing) (reads : List Nat) : Nat := reads.foldl (fun m k => max m ((Table.get? x.late k).getD 0)) 0

/-- What an engine shows when it runs nothing: a suspended slot in its save bank (2), or idle (0). -/
def State.rest (s : State) (e : Nat) : State :=
  (s.showEngine e (if (Table.get? s.eng.banks e).isSome then 2 else 0)).showPlanes e

/-- The moves of an engine in transit are cancelled (R295, R299). -/
def State.cancelMoves (s : State) (e : Nat) : State :=
  (s.tiers.moves.filter (fun m => m.engine = some e)).foldl (fun s m => s.cancelMove m) s

/-- The fetch of an engine that armed a route settles as a MISS when it is cut short (R301). -/
def State.routeOutcome (s : State) (e outcome : Nat) : State :=
  s.setTiers { s.tiers with routes := s.tiers.routes.map (fun r =>
    (r.1, { r.2 with fetches := r.2.fetches.map (fun f =>
      if f.engine = e ∧ f.outcome = 0 then { f with outcome := outcome } else f) })) }

/-- An exporter's open stream ends without a trailer and its holds are released (R280). -/
def State.endStream (s : State) (n : Nat) : State :=
  ((s.setExp (Table.del s.exp n)).clrBit (UPD_EXP_STATUS n) F.UPD_EXP_STATUS_OPEN).clrBit (UPD_EXP_STATUS n) F.UPD_EXP_STATUS_TORN

/-- The engines whose slots end with this one's: the engines lent to a sequencer in its slot (R254), the intake engines fed by
an order generator (R416). -/
def State.companions (s : State) (e : Nat) : List Nat :=
  match Table.get? s.eng.runs e with
  | none => []
  | some r =>
    if eKind e = 5 ∨ eKind e = 13 then
      (s.eng.runs.filter (fun x => x.1 ≠ e ∧ x.2.lent ∧ x.2.plan = r.plan ∧ eDie x.1 = eDie e)).map (·.1)
    else []

/-- An engine stops running its slot, which ends in a state; its companions' slots end finished. The engine emits a trace
(R578). -/
def State.stop (s : State) (e : Nat) (st : SlotState) : State :=
  match Table.get? s.eng.runs e with
  | none => s
  | some r =>
    let s1 := (s.modPlan r.plan (fun pl => pl.setSlot r.slot st)).trace e 2 r.part r.plan r.slot
    (s1.setEng { s1.eng with runs := Table.del s1.eng.runs e, deps := Table.del s1.eng.deps e }).rest e

/-- An engine and its companions stop. -/
def State.stopAll (s : State) (e : Nat) (st : SlotState) : State :=
  ((s.companions e).foldl (fun s c => s.stop c .finished) s).stop e st

/-- What a collective engine has under way is dropped: a CREDUCE, whose later data is discarded, and a Beacon round. -/
def State.dropExchange (s : State) (e : Nat) : State :=
  let stopped := match Table.get? s.col.running (eDie e - 10) with | some d => [(d.group, d.step, d.tag)] | none => []
  s.setCol { s.col with
    running := Table.del s.col.running (eDie e - 10), stopped := stopped ++ s.col.stopped,
    inbox := s.col.inbox.filter (fun x => !stopped.contains (x.group, x.step, x.tag)),
    groups := s.col.groups.map (fun g => (g.1, { g.2 with round := g.2.round.filter (fun x => x.engine ≠ e) })) }

/-- A UAPPLY cut short: a free number of its first items is complete and the progress header names the next one; of the others each
64-byte line is written whole or keeps its contents, as a free bit decides (R268). -/
def State.dropUpdate (s : State) (e : Nat) : State :=
  match Table.get? s.eng.runs e, Table.get? s.upd.running (eDie e) with
  | some r, some u =>
    let k := s.anyNat % (u.items.length + 1)
    let kept := (u.items.drop k).map (fun w => w.filter (fun p => Config.freeBool (s.free + p.1 / 64)))
    let s1 := (u.items.take k ++ kept).foldl (fun s w => s.putAll r.part e w []) s
    let s2 := match u.header with
      | some pa => s1.wrMem (pa + 8) (leBytes 8 (u.first + k)) false (some r.part) (eDie e)
      | none => s1
    ((s2.count (UPD_SEQ_ITEMS (eDie e)) k).setUpd { s2.upd with running := Table.del s2.upd.running (eDie e) }).tookFree
  | _, _ => s

/-- What terminating a slot discards besides the run: pending stores, frame moves in transit, an exchange, an update, a stream on
which a command was under way (R77, R124, R168, R230, R268, R280, R295). -/
def State.discard (s : State) (e : Nat) : State :=
  let r := (Table.get? s.eng.runs e).getD {}
  let s1 := ((s.companions e).foldl (fun s c => s.dropPend c) s).dropPend e
  if eKind e = 4 then (s1.cancelMoves e).routeOutcome e 2
  else if eKind e = 7 then (match Table.get? s1.exp (eDie e - 10) with
    | some _ => if r.wait ≠ .none then s1.endStream (eDie e - 10) else s1
    | none => s1)
  else if eKind e = 6 then s1.dropExchange e
  else if eKind e = 5 then s1.dropUpdate e
  else s1

/-- A running slot is terminated and its plan fails with a status; status 4 is a broken promise (R77 to R80). -/
def State.terminate (s : State) (e status : Nat) : State :=
  match Table.get? s.eng.runs e with
  | none => s
  | some r =>
    let s1 := (s.discard e).stopAll e .terminated
    let s2 := if status = 4 ∧ ¬ r.be then s1.broken e r.part false else s1
    (s2.failPlan r.plan r.slot status e).planEnd r.plan

/-- The plan's tag of a run. -/
def State.tagOf (s : State) (r : Run) : Nat := match Table.get? s.adm.plans r.plan with | some pl => pl.tag | none => 0

/-- An engine reaches an ill-formed command, or a wait expires, or a guaranteed slot faults: the slot ends as PLAN_ERROR
(R80, R115). -/
def State.planError (s : State) (e : Nat) : State := s.terminate e 6

/-- Poisoned data is consumed (R399): counted and logged; a guaranteed slot is terminated and its promise broken, a best-effort
slot ends and its plan ends as BROKEN. -/
def State.consumePoison (s : State) (e pa : Nat) : State :=
  let part := match Table.get? s.eng.runs e with | some r => r.part | none => 0
  let last := fset (fset (fset (fset 0 F.COH_POISON_LAST_DIE (eDie e)) F.COH_POISON_LAST_AGENT 0xFF)
    F.COH_POISON_LAST_ENGINE e) F.COH_POISON_LAST_VALID 1
  let at1 := fset (fset 0 F.COH_POISON_ADDR_ADDR_LO (bits pa 31 6)) F.COH_POISON_ADDR_ADDR_HI (bits pa 51 32)
  let s1 := ((s.count COH_POISON_USED).putReg COH_POISON_LAST last).putReg COH_POISON_ADDR at1
  (s1.engineEvent e part 0x404 [pa, eDie e]).terminate e 4

end Sys2Proof.Machine
end

