-- ==== Sys2Proof/Machine/Streams.lean ====
section
/-! DEFINITION. Command streams (R174 to R182): fetching an entry, ill-formed commands (R115, R176, R177, R180), translation
faults of a slot (R80, R375 to R378), and the one way a command of a stream runs. -/
namespace Sys2Proof.Machine

/-! ## Errors -/

/-- The governing ERR_EVENT bit of an engine (R180). -/
def State.errEvent (s : State) (e : Nat) : Bool :=
  match eKind e with
  | 0 => s.flag (TD_ME_CFG (eDie e)) F.TD_ME_CFG_ERR_EVENT
  | 1 => s.flag (TD_VE_CFG (eDie e)) F.TD_VE_CFG_ERR_EVENT
  | 2 | 3 => s.flag (TD_CE_CFG (eDie e)) F.TD_CE_CFG_ERR_EVENT
  | 4 => s.flag TMV_CFG F.TMV_CFG_ERR_EVENT
  | 5 | 7 => s.flag UPD_CFG F.UPD_CFG_ERR_EVENT
  | 6 => s.flag COL_CFG F.COL_CFG_ERR_EVENT
  | 13 => s.flag (INT_CFG (eDie e - 14)) F.INT_CFG_ERR_EVENT
  | _ => false

/-- An error record of the form CODE, COMMAND, WATCH_LO (R127, R171, R215, R282, R449). -/
def errWord (code idx watch : Nat) : Word := BitVec.ofNat 64 (code % 256 + idx % 2 ^ 24 * 256 + watch % 2 ^ 32 * 2 ^ 32)

/-- An error record of the form ENGINE, PARTITION, CODE, COMMAND, VALID (R213, R313). -/
def errWordLong (engine part code idx : Nat) : Word :=
  BitVec.ofNat 64 (engine % 65536 + part % 32 * 65536 + code % 256 * 2 ^ 24 + idx % 2 ^ 24 * 2 ^ 32 + 2 ^ 63)

/-- The engine's own error record (R115, R167, R200, R231, R267, R281, R297, R429). -/
def State.ownError (s : State) (e code idx part : Nat) : State :=
  let w := errWord code idx s.watchLo
  match eKind e with
  | 0 => s.putReg (TD_ME_ERR_LAST (eDie e) (eIdx e)) w
  | 1 => s.putReg (TD_VE_ERR_LAST (eDie e) (eIdx e)) w
  | 2 => s.putReg (TD_CE_ERR_LAST (eDie e) (eIdx e)) w
  | 3 => s.putReg (TD_CE_ERR_LAST (eDie e) (4 + eIdx e)) w
  | 4 => s.putReg TMV_ERR_LAST (errWordLong e part code idx)
  | 5 => s.putReg (UPD_SEQ_ERR_LAST (eDie e)) w
  | 6 => s.putReg COL_ERR_LAST (BitVec.ofNat 64 (code % 256 + (eDie e - 10) % 4 * 256 + idx % 2 ^ 22 * 1024 + s.watchLo * 2 ^ 32))
  | 7 => s.putReg (UPD_EXP_ERR_LAST (eDie e - 10)) w
  | 13 => s.putReg (INT_ERR_LAST (eDie e - 14)) w
  | _ => s

/-- The CODEs of the reasons that hold. -/
def errs (l : List (Bool × Nat)) : List Nat := (l.filter (·.1)).map (·.2)

/-- The CODE recorded where several reasons hold: one of them, which the spec leaves open. -/
def State.pick (s : State) (codes : List Nat) : Nat := (codes[s.anyNat % codes.length]?).getD 0

/-- Is FP4 licensed (R556)? -/
def State.fp4 (s : State) : Bool := (s.fld CHT_FEATURES F.CHT_FEATURES_FEATURES).testBit 2

/-- A class 1 event for an ill-formed command (R582), where the governing bit is set. -/
def State.errorEvent (s : State) (e : Nat) (r : Run) (sub : Nat) : State :=
  if s.errEvent e then s.engineEvent e r.part (0x100 + sub) [s.tagOf r, r.idx, r.plan] else s

/-- An ill-formed command of the engine's own: its record, the event, and the slot ends as PLAN_ERROR (R115). -/
def State.illFormed (s : State) (e : Nat) (r : Run) (code : Nat) : State :=
  ((s.ownError e code r.idx r.part).errorEvent e r code).planError e

/-- An ill-formed common command, entry or header: recorded in BUY_ERR_LAST, event sub-code 0x80 + CODE (R176, R180). -/
def State.illCommon (s : State) (e : Nat) (r : Run) (code : Nat) : State :=
  ((s.putReg BUY_ERR_LAST (errWordLong e r.part code r.idx)).errorEvent e r (0x80 + code)).planError e

/-! ## Faults -/

/-- The length of a partition's fault queue: 2^LOG2 for LOG2 4 to 16, else none (R384). -/
def State.faultRing (s : State) (p : Nat) : Nat :=
  let l := s.fld (MMU_FQ_CTRL p) F.MMU_FQ_CTRL_LOG2
  if 4 ≤ l ∧ l ≤ 16 then 2 ^ l else 0

/-- The 32 bytes of a fault record (R378). -/
def faultBytes (va engine kind acc level cls slot plan watch : Nat) : List Byte :=
  leBytes 8 (va % 2 ^ 57) ++ leBytes 2 engine ++ leBytes 1 kind ++ leBytes 1 acc ++ leBytes 1 level ++ leBytes 1 cls
    ++ leBytes 2 slot ++ leBytes 4 plan ++ leBytes 6 watch ++ leBytes 6 0

/-- A record goes into the partition's fault queue; an overwritten record, one that has no queue, or one whose write fails
counts as lost (R378). -/
def State.faultQueue (s : State) (p : Nat) (bs : List Byte) : State :=
  let n := s.faultRing p
  if n = 0 then s.count (MMU_FQ_LOST p)
  else
    let head := (s.reg (MMU_FQ_HEAD p)).toNat
    let s1 := s.count (MMU_FQ_HEAD p)
    match s1.pStore p (s.addr (MMU_FQ_ADDR p) F.MMU_FQ_ADDR_ADDR_LO F.MMU_FQ_ADDR_ADDR_HI + head % n * 32) bs with
    | none => s1.count (MMU_FQ_LOST p)
    | some s2 => if n ≤ head then s2.count (MMU_FQ_LOST p) else s2

/-- What every translation fault does (R378). -/
def State.faultRecord (s : State) (e : Nat) (r : Run) (va kind level acc slot : Nat) : State :=
  let cls := r.be.toNat
  let s1 := (s.faultQueue r.part (faultBytes va e kind acc level cls slot r.plan s.watch)).count (MMU_FAULTS r.part)
  let last := fset (fset (fset (fset (fset 0 F.MMU_FAULT_LAST_ENGINE e) F.MMU_FAULT_LAST_PARTITION r.part)
    F.MMU_FAULT_LAST_KIND kind) F.MMU_FAULT_LAST_CLASS cls) F.MMU_FAULT_LAST_VALID 1
  let s2 := s1.putReg MMU_FAULT_LAST last
  let s3 := if s2.flag (MMU_FQ_CTRL r.part) F.MMU_FQ_CTRL_BUOY_EN
    then s2.addOwnBuoy r.part (s2.fld (MMU_FQ_CTRL r.part) F.MMU_FQ_CTRL_BUOY) 1 else s2
  if r.be ∧ s3.flag MMU_CFG F.MMU_CFG_FAULT_EVENT then s3.engineEvent e r.part (0x300 + kind) [va, s.tagOf r, r.plan] else s3

/-- The spill slots of a partition (R384): values above 64 act as 64. -/
def State.spillSlots (s : State) (p : Nat) : Nat := min (fget (s.inEffect (MMU_SPILL_CTRL p)) F.MMU_SPILL_CTRL_SLOTS) 64

/-- The virtual address of spill slot k (R377). -/
def State.spillAddr (s : State) (p k : Nat) : Nat :=
  s.addr (MMU_SPILL_ADDR p) F.MMU_SPILL_ADDR_ADDR_LO F.MMU_SPILL_ADDR_ADDR_HI + k * 0xA0000

/-- Does the spill slot lie in PINNED T1 frames of the partition (R377)? -/
def State.spillOk (s : State) (p k : Nat) : Bool :=
  (List.range 160).all (fun i =>
    match s.walk p (s.spillAddr p k + i * 4096) with
    | .ok l => s.pinnedT1 p (l.pa0 + (s.spillAddr p k + i * 4096) % l.size) 4096
    | .error _ => false)

/-- Is a spill slot taken, by a held slot or by a copy on its way? -/
def State.spillTaken (s : State) (p k : Nat) : Bool :=
  (Table.get? s.eng.held (64 * p + k)).isSome || s.eng.spilling.any (fun x => decide (x.2.2.part = p) && decide (x.2.1 = k))

/-- The lowest free spill slot of a partition (R376). -/
def State.freeSpill (s : State) (p : Nat) : Option Nat :=
  (List.range (s.spillSlots p)).find? (fun k => !s.spillTaken p k && s.spillOk p k)

/-- A slot's access faults: a guaranteed slot ends as PLAN_ERROR (R80); a best-effort slot is switched out into its save bank,
on its way to the lowest free spill slot, or ends when none is free (R376). -/
def State.faultSlot (s : State) (e : Nat) (r : Run) (va kind level acc : Nat) : State :=
  if ¬ r.be then (s.faultRecord e r va kind level acc 0xFFFF).planError e
  else match s.freeSpill r.part with
    | none => ((s.faultRecord e r va kind level acc 0xFFFF).setBit (MMU_PART_STATUS r.part) F.MMU_PART_STATUS_NO_SPILL).planError e
    | some k =>
      let s1 := s.faultRecord e r va kind level acc k
      let s2 := (s1.modPlan r.plan (fun pl => pl.setSlot r.slot .held)).trace e 3 r.part r.plan r.slot
      (s2.setEng { s2.eng with runs := Table.del s2.eng.runs e, deps := Table.del s2.eng.deps e, spilling := (e, k, r) :: s2.eng.spilling }).rest e

/-! ## Running one command -/

/-- What a command of a stream does: it completes, it stays in place in a new state (it waits), it is ill-formed for the
reasons listed as CODEs of the engine's own record or of BUY_ERR_LAST, or an access of it is stopped. -/
inductive Res where
  | done (s : State)
  | stay (s : State)
  | ill (codes : List Nat)
  | illCommon (codes : List Nat)
  | trap (t : Trap)

/-- The size its opcode fixes for an entry (R113, R134, R175, R178, R194, R222, R255, R275, R294, R424). -/
def entrySize (op : Nat) : Nat :=
  if op = 0x11 ∨ op = 0x22 ∨ op = 0x30 ∨ op = 0x31 ∨ op = 0x41 ∨ op = 0x70 then 128 else 64

/-- Is an opcode beyond the common ones defined for a kind of engine (R177)? -/
def opDefined (kind op : Nat) : Bool :=
  match kind with
  | 0 => decide (0x10 ≤ op) && decide (op ≤ 0x12)
  | 1 => decide (0x20 ≤ op) && decide (op ≤ 0x2A)
  | 2 | 3 => decide (0x30 ≤ op) && decide (op ≤ 0x32)
  | 4 => decide (op = 0x60)
  | 5 => decide (op = 0x50)
  | 6 => decide (0x40 ≤ op) && decide (op ≤ 0x42)
  | 7 => decide (0x58 ≤ op) && decide (op ≤ 0x5B)
  | 13 => decide (0x70 ≤ op) && decide (op ≤ 0x72)
  | _ => false

/-- How an engine's run accesses memory: a lent engine or a sequencer stages its writes (R368). -/
def Run.access (r : Run) (e acc : Nat) : Access :=
  { engine := e, part := r.part, guaranteed := !r.be, acc := acc, staging := r.lent || decide (eKind e = 5) }

/-- The limit a doorbell publishes for an open segment, rounded down to 64 bytes (R181). -/
def State.published (s : State) (r : Run) : Nat := s.fld (BUY_DOORBELL r.part r.doorbell) F.BUY_DOORBELL_PUBLISHED / 64 * 64

/-- A copy engine shows whether it waits at a doorbell (R215). -/
def State.showDoorbell (s : State) (e : Nat) (on : Bool) : State :=
  match eKind e with
  | 2 => s.putFld (TD_CE_STATUS (eDie e) (eIdx e)) F.TD_CE_STATUS_DOORBELL_WAIT on.toNat
  | 3 => s.putFld (TD_CE_STATUS (eDie e) (4 + eIdx e)) F.TD_CE_STATUS_DOORBELL_WAIT on.toNat
  | _ => s

/-- The engine waits at a published limit (R181). -/
def State.atDoorbell (s : State) (e : Nat) : State := (s.modRun e (fun r => { r with wait := .doorbell })).showDoorbell e true

/-- A command completed: the engine goes on after its entry. -/
def State.advance (s : State) (e size : Nat) : State :=
  (s.modRun e (fun r => { r with pos := r.pos + size, idx := r.idx + 1, wait := .none })).tookFree

/-- What stopped an access acts on the slot. -/
def State.trapped (s : State) (e : Nat) (r : Run) : Trap → State
  | .fault va kind level acc => s.faultSlot e r va kind level acc
  | .poison pa => s.consumePoison e pa
  | .wait => s

/-- The outcome of a command of size bytes applied to the state it started from. -/
def State.settle (s : State) (e : Nat) (r : Run) (size : Nat) : Res → State
  | .done t => t.advance e size
  | .stay t => t
  | .ill codes => s.tookFree.illFormed e r (s.pick codes)
  | .illCommon codes => s.tookFree.illCommon e r (s.pick codes)
  | .trap t => s.trapped e r t

/-- The entry at the engine's position: read through its Compass, 64 bytes and then the rest (R112, R175, R371). -/
def State.fetchEntry (s : State) (e : Nat) (r : Run) (n : Nat) : Except Trap (List Byte × State) :=
  s.vRead (r.access e 3) (r.stream + 64 + r.pos) n

/-- Is the transaction tracker of an engine's tensor die full (R37)? The model's requests complete in the step that issues them,
but for those to lenders, which stay until their response (log entry 19). -/
def State.trackerFull (s : State) (die : Nat) : Bool :=
  decide (die < 8) && decide (131072 ≤ (s.lnk.reqs.filter (fun q => q.src = die)).length)

/-- The engines that wait for a tracker entry of a die. -/
def State.trackerWaits (s : State) (die : Nat) : List Nat := (Table.get? s.tracker die).getD []

/-- A command of a stream runs on an engine. The engine runs a slot, waits for nothing, has reached no end and no published
limit, and the entry at its position is the command's own; otherwise nothing happens, but for an ill-formed entry,
which any attempt finds (R176, R177, R180, R181). An engine whose die's tracker is full waits to issue (R37). -/
def State.runCmd (s : State) (e : Nat) (mine : List Byte → Bool) (body : Run → List Byte → State → Res) : State :=
  match Table.get? s.eng.runs e with
  | none => s
  | some r =>
    if r.lent ∨ r.wait ≠ .none then s
    else if r.length ≤ r.pos ∨ (s.trackerWaits (eDie e)).contains e then s
    else if s.trackerFull (eDie e) then s.setTracker (Table.put s.tracker (eDie e) (s.trackerWaits (eDie e) ++ [e]))
    else if r.opened ∧ s.published r < r.pos + 64 then s.atDoorbell e
    else match s.fetchEntry e r 64 with
      | .error t => s.trapped e r t
      | .ok (first, _) =>
        let op := byteOf first 0
        let size := entrySize op
        if r.length < r.pos + size then s.illCommon e r 8
        else if r.opened ∧ s.published r < r.pos + size then s.atDoorbell e
        else if 8 ≤ op ∧ op < 16 then s.illCommon e r 1
        else if 16 ≤ op ∧ ¬ opDefined (eKind e) op then s.illFormed e r 1
        else match s.fetchEntry e r size with
          | .error t => s.trapped e r t
          | .ok (entry, s1) => if mine entry then s.settle e r size (body r entry s1) else s

/-- The opcode test of a command. -/
def isOp (op : Nat) (entry : List Byte) : Bool := decide (byteOf entry 0 = op)

/-- The outcome of an access that must succeed for the command to complete. -/
def Res.ofStore (x : Except Trap State) : Res := match x with | .ok s => .done s | .error t => .trap t

/-! ## Cycle counters -/

/-- The busy and wait counters of an engine and whether its die counts (R127, R171, R215). -/
def State.cycleKeys (s : State) (e : Nat) : Option (Nat × Nat) :=
  match eKind e with
  | 0 => if s.flag (TD_ME_CFG (eDie e)) F.TD_ME_CFG_COUNT_EN then some (TD_ME_CYC_BUSY (eDie e) (eIdx e), TD_ME_WAIT (eDie e) (eIdx e)) else none
  | 1 => if s.flag (TD_VE_CFG (eDie e)) F.TD_VE_CFG_COUNT_EN then some (TD_VE_CYC_BUSY (eDie e) (eIdx e), TD_VE_WAIT (eDie e) (eIdx e)) else none
  | 2 => if s.flag (TD_CE_CFG (eDie e)) F.TD_CE_CFG_COUNT_EN then some (TD_CE_CYC_BUSY (eDie e) (eIdx e), TD_CE_WAIT (eDie e) (eIdx e)) else none
  | 3 => if s.flag (TD_CE_CFG (eDie e)) F.TD_CE_CFG_COUNT_EN then some (TD_CE_CYC_BUSY (eDie e) (4 + eIdx e), TD_CE_WAIT (eDie e) (4 + eIdx e)) else none
  | _ => none

/-- Do the die's matrix-engine counters count? -/
def State.meCounts (s : State) (e : Nat) : Bool := s.flag (TD_ME_CFG (eDie e)) F.TD_ME_CFG_COUNT_EN

/-- A command starts that no part of the latest shadow load runs beside: the load's cycles that no stream hid are busy, as advancing ones
or, at a common command, as cycles waited there, with the B feeder's free freezes (R119, R121, R123, log entry 92). -/
def State.exposeLoad (s : State) (e : Nat) (r : Run) (atCommon : Bool) : State :=
  match r.mx.shadow with
  | none => s
  | some p =>
    let n := p.kr - r.mx.streamed
    let x := s.depsOf e
    if eKind e ≠ 0 ∨ n = 0 ∨ x.loaded then s
    else
      let s1 := s.putDeps e { x with loaded := true }
      if s1.meCounts e then
        let d := eDie e
        let i := eIdx e
        let k := if atCommon then s.anyNat % (n + 1) else 0
        let fb := Config.freeNat (s.free + 1)
        (((((s1.count (TD_ME_CYC_ADV d i) (n - k)).count (TD_ME_WAIT d i) k).count (TD_ME_FROZEN d i) fb).count
          (TD_ME_FRZ_FEED_B d i) fb).count (TD_ME_CYC_BUSY d i) (n + fb)).setFree (s.free + 2)
      else s1

/-- n cycles at a common command or a doorbell limit, busy and counted as a wait. -/
def State.waitCycles (s0 : State) (e n : Nat) : State :=
  let s := s0.putDeps e ((s0.depsOf e).pass n)
  match s.cycleKeys e with
  | some (b, w) => (s.count b n).count w n
  | none => s

/-- A common command takes at most 4 cycles, or a free number where it waits for memory or a buoy (R188, log entry 3). -/
def State.commonCycles (s : State) (e : Nat) (waits : Bool) : State :=
  s.waitCycles e (if waits then s.anyNat else s.anyNat % 5)

end Sys2Proof.Machine
end

