-- ==== Sys2Proof/Machine/Calendar.lean ====
section
/-! DEFINITION. Engines' calendars (R68, R573), engine availability (R79), and field-test segments as other work meets them:
abort (R571), starvation (R572) and the placing of reserved windows (R573). -/
namespace Sys2Proof.Machine

/-- Does a slot hold granules in its engine's calendar? -/
def SlotState.holds : SlotState → Bool
  | .waiting | .running | .finished => true
  | _ => false

/-- The granules an engine's calendar holds in a watch, as (first, count): accepted guaranteed slots and reserved test
windows. -/
def State.held (s : State) (e w : Nat) : List (Nat × Nat) :=
  (s.adm.plans.map (fun p =>
    if p.2.guaranteed then
      (p.2.slots.filter (fun x => decide (x.engine = e) && decide (p.2.start + x.off = w) && x.state.holds)).map (fun x => (x.gran, x.count))
    else [])).flatten
  ++ (s.ft.windows.filter (fun x => decide (x.unit = s.engineSource e) && decide (x.watch = w))).map (fun x => (x.gran, 60))

/-- Do two runs of granules overlap? -/
def overlaps (a b : Nat × Nat) : Bool := decide (a.1 < b.1 + b.2) && decide (b.1 < a.1 + a.2)

/-- Is an engine unavailable: retired with no spare left (R79, R126, R576)? -/
def State.unavailable (s : State) (e : Nat) : Bool := s.ft.unavailable.contains e

/-- The guaranteed slots of an engine that wait in a watch: (plan, slot index, slot). -/
def State.waitingSlots (s : State) (e w : Nat) : List (Nat × Nat × Slot) :=
  (s.adm.plans.map (fun p =>
    if p.2.guaranteed then
      (p.2.slots.zipIdx.filter (fun x => decide (x.1.engine = e) && decide (p.2.start + x.1.off = w)
        && decide (x.1.state = .waiting))).map (fun x => (p.1, x.2, x.1))
    else [])).flatten

/-- The slot of a list with the first granule. -/
def earliest : List (Nat × Nat × Slot) → Option (Nat × Nat × Slot)
  | [] => none
  | x :: l => match earliest l with
    | none => some x
    | some y => if y.2.2.gran < x.2.2.gran then some y else some x

/-- The granules until the engine's next waiting guaranteed slot, counted from the granule that runs, where one waits in this
watch or the next. -/
def State.nextGuaranteed (s : State) (e : Nat) : Option Nat :=
  match earliest (s.waitingSlots e s.watch) with
  | some x => some (x.2.2.gran - s.granule)
  | none => match earliest (s.waitingSlots e (s.watch + 1)) with
    | some x => some (250 + x.2.2.gran - s.granule)
    | none => none

/-- The granules until a reserved test window of the engine begins, where one lies ahead in this watch or the next. -/
def State.nextWindow (s : State) (e : Nat) : Option Nat :=
  (s.ft.windows.filterMap (fun (x : FtWindow) =>
    if x.unit = s.engineSource e ∧ x.watch = s.watch ∧ s.granule ≤ x.gran + 59 then some (x.gran - s.granule)
    else if x.unit = s.engineSource e ∧ x.watch = s.watch + 1 then some (250 + x.gran - s.granule)
    else none)).min?

/-- Is the engine's calendar free for more than n granules from now? -/
def State.gapBeyond (s : State) (e n : Nat) : Bool :=
  (match s.nextGuaranteed e with | some g => decide (n < g) | none => true)
  && (match s.nextWindow e with | some g => decide (n < g) | none => true)

/-! ## Field-test units -/

/-- The number of scan and known-answer segments of a unit's test (R567). -/
def unitSegments (unit : Nat) : Nat × Nat :=
  match eKind unit with
  | 0 => (160, 8) | 1 => (128, 8) | 2 => (16, 2) | 3 => (16, 2) | 4 => (8, 2) | 5 => (8, 2)
  | 6 => (0, 12) | 7 => (0, 8) | 8 => (0, 4) | 9 => (0, 4) | 10 => (0, 4) | 11 => (0, 4) | 12 => (0, 4) | 13 => (0, 2)
  | _ => (0, 0)

/-- Does the identifier name a unit: a physical matrix engine 0 to 17 as index 32 + PHYS, or any other engine (R567)? -/
def unitExists (unit : Nat) : Bool :=
  if eKind unit = 0 then decide (unit < 65536) && decide (eDie unit < 8) && decide (32 ≤ eIdx unit) && decide (eIdx unit < 50)
  else eExists unit

/-- The record of a unit; a unit not listed is NORMAL. -/
def State.unit (s : State) (u : Nat) : FtUnit := (Table.get? s.ft.units u).getD {}

/-- A unit's record changed. -/
def State.setUnit (s : State) (u : Nat) (x : FtUnit) : State := s.setFt { s.ft with units := Table.put s.ft.units u x }

/-- The method of a unit's current test: 0 scan, 1 known answer, which a scan unit falls back to without a verified library or after
poisoned patterns (R567, R568). -/
def State.methodOf (s : State) (u : Nat) : Nat :=
  if (unitSegments u).1 = 0 ∨ ¬ s.flag FTS_STATUS F.FTS_STATUS_LIB_OK then 1 else (s.unit u).method

/-- The segments of a unit's current test. -/
def State.segmentsOf (s : State) (u : Nat) : Nat := if s.methodOf u = 0 then (unitSegments u).1 else (unitSegments u).2

/-- A unit's test becomes due, under the settings as they stand (R590). -/
def State.markDue (s : State) (u : Nat) : State :=
  let x := s.unit u
  if x.due then s
  else s.setUnit u { x with due := true, tune := s.expert FTS_X_TUNE, passEvent := s.flag FTS_CFG F.FTS_CFG_PASS_EVENT }

/-- The logical engine that a unit stands for: a matrix unit by the engine mapped onto it (R557). -/
def State.unitEngine (s : State) (u : Nat) : Option Nat :=
  if eKind u = 0 then
    ((List.range 16).find? (fun i => s.fld (TD_ME_STATUS (eDie u) i) F.TD_ME_STATUS_PHYS = eIdx u - 32)).map (fun i => eId (eDie u) 0 i)
  else some u

/-- Is the unit under test now, and in a reserved window? -/
def State.underTest (s : State) (u : Nat) : Option Bool :=
  match Table.get? s.ft.running (eDie u) with
  | some (v, reserved) => if v = u then some reserved else none
  | none => none

/-- ABORT_LIMIT of a unit's test: 4, or the expert value (R572). -/
def FtUnit.abortLimit (x : FtUnit) : Nat := orElse (fget x.tune F.FTS_X_TUNE_ABORT_LIMIT) 4

/-- Is a run of 60 granules from g free on the unit in watch w (R573)? -/
def State.windowFree (s : State) (u w g : Nat) : Bool :=
  let held : List (Nat × Nat) := match s.unitEngine u with
    | some e => s.held e w
    | none => (s.ft.windows.filter (fun (x : FtWindow) => decide (x.unit = u) && decide (x.watch = w))).map (fun (x : FtWindow) => (x.gran, 60))
  held.all (fun h => !overlaps h (g, 60))

/-- The first granule of a free run of 60 in a watch. -/
def State.windowIn (s : State) (u w : Nat) : Option Nat := (List.range 191).find? (fun g => s.windowFree u w g)

/-- The earliest watch at or after w, before the end, with a free run (at most fuel watches are tried). -/
def State.findWindow (s : State) (u : Nat) : Nat → Nat → Nat → Nat × Nat
  | 0, _, last => (last, 0)
  | fuel + 1, w, last =>
    if last ≤ w then (last, 0)
    else match s.windowIn u w with
      | some g => (w, g)
      | none => s.findWindow u fuel (w + 1) last

/-- One window for each of n segments, each in the earliest such watch after the one before (R573). -/
def State.placeWindows (s : State) (u : Nat) : Nat → Nat → State
  | 0, _ => s
  | n + 1, from' =>
    let x := s.findWindow u 65536 from' (s.watch + 65536)
    (s.setFt { s.ft with windows := s.ft.windows ++ [⟨u, x.1, x.2⟩] }).placeWindows u n (x.1 + 1)

/-- The unit's next test runs in reserved windows, from its due watch on (R572, R573, R575). -/
def State.reserveTest (s : State) (u due : Nat) : State :=
  let s0 := s.markDue u
  let s1 := s0.setUnit u { s0.unit u with reserved := true }
  s1.placeWindows u (s1.segmentsOf u - (s1.unit u).segment) (max due (s.watch + 2))

/-- Units counted in FTS_STATUS. -/
def State.countUnits (s : State) : State :=
  let n (p : FtUnit → Bool) : Nat := (s.ft.units.filter (fun e => p e.2)).length
  ((s.putFld FTS_STATUS F.FTS_STATUS_SUSPECT (n (fun x => decide (x.state = 1)))).putFld FTS_STATUS F.FTS_STATUS_STARVED
    (n (fun x => x.starved))).putFld FTS_STATUS F.FTS_STATUS_RETIRED (n (fun x => decide (2 ≤ x.state)))

/-- A unit becomes test-starved (R572): the alarm, an event, and its next test in reserved windows. -/
def State.starve (s : State) (u : Nat) : State :=
  if (s.unit u).starved then s
  else
    let s1 := (s.setUnit u { s.unit u with starved := true }).alarmFts F.FTS_ALARM_FT_STARVED
    ((s1.event (eDie u) u 0xFF 0xC05 [u, (s.unit u).segment, (s.unit u).passWatch]).reserveTest u s.watch).countUnits

/-- A running normal segment on a unit is aborted and discarded; the engine's state comes back (R571, R572). -/
def State.abortTest (s : State) (u : Nat) : State :=
  match s.underTest u with
  | some false =>
    let x := s.unit u
    let s1 := (s.setFt { s.ft with running := Table.del s.ft.running (eDie u) }).count FTS_ABORTS
    let s2 := (s1.setUnit u { x with aborts := min (x.aborts + 1) 7 })
    let s3 := match s.unitEngine u with | some e => s2.rest e | none => s2
    if x.abortLimit ≤ x.aborts + 1 then s3.starve u else s3
  | _ => s

/-- Is the engine under a test in a reserved window, which no request aborts (R573)? -/
def State.testReserved (s : State) (e : Nat) : Bool := s.underTest (s.engineSource e) = some true

end Sys2Proof.Machine
end

