-- ==== Sys2Proof/Machine/Admission.lean ====
section
/-! DEFINITION. Admission (R58 to R73, R82, R85 to R87, R253, R415, R548, R614). -/
namespace Sys2Proof.Machine

/-- A plan as read from the partition's memory: header fields (R58), slots (R59) with their demand entries, and the reserved
counts of the demand table. -/
structure PlanText where
  version : Nat
  cls : Nat
  mode : Nat
  slotCount : Nat
  startWatch : Nat
  slotTable : Nat
  demandTable : Nat
  demandCount : Nat
  buoy : Nat
  result : Nat
  tag : Nat
  slots : List Slot
  refs : List Nat
  reservedDemand : Bool
  deriving DecidableEq, Repr

/-- Consecutive pieces of n bytes. -/
def chunks (n : Nat) : Nat → List Byte → List (List Byte)
  | 0, _ => []
  | k + 1, bs => bs.take n :: chunks n k (bs.drop n)

/-- The sixteen counts of a demand entry (R62). -/
def demandOf (bs : List Byte) : List Nat := (List.range 16).map (fun i => leAt bs (4 * i) 4)

/-- A slot entry (R59) with its demand entry. -/
def slotOf (bs : List Byte) (demands : List (List Nat)) : Slot :=
  { engine := leAt bs 0 2, off := leAt bs 2 2, gran := byteOf bs 4, count := byteOf bs 5
    demand := (demands[leAt bs 6 2]?).getD [], stream := leAt bs 8 8, energy := leAt bs 16 4, cycles := leAt bs 20 4
    state := .waiting }

/-- The plan's text from its header, slot table and demand table. -/
def planText (h slots demands : List Byte) : PlanText :=
  let ds := (chunks 64 (min (leAt h 32 2) 16384) demands).map demandOf
  let ss := chunks 32 (min (leAt h 4 4) 16384) slots
  { version := leAt h 0 2, cls := byteOf h 2, mode := byteOf h 3, slotCount := leAt h 4 4, startWatch := leAt h 8 8
    slotTable := leAt h 16 8, demandTable := leAt h 24 8, demandCount := leAt h 32 2, buoy := leAt h 34 2
    result := leAt h 40 8, tag := leAt h 48 8, slots := ss.map (fun b => slotOf b ds), refs := ss.map (fun b => leAt b 6 2)
    reservedDemand := ds.all (fun d => decide ((d[14]?).getD 0 = 0) && decide ((d[15]?).getD 0 = 0)) }

/-- What reading a plan gives (R614): unreadable header; readable header with a result record that can be written or not, and
the text where everything can be read. -/
structure PlanRead where
  state : State
  result : Option Nat
  text : Option PlanText

/-- Admission reads the header, slot table, demand table and result record through the partition's tables (R68); a poisoned
read counts as not readable, and no poison is consumed. -/
def State.readPlan (s : State) (p va : Nat) : PlanRead :=
  match s.pRead p va 64 with
  | .error _ => ⟨s, none, none⟩
  | .ok (h, s1) =>
    let res := leAt h 40 8
    let writable := match s1.ownPieces p (pagePieces res 32) with | .ok _ => true | .error _ => false
    let rec1 := if writable then some res else none
    match s1.pRead p res 32 with
    | .error _ => ⟨s1, rec1, none⟩
    | .ok (_, s2) =>
      match s2.pRead p (leAt h 16 8) (min (leAt h 4 4) 16384 * 32) with
      | .error _ => ⟨s2, rec1, none⟩
      | .ok (st, s3) =>
        match s3.pRead p (leAt h 24 8) (min (leAt h 32 2) 16384 * 64) with
        | .error _ => ⟨s3, rec1, none⟩
        | .ok (dt, s4) => ⟨s4, rec1, if writable then some (planText h st dt) else none⟩

/-! ## The checks that hold for every candidate -/

/-- Is there a slot of the plan on an engine with the same place in time? -/
def hasPartner (slots : List Slot) (engine : Nat) (x : Slot) : Bool :=
  slots.any (fun y => decide (y.engine = engine) && decide (y.off = x.off) && decide (y.gran = x.gran) && decide (y.count = x.count))

/-- A lent slot (R253) has a matching slot on its die's sequencer; a feed slot (R415) has STREAM 0 and a matching slot on its
die's order generator. -/
def partnered (slots : List Slot) (x : Slot) : Bool :=
  if eKind x.engine ≤ 1 then x.stream ≠ 0 || hasPartner slots (eId (eDie x.engine) 5 0) x
  else if 8 ≤ eKind x.engine ∧ eKind x.engine ≤ 12 then x.stream = 0 && hasPartner slots (eId (eDie x.engine) 13 0) x
  else true

/-- SHAPE of one slot (R59, R60). -/
def slotShape (guaranteed : Bool) (demandCount : Nat) (x : Slot) (ref : Nat) : Bool :=
  decide (x.off ≤ 16383) && decide (x.gran ≤ 249) && decide (3 ≤ x.count) && decide (x.count ≤ 250)
  && decide (x.gran + x.count ≤ 250) && (decide (ref = 0xFFFF) || decide (ref < demandCount))
  && (!guaranteed || decide (x.cycles + 3200 ≤ x.count * 1600))

/-- SHAPE (R58 to R60, R62, R253, R415). -/
def PlanText.shape (t : PlanText) : Bool :=
  decide (t.version = 1) && decide (t.cls ≤ 1) && decide (t.mode ≤ 1) && decide (1 ≤ t.slotCount) && decide (t.slotCount ≤ 16384)
  && decide (t.startWatch < 2 ^ 48) && decide (t.slotTable % 32 = 0) && decide (t.demandTable % 64 = 0)
  && decide (t.demandCount ≤ 16384) && (decide (t.demandCount ≠ 0) || decide (t.demandTable = 0))
  && decide (t.buoy ≤ 16383) && decide (t.result % 32 = 0) && t.reservedDemand
  && (t.slots.zip t.refs).all (fun x => slotShape (decide (t.cls = 0)) t.demandCount x.1 x.2)
  && t.slots.all (partnered t.slots)

/-- ENGINE: every engine exists, is held by the partition or shared with it, and is available (R68, R126). -/
def State.planEngines (s : State) (p : Nat) (t : PlanText) : Bool :=
  t.slots.all (fun x => eExists x.engine && s.engineOf p x.engine && !s.unavailable x.engine)

/-! ## Capacities -/

/-- The granules of a slot in band b. -/
def granulesIn (gran count b : Nat) : Nat := min (gran + count) (25 * b + 25) - max gran (25 * b)

/-- A slot's share of a demand count in band b (R69), in KiB. -/
def share (x : Slot) (d b : Nat) : Nat := ceilDiv (d * granulesIn x.gran x.count b) x.count

/-- The demand counts of a resource class (R62, R68): HBM, host DRAM, flash read, flash write, then the four links out and
the four links in. -/
def resourceCounts : Nat → List Nat
  | 0 => [0, 1] | 1 => [2, 3] | 2 => [4] | 3 => [5] | n => [n + 2]

/-- A slot's share of a resource in a band. -/
def resourceShare (x : Slot) (r b : Nat) : Nat := (resourceCounts r).foldl (fun n i => n + share x ((x.demand[i]?).getD 0) b) 0

/-- The reservable percentage of a resource class in effect (R69, R83): the expert field where set, at most 100. -/
def State.reservable (s : State) (cls : Nat) : Nat :=
  let f : Fld := ⟨8 * cls + 7, 8 * cls⟩
  let x := s.xfld WCH_X_RESV_PCT f
  if x = 0 then s.fld WCH_RESV_PCT f else min x 100

/-- The flash capacities after stack losses (R341, R342): halved while a lost stack is not rebuilt, 15/16 once it is. -/
def State.flashCap (s : State) (c : Nat) : Nat :=
  let states := (List.range 16).map (fun f => s.fld (DFT_STACK f) F.DFT_STACK_STATE)
  if states.contains 1 then c / 2 else if states.contains 2 then c * 15 / 16 else c

/-- The reservable capacity of a resource per band, in KiB (R69). -/
def State.capacity (s : State) (r : Nat) : Nat :=
  let c := if r = 0 then s.fld WCH_CAP_MEM F.WCH_CAP_MEM_HBM
    else if r = 1 then s.fld WCH_CAP_IO F.WCH_CAP_IO_HDRAM
    else if r = 2 then s.flashCap (s.fld WCH_CAP_MEM F.WCH_CAP_MEM_FLASH_RD)
    else if r = 3 then s.flashCap (s.fld WCH_CAP_MEM F.WCH_CAP_MEM_FLASH_WR)
    else s.fld WCH_CAP_IO F.WCH_CAP_IO_LINK
  c * s.reservable (if r < 4 then r else if r < 8 then 4 else 5) / 100

/-- The guaranteed slots accepted in a watch. -/
def State.slotsIn (s : State) (w : Nat) : List Slot :=
  (s.adm.plans.map (fun p => if p.2.guaranteed then p.2.slots.filter (fun x => decide (p.2.start + x.off = w) && x.state.holds) else [])).flatten

/-- The energy of a partition's accepted guaranteed slots in a watch, in uJ. -/
def State.energyIn (s : State) (p w : Nat) : Nat :=
  s.adm.plans.foldl (fun n pl => if pl.2.guaranteed ∧ pl.2.part = p then
    pl.2.slots.foldl (fun n x => if pl.2.start + x.off = w ∧ x.state.holds then n + x.energy else n) n else n) 0

/-- CALENDAR for one slot in its watch: no overlap with what its engine's calendar holds; on a shared engine with window records, only the
granules of the partition's own windows (R548). -/
def State.slotFits (s : State) (p w : Nat) (x : Slot) : Bool :=
  (s.held x.engine w).all (fun h => !overlaps h (x.gran, x.count)) &&
  (let ws := s.boot.chart.windows.filter (fun d => d.engine = x.engine)
   ws.isEmpty || (List.range x.count).all (fun i => ws.any (fun d => decide (d.part = p) && decide (d.gran ≤ x.gran + i)
     && decide (x.gran + i < d.gran + d.count))))

/-- Do slots of the plan itself overlap on one engine? -/
def selfOverlap : List Slot → Bool
  | [] => false
  | x :: l => l.any (fun y => decide (y.engine = x.engine) && decide (y.off = x.off) && overlaps (x.gran, x.count) (y.gran, y.count))
    || selfOverlap l

/-- The watches a plan occupies, by offset. -/
def offsets (slots : List Slot) : List Nat := (slots.map (·.off)).eraseDups

/-- A resource stays within its capacity in every band the plan occupies in a watch; a PACED governor also bounds the
package's flash writes per band to 46 KiB (R339). -/
def State.bandFits (s : State) (slots : List Slot) (r w off b : Nat) : Bool :=
  let mine := slots.filter (fun x => decide (x.off = off))
  if mine.all (fun x => granulesIn x.gran x.count b = 0) then true
  else
    let total := (s.slotsIn w ++ mine).foldl (fun n x => n + resourceShare x r b) 0
    decide (total ≤ s.capacity r) && (decide (r ≠ 3) || decide (s.fld DFT_STATUS F.DFT_STATUS_GOV ≠ 1) || decide (total ≤ 46))

/-- Does a resource fit in all the plan's watches and bands? -/
def State.resourceFits (s : State) (slots : List Slot) (r start : Nat) : Bool :=
  (offsets slots).all (fun off => (List.range 10).all (fun b => s.bandFits slots r (start + off) off b))

/-- Does a plan with flash write demand meet a tier that takes no writes (R312, R337, R342)? -/
def State.flashClosed (s : State) (p : Nat) (slots : List Slot) : Bool :=
  slots.any (fun x => (x.demand[5]?).getD 0 ≠ 0) && (!s.flashWritable || s.budgetSpent p)

/-- POWER in every watch of the plan (R68): its partition's energy within SHARE_W x 250 us. -/
def State.powerFits (s : State) (p : Nat) (slots : List Slot) (start : Nat) : Bool :=
  (offsets slots).all (fun off =>
    decide (s.energyIn p (start + off) + (slots.filter (fun x => x.off = off)).foldl (fun n x => n + x.energy) 0
      ≤ s.fld (WCH_PART_STATUS p) F.WCH_PART_STATUS_SHARE_W * 250))

/-- The first check of R68 that fails at a candidate start watch, from CALENDAR on; 0 where the plan fits. -/
def State.candidate (s : State) (p : Nat) (slots : List Slot) (start : Nat) : Nat :=
  if selfOverlap slots ∨ ¬ slots.all (fun x => s.slotFits p (start + x.off) x) then 3
  else if ¬ s.resourceFits slots 0 start then 4
  else if ¬ s.resourceFits slots 1 start then 5
  else if ¬ s.resourceFits slots 2 start then 6
  else if s.flashClosed p slots ∨ ¬ s.resourceFits slots 3 start then 7
  else if ¬ (List.range 8).all (fun i => s.resourceFits slots (4 + i) start) then 8
  else if ¬ s.powerFits p slots start then 9
  else if s.watch + 65536 ≤ start + slots.foldl (fun m x => max m x.off) 0 then 13
  else 0

/-- The earliest start watch from w on at which the plan fits, among fuel candidates. -/
def State.search (s : State) (p : Nat) (slots : List Slot) : Nat → Nat → Option Nat
  | 0, _ => none
  | fuel + 1, w => if s.candidate p slots w = 0 then some w else s.search p slots fuel (w + 1)

/-- The lead L (R67): 2 watches, or the expert lead. -/
def State.lead (s : State) : Nat := orElse (s.xfld WCH_X_TUNE F.WCH_X_TUNE_LEAD) 2

/-- Can the admission unit meet a start watch less than 2 watches after the decision (R87)? A free bit. -/
def State.meets (s : State) (w : Nat) : Bool := decide (s.watch + 2 ≤ w) || s.anyBool

/-- The decision on a guaranteed plan whose checks DESCRIPTOR to THERMAL pass: the granted start watch, or the reason with
the earliest feasible watch, 0 for none (R67, R68, R70, R87). -/
def State.verdict (s : State) (p : Nat) (t : PlanText) : Nat ⊕ (Nat × Nat) :=
  let first0 := max t.startWatch (s.watch + s.lead)
  let first := if s.meets first0 then first0 else max first0 (s.watch + 2)
  let found := s.search p t.slots 65536 first
  if t.mode = 0 then
    match found with
    | some w => .inl w
    | none => .inr (13, 0)
  else if t.startWatch < s.watch + s.lead ∨ ¬ s.meets t.startWatch then .inr (10, found.getD 0)
  else
    let c := s.candidate p t.slots t.startWatch
    if c = 0 then .inl t.startWatch else .inr (c, found.getD 0)

/-! ## Accepting and rejecting -/

/-- A rejection (R70, R614): counted, and recorded where the record can be written. -/
def State.reject (s : State) (p : Nat) (result : Option Nat) (reason a : Nat) : State :=
  let s1 := s.count WCH_REJECTED
  match result with
  | none => s1.setBit (WCH_PART_STATUS p) F.WCH_PART_STATUS_NO_RESULT
  | some r => (s1.pStore p r (resultBytes 2 reason 0 a 0 0xFFFFFFFF)).getD s1

/-- An acceptance (R72, R73): the next PLAN_ID, the plan with its slots, the result record; normal test segments running on
its engines are aborted (R76, R571). -/
def State.accept (s : State) (p : Nat) (t : PlanText) (start : Nat) : State :=
  let id := s.adm.lastId + 1
  let pl : Plan := { part := p, guaranteed := decide (t.cls = 0), start := start, buoy := t.buoy, result := t.result, tag := t.tag
                     slots := t.slots, ending := 0, endSlot := 0xFFFFFFFF }
  let s1 := (s.setAdm { s.adm with plans := Table.put s.adm.plans id pl, lastId := id }).count WCH_ACCEPTED
  let s2 := if pl.guaranteed then t.slots.foldl (fun s x => s.abortTest (s.engineSource x.engine)) s1 else s1
  s2.writeRecord pl id 1 0xFFFFFFFF

/-- The decision on a submission (R65 to R73, R614). -/
def State.decideFront (s : State) (p va : Nat) : State :=
  let rd := s.readPlan p va
  let s1 := rd.state
  match rd.text with
  | none => s1.reject p rd.result 12 0
  | some t =>
    if ¬ t.shape then s1.reject p rd.result 2 0
    else if ¬ s1.planEngines p t then s1.reject p rd.result 1 0
    else if ¬ s1.ownsBuoy p t.buoy then s1.reject p rd.result 14 0
    else if t.cls = 1 then s1.accept p t 0
    else if s1.flag PWR_STATUS F.PWR_STATUS_EMERG then s1.reject p rd.result 11 0
    else match s1.verdict p t with
      | .inl w => s1.accept p t w
      | .inr (reason, a) => s1.reject p rd.result reason a

/-- The QUEUE field of a partition follows the submission queue. -/
def State.showQueue (s : State) (p : Nat) : State :=
  s.putFld (WCH_PART_STATUS p) F.WCH_PART_STATUS_QUEUE (s.adm.queue.filter (fun q => q.part = p)).length

/-- A GO write: the plan at WCH_SUB_ADDR is queued, or refused on a full queue of 16 (R65, R66, R86). -/
def State.submit (s : State) (p : Nat) : State :=
  if 16 ≤ (s.adm.queue.filter (fun q => q.part = p)).length then s.setBit (WCH_PART_STATUS p) F.WCH_PART_STATUS_SUB_REFUSED
  else
    let va := s.addr (WCH_SUB_ADDR p) F.WCH_SUB_ADDR_ADDR_LO F.WCH_SUB_ADDR_ADDR_HI
    (s.setAdm { s.adm with queue := s.adm.queue ++ [⟨p, va⟩] }).showQueue p

/-- PLAN_ADMIT: the admission unit takes the front submission and decides it (R65, R67). -/
def execPlanAdmit (s : State) : Out :=
  match s.adm.queue with
  | [] => .next s
  | q :: rest => .next ((((s.setAdm { s.adm with queue := rest }).showQueue q.part).decideFront q.part q.va).tookFree)

end Sys2Proof.Machine
end

