-- ==== Sys2Proof/Machine/FlashTier.lean ====
section
/-! DEFINITION. The deep flash tier: programming and durability (R320 to R328), relocation and patrol (R322, R323), step marks
(R340), stack loss (R341, R342). Accepted writes and the wear governor's charge for them are in Machine/Store.lean. -/
namespace Sys2Proof.Machine

/-! ## Programming and durability -/

/-- The oldest full stripe of the write cache is programmed, with its parity (R320, R336). -/
def State.programStripe (s : State) : State :=
  if s.flash.full = 0 then s else (s.setFlash { s.flash with full := s.flash.full - 1 }).program stripeBytes 15

/-- Every full stripe is programmed. -/
def State.programAll (s : State) : State := (List.range s.flash.full).foldl (fun s _ => s.programStripe) s

/-- The open stripe closes with parity over the pages present: whole pages are programmed (R326). -/
def State.closeStripe (s : State) : State :=
  if s.flash.stripe = 0 then s
  else (s.setFlash { s.flash with stripe := 0 }).program s.flash.stripe (ceilDiv s.flash.stripe 16384)

/-- STRIPE_CLOSE: two watches after its first write a partial stripe closes (R326). -/
def execStripeClose (s : State) : Out :=
  if s.flash.stripe ≠ 0 ∧ s.flash.stripeWatch + 2 ≤ s.watch ∧ ¬ s.log.final then .next s.closeStripe else .next s

/-- WRITE_CACHE_ROOM: a full stripe leaves the write cache, and a writer that waits for room can issue (R327). -/
def execWriteCacheRoom (s : State) : Out := if s.log.final then .next s else .next s.programStripe

/-- The latest durable watch. -/
def State.durable (s : State) : Nat :=
  s.fld DFT_DURABLE F.DFT_DURABLE_WATCH_LO + s.fld DFT_DURABLE F.DFT_DURABLE_WATCH_HI * 2 ^ 32

/-- The durability buoy of each partition that names one of its own (R328). -/
def State.durabilityBuoys (s : State) (w : Nat) : State :=
  s.boot.chart.parts.foldl (fun s d =>
    let b := s.fld (DFT_DUR_BUOY d.num) F.DFT_DUR_BUOY_BUOY
    if s.flag (DFT_DUR_BUOY d.num) F.DFT_DUR_BUOY_EN ∧ s.ownsBuoy d.num b then s.putBuoy b (BitVec.ofNat 64 (w + 1)) else s) s

/-- DURABLE_ADVANCE: the next watch in order is over and every stripe with its writes is programmed; its commit record makes it
durable (R325, R328). -/
def execDurableAdvance (s : State) : Out :=
  let w := s.durable + 1
  if w < s.watch ∧ (s.flash.stripe = 0 ∨ w < s.flash.stripeWatch) ∧ ¬ s.log.final then
    let s1 := s.programAll
    let s2 := s1.setFlash { s1.flash with accepted := s1.flash.accepted.filter (fun a => w < a.watch) }
    let s3 := (s2.putFld DFT_DURABLE F.DFT_DURABLE_WATCH_LO w).putFld DFT_DURABLE F.DFT_DURABLE_WATCH_HI (w / 2 ^ 32)
    .next (s3.durabilityBuoys w)
  else .next s

/-! ## Relocation -/

/-- READ_LIMIT in effect: 60,000 reads, or an expert value of 10 to 250 thousand (R322, R343). -/
def State.readLimit (s : State) : Nat :=
  let k := s.xfld DFT_X_TUNE F.DFT_X_TUNE_READ_LIMIT_K
  if 10 ≤ k ∧ k ≤ 250 then k * 1000 else 60000

/-- A block's relocation starts. -/
def State.relocate (s : State) (block : Nat) : State :=
  if s.flash.relocating.contains block then s else s.setFlash { s.flash with relocating := block :: s.flash.relocating }

/-- READ_LIMIT_RELOCATE: a block's reads since its last erase reach the limit (R322). -/
def execReadLimitRelocate (block : Nat) (s : State) : Out :=
  if s.readLimit ≤ (Table.get? s.flash.reads block).getD 0 then .next (s.relocate block) else .next s

/-- FLASH_PATROL: the patrol reads a block, and relocates one beyond the retention threshold (R322). -/
def execFlashPatrol (block : Nat) (weak : Bool) (s : State) : Out :=
  let s1 := s.setFlash { s.flash with reads := Table.put s.flash.reads block ((Table.get? s.flash.reads block).getD 0 + 1) }
  if weak then .next (s1.relocate block) else .next s1

/-- RELOCATION_DONE: the destination is durable; the source block is erased and free. A free number of pages was moved, which
count as relocated and as NAND writes (R322, R323, R336). -/
def execRelocationDone (block : Nat) (s : State) : Out :=
  if s.flash.relocating.contains block then
    let pages := s.anyNat
    let s1 := s.setFlash { s.flash with relocating := s.flash.relocating.filter (· ≠ block),
                                        reads := Table.del s.flash.reads block, moves := s.flash.moves + 1 }
    .next (((s1.count DFT_NAND_WR (pages * 16384)).count DFT_RELOC (pages * 16384)).govern).tookFree
  else .next s

/-! ## Step marks -/

/-- The estimates after 16 intervals: H host bytes and A (at least 1) per step (R340). -/
def State.lifeEstimate (s : State) (host nand : Nat) : State :=
  if host = 0 then s.putReg DFT_LIFE_STEPS (BitVec.ofNat 64 (2 ^ 64 - 1))
  else
    let a := max host nand
    let left := (36 * 10 ^ 16 - (s.reg DFT_NAND_WR).toNat) * 16 / a
    let opened := (s.flash.credit * 16 / (host : Int)).toNat
    ((s.putFld DFT_LIFE_STEPS F.DFT_LIFE_STEPS_STEPS (min left 0xFFFFFFFF)).putFld DFT_LIFE_STEPS F.DFT_LIFE_STEPS_OPEN_STEPS
      (min opened 0xFFFFFFFF)).putFld DFT_LIFE F.DFT_LIFE_WA_MILLI (min (a * 1000 / host) 0xFFFF)

/-- A step mark: the host and NAND bytes so far; the estimates follow once 16 intervals lie behind (R340). -/
def State.stepMark (s : State) : State :=
  let h := (s.reg DFT_HOST_WR).toNat
  let n := (s.reg DFT_NAND_WR).toNat
  let marks := ((h, n) :: s.flash.marks).take 17
  let s1 := s.setFlash { s.flash with marks := marks }
  match marks[16]? with
  | some (h0, n0) => s1.lifeEstimate (h - h0) (n - n0)
  | none => s1.putReg DFT_LIFE_STEPS (BitVec.ofNat 64 (2 ^ 64 - 1))

/-! ## Stack loss -/

/-- The state of each stack but one: 0 in service, 1 LOST, 2 LOST and rebuilt. -/
def State.otherStacks (s : State) (f : Nat) : List Nat :=
  ((List.range 16).filter (· ≠ f)).map (fun i => s.fld (DFT_STACK i) F.DFT_STACK_STATE)

/-- FLASH_STACK_LOST: a stack fails (R341); during another's rebuild every sector whose stripe lost two members is poisoned, and
after one the tier becomes read-only (R342). Which sectors have been rebuilt by then is free. -/
def execFlashStackLost (f : Nat) (s : State) : Out :=
  if f < 16 ∧ s.fld (DFT_STACK f) F.DFT_STACK_STATE = 0 then
    let s1 := (s.putFld (DFT_STACK f) F.DFT_STACK_STATE 1).putFld (DFT_STACK f) F.DFT_STACK_REBUILD_PCT 0
    let s2 := (s1.setBit DFT_STATUS F.DFT_STATUS_DEGRADED).alarmDft F.DFT_ALARM_FLASH_STACK_LOST
    let others := s.otherStacks f
    let s3 := if others.contains 1 then (s2.setFlash { s2.flash with double := some s2.free, clean := [] }).tookFree else s2
    if others.contains 2 then .next (s3.setBit DFT_STATUS F.DFT_STATUS_READ_ONLY) else .next s3
  else .next s

/-- STACK_REBUILD_DONE: the lost stack's data stands in 14 + 1 stripes on the others (R342); the pages written are a free number
that counts as NAND writes (R336). -/
def execStackRebuildDone (f : Nat) (s : State) : Out :=
  if f < 16 ∧ s.fld (DFT_STACK f) F.DFT_STACK_STATE = 1 then
    let s1 := (s.putFld (DFT_STACK f) F.DFT_STACK_STATE 2).putFld (DFT_STACK f) F.DFT_STACK_REBUILD_PCT 100
    let s2 := if (s.otherStacks f).contains 1 then s1 else s1.clrBit DFT_STATUS F.DFT_STATUS_DEGRADED
    .next ((s2.count DFT_NAND_WR (s.anyNat * 16384)).govern).tookFree
  else .next s

end Sys2Proof.Machine
end

