-- ==== Sys2Proof/Machine/Mailbox.lean ====
section
/-! DEFINITION. Crossing queues and mailboxes (R201 to R214). A queue is held as its entries: what the pointers, their copies
and the synchronisers of R202 to R205 amount to is a first-in first-out list that a reset empties (log entry 10). -/
namespace Sys2Proof.Machine

/-- Mailbox m of partition p, as index 3 p + m. -/
def State.mbox (s : State) (i : Nat) : Mailbox := (Table.get? s.xq.mail i).getD {}

/-- A mailbox changed. -/
def State.putMbox (s : State) (i : Nat) (m : Mailbox) : State := s.setXq { s.xq with mail := Table.put s.xq.mail i m }

/-- The depth of a mailbox by its index m (R209). -/
def mboxDepth (m : Nat) : Nat := if m = 0 then 256 else 64

/-- The drop bit of a mailbox in MBX_STATUS; K2H, which only the Keeper writes, has none. -/
def State.dropBit (s : State) (p m : Nat) : State :=
  if m = 0 then s.setBit (MBX_STATUS p) F.MBX_STATUS_E2H_DROP
  else if m = 1 then s.setBit (MBX_STATUS p) F.MBX_STATUS_H2K_DROP
  else s

/-- An entry posted to mailbox m of partition p; one that finds it full or in reset is discarded and counted (R210). -/
def State.post (s : State) (p m : Nat) (v : Word) : State :=
  let b := s.mbox (3 * p + m)
  if b.resetting ∨ mboxDepth m ≤ b.entries.length then (s.count (MBX_DROPS p)).dropBit p m
  else s.putMbox (3 * p + m) { b with entries := b.entries ++ [v] }

/-- The oldest entry of a mailbox, removed, with its value; zero and nothing removed in reset; an empty mailbox sets its
underflow bit (R211, R212). -/
def State.takeMail (s : State) (p m : Nat) (under : Fld) : State × Word :=
  let b := s.mbox (3 * p + m)
  if b.resetting then (s, 0)
  else match b.entries with
    | [] => (s.setBit (MBX_STATUS p) under, 0)
    | v :: rest => (s.putMbox (3 * p + m) { b with entries := rest }, v)

/-- The count register of a mailbox; a mailbox in reset reads empty (R208). -/
def State.mailCount (s : State) (p m : Nat) : Nat := if (s.mbox (3 * p + m)).resetting then 0 else (s.mbox (3 * p + m)).entries.length

/-- A mailbox reset by command starts: its entries are discarded, and its bit in MBX_CTRL reads 1 until it completes (R212). -/
def State.resetMail (s : State) (p m : Nat) : State :=
  (s.putMbox (3 * p + m) { entries := [], resetting := true, commanded := true }).setBit (MBX_CTRL p) ⟨m, m⟩

/-- BUY_XQ_LAST's image. -/
def xqWord (die wr rd mbx lost : Nat) : Word :=
  fset (fset (fset (fset (fset (fset 0 F.BUY_XQ_LAST_DIE die) F.BUY_XQ_LAST_WR_DOM wr) F.BUY_XQ_LAST_RD_DOM rd)
    F.BUY_XQ_LAST_MBX mbx) F.BUY_XQ_LAST_LOST lost) F.BUY_XQ_LAST_VALID 1

/-- What the B9 reports of a reset under R205 (R206): the counter, the record and a class 5 event of the BUY block. -/
def State.xqReport (s : State) (image : Word) : State :=
  ((s.count BUY_XQ_RESETS).putReg BUY_XQ_LAST image).blockEvent 32 0xFF 0x500 [image.toNat]

/-- The writer and reader clock domains of a mailbox (R209): die-to-die to host uncore, host uncore to Keeper, Keeper to host
uncore. PRESUMED for the software side: the spec names no domain for it, and the host uncore carries software's accesses. -/
def mailDomains (m : Nat) : Nat × Nat := if m = 0 then (4, 8) else if m = 1 then (8, 0) else (0, 8)

/-- A queue resets under R205 and R206. -/
def State.xqReset (s : State) : QueueId → State
  | .mailbox i =>
    if (s.mbox i).resetting then s
    else
      let d := mailDomains (i % 3)
      let lost := (s.mbox i).entries.length
      let s1 := s.putMbox i { entries := [], resetting := true, commanded := false }
      (s1.setBit (MBX_STATUS (i / 3)) ⟨8 + i % 3, 8 + i % 3⟩).xqReport (xqWord 18 d.1 d.2 i lost)
  | .log die =>
    if s.xq.resetting.contains (.log die) then s
    else
      let q := s.logQueue die
      let s1 := q.foldl (fun s x => match x with
        | .event source _ code _ _ _ => s.suppress source code
        | .trace .. => s.dropTrace die) s
      let s2 := (s1.setLog { s1.log with queues := Table.put s1.log.queues die [] })
      let s3 := s2.setXq { s2.xq with resetting := .log die :: s2.xq.resetting }
      s3.xqReport (xqWord die (s3.anyNat % 18) 0 0x7F q.length)
  | .other die wr rd held =>
    if s.xq.resetting.contains (.other die wr rd held) then s
    else
      (s.setXq { s.xq with resetting := .other die wr rd held :: s.xq.resetting }).xqReport (xqWord die wr rd 0x7F held)

/-- XQ_POINTER_MISMATCH: the two copies of a queue's pointer differ, and the queue resets (R205, R206). -/
def execXqPointerMismatch (q : QueueId) (s : State) : Out := .next (s.xqReset q).tookFree

/-- XQ_RESET_DONE: the reset of a queue under R205 completes. -/
def execXqResetDone (q : QueueId) (s : State) : Out :=
  match q with
  | .mailbox i =>
    let b := s.mbox i
    if b.resetting ∧ ¬ b.commanded then .next (s.putMbox i { b with resetting := false }) else .next s
  | q => .next (s.setXq { s.xq with resetting := s.xq.resetting.filter (· ≠ q) })

/-- MBX_RESET_DONE: a commanded mailbox reset completes (R212). -/
def execMbxResetDone (p m : Nat) (s : State) : Out :=
  let b := s.mbox (3 * p + m)
  if b.resetting ∧ b.commanded then
    .next ((s.putMbox (3 * p + m) { b with resetting := false, commanded := false }).clrBit (MBX_CTRL p) ⟨m, m⟩)
  else .next s

end Sys2Proof.Machine
end

