-- ==== Sys2Proof/Machine/Common.lean ====
section
/-! DEFINITION. The common commands (R176 to R190, R210): no-operation, the end of a segment, buoy operations and waits, mailbox
posts and time stamps. -/
namespace Sys2Proof.Machine

/-- A slot finishes: what its engine and its companions have stored goes out, and its plan ends with its last slot (R81, R117,
R176). -/
def State.finishSlot (s : State) (e : Nat) : State :=
  match Table.get? s.eng.runs e with
  | none => s
  | some r =>
    let s1 := ((s.companions e).foldl (fun s c => s.drain c) s).drain e
    (s1.stopAll e .finished).planEnd r.plan

/-- Are the bytes of an entry zero outside the listed ones? -/
def zeroBut (entry : List Byte) (used : List (Nat × Nat)) : Bool :=
  (List.range entry.length).all (fun i => used.any (fun u => decide (u.1 ≤ i) && decide (i < u.1 + u.2)) || byteOf entry i = 0)

/-- The bytes a common command uses (R178); the others are reserved in it (log entry 11). -/
def commonBytes (op : Nat) : List (Nat × Nat) :=
  if op = 2 then [(0, 16)]
  else if op = 3 ∨ op = 4 then [(0, 1), (2, 2), (8, 8)]
  else if op = 5 then [(0, 1), (2, 2), (8, 24)]
  else if op = 6 then [(0, 1), (8, 8)]
  else if op = 7 then [(0, 1), (24, 8)]
  else [(0, 1)]

/-- The CODEs of an ill-formed common command (R180), none for a well-formed one: 2 buoy not owned, 3 LIMIT_NS out of range, 4
alignment or a reserved field. -/
def State.commonCodes (s : State) (r : Run) (entry : List Byte) : List Nat :=
  let op := byteOf entry 0
  let limit := leAt entry 4 4
  errs [(decide (2 ≤ op ∧ op ≤ 5) && !s.ownsBuoy r.part (leAt entry 2 2), 2),
    (decide (op = 2 ∧ (250000 < limit ∨ (limit = 0 ∧ ¬ r.be))), 3),
    (!zeroBut entry (commonBytes op) || decide ((op = 2 ∧ 4 ≤ byteOf entry 1) ∨ (op = 5 ∧ leAt entry 24 8 % 8 ≠ 0)
      ∨ (op = 7 ∧ leAt entry 24 8 % 16 ≠ 0)), 4)]

/-- A common command runs: checked under R180, and started only when the engine's earlier commands have completed (R179): a
matrix engine whose shadow still loads stays where it is. -/
def State.common (s : State) (e op : Nat) (body : Run → List Byte → State → Res) : State :=
  s.runCmd e (isOp op) (fun r entry s1 =>
    if s1.commonCodes r entry ≠ [] then .illCommon (s1.commonCodes r entry)
    else if r.mx.loading then .stay s
    else body r entry (s1.exposeLoad e r true))

/-- NOP (R177). -/
def execNop (e : Nat) (s : State) : Out := .next (s.common e 0 (fun _ _ s1 => .done (s1.commonCycles e false)))

/-- END ends the segment (R176). -/
def execEnd (e : Nat) (s : State) : Out :=
  .next (s.common e 1 (fun _ _ s1 => .stay ((s1.commonCycles e false).tookFree.finishSlot e)))

/-- SEGMENT_END: the engine reaches byte 64 + LENGTH of its segment (R176). -/
def execSegmentEnd (e : Nat) (s : State) : Out :=
  match Table.get? s.eng.runs e with
  | none => .next s
  | some r =>
    if r.lent ∨ r.wait ≠ .none ∨ r.pos < r.length ∨ r.mx.loading then .next s
    else .next ((s.exposeLoad e r true).finishSlot e)

/-- The comparison of a BWAIT (R178). -/
def condHolds (cond : Nat) (v operand : Word) : Bool :=
  if cond = 0 then decide (operand ≤ v) else if cond = 1 then decide (v = operand)
  else if cond = 2 then decide (v ≠ operand) else decide (v < operand)

/-- A 64-bit field of an entry. -/
def word64 (entry : List Byte) (off : Nat) : Word := BitVec.ofNat 64 (leAt entry off 8)

/-- BWAIT: a condition already true ends it; otherwise the engine waits (R185, R190). -/
def execBwait (e : Nat) (s : State) : Out :=
  .next (s.common e 2 (fun _ entry s1 =>
    let b := leAt entry 2 2
    if condHolds (byteOf entry 1) (s1.buoy b) (word64 entry 8) then .done (s1.commonCycles e false)
    else .stay (s1.modRun e (fun r => { r with wait := .buoy (byteOf entry 1) b (word64 entry 8) (leAt entry 4 4) }))))

/-- BWAIT_SATISFIED: the condition of a waiting BWAIT holds at the end of a buoy-unit cycle, and the wait ends (R187). -/
def execBwaitSatisfied (e : Nat) (s : State) : Out :=
  match Table.get? s.eng.runs e with
  | none => .next s
  | some r => match r.wait with
    | .buoy cond b operand _ =>
      if condHolds cond (s.buoy b) operand then .next ((s.commonCycles e true).advance e 64) else .next s
    | _ => .next s

/-- BWAIT_EXPIRED: the limit of a waiting BWAIT passes with its condition still false: counted, recorded in BUY_ERR_LAST, and
the slot ends as PLAN_ERROR (R190). -/
def execBwaitExpired (e : Nat) (s : State) : Out :=
  match Table.get? s.eng.runs e with
  | none => .next s
  | some r => match r.wait with
    | .buoy cond b operand limit =>
      if limit = 0 ∨ condHolds cond (s.buoy b) operand then .next s
      else .next (((s.commonCycles e true).count BUY_WAIT_EXPIRED).illCommon e r 7).tookFree
    | _ => .next s

/-- BSIGNAL sets the buoy to OPERAND (R185). -/
def execBsignal (e : Nat) (s : State) : Out :=
  .next (s.common e 3 (fun _ entry s1 => .done ((s1.putBuoy (leAt entry 2 2) (word64 entry 8)).commonCycles e false)))

/-- BADD adds OPERAND to the buoy, modulo 2^64 (R185). -/
def execBadd (e : Nat) (s : State) : Out :=
  .next (s.common e 4 (fun _ entry s1 => .done ((s1.addBuoy (leAt entry 2 2) (word64 entry 8)).commonCycles e false)))

/-- BCMP writes the value it found to ADDR, acknowledged before it completes, and where that value equals OPERAND sets the buoy
to OPERAND2 (R179, R185). -/
def execBcmp (e : Nat) (s : State) : Out :=
  .next (s.common e 5 (fun r entry s1 =>
    let b := leAt entry 2 2
    let v := s1.buoy b
    match s1.vStore (r.access e 1) (leAt entry 24 8) (leBytes 8 v.toNat) with
    | .error t => .trap t
    | .ok s2 => .done ((if v = word64 entry 8 then s2.putBuoy b (word64 entry 16) else s2).commonCycles e true)))

/-- MPOST posts OPERAND to the partition's engine-to-host mailbox; it never waits (R210). -/
def execMpost (e : Nat) (s : State) : Out :=
  .next (s.common e 6 (fun r entry s1 => .done ((s1.post r.part 0 (word64 entry 8)).commonCycles e true)))

/-- Time moves on within the watch to a tick the spec leaves open (log entry 7). -/
def State.someTick (s : State) : State := (s.toTick (s.tick + s.anyNat % (250000 - s.tick))).tookFree

/-- TSTAMP writes the watch count and the tick, acknowledged before it completes (R178, R179). -/
def execTstamp (e : Nat) (s : State) : Out :=
  .next (s.common e 7 (fun r entry s1 =>
    let s2 := s1.someTick
    Res.ofStore ((s2.commonCycles e true).vStore (r.access e 1) (leAt entry 24 8) (leBytes 8 s2.watch ++ leBytes 4 s2.tick ++ leBytes 4 0))))

end Sys2Proof.Machine
end

