-- ==== Sys2Proof/Machine/Operands.lean ====
section
/-! DEFINITION. Operands of engine commands in cluster SRAM and in virtual memory (R93, R194, R284), read through the engine's own
pending stores (R156) and written among them (R117). -/
namespace Sys2Proof.Machine

/-- Where an operand lies: a cluster's SRAM, or the partition's virtual memory. -/
inductive Place where
  | sram (cluster : Nat)
  | virt
  deriving DecidableEq, Repr

/-- The bytes of each cluster SRAM (R284). -/
def sramBytes : Nat := 0x3000000

/-- Does an operand in cluster SRAM hold poisoned data that a copy stored there (R354)? -/
def State.sramBad (s : State) (a : Access) (pend : List (Nat × Byte)) (k n : Nat) : Bool :=
  (s.badOf a.engine).any (fun x => decide (k ≤ x) && decide (x < k + n))
  || (List.range n).any (fun i => (s.poison.contains (k + i - (k + i) % 32)) && (Table.get? pend (k + i)).isNone)

/-- Read n bytes of an operand through given pending stores. -/
def State.readWith (s : State) (a : Access) (pend : List (Nat × Byte)) (pl : Place) (addr n : Nat) :
    Except Trap (List Byte × State) :=
  match pl with
  | .sram c =>
    if ¬ a.carry ∧ s.sramBad a pend (sramKey c addr) n then .error (.poison (sramKey c addr))
    else .ok (overlay pend (sramKey c addr) (getBytes s.sram (c * 2 ^ 26 + addr) n), s)
  | .virt => s.readPieces a pend (pagePieces addr n)

/-- Read n bytes of an operand. -/
def State.readAt (s : State) (a : Access) (pl : Place) (addr n : Nat) : Except Trap (List Byte × State) :=
  s.readWith a (s.pendOf a.engine) pl addr n

/-- Write bytes of an operand, among the engine's pending stores. -/
def State.writeAt (s : State) (a : Access) (pl : Place) (addr : Nat) (bs : List Byte) (flags : List Bool := []) : Except Trap State :=
  match pl with
  | .sram c => .ok (s.modRun a.engine (fun r => r.put [(sramKey c addr, bs.length)] bs flags))
  | .virt => s.vWrite a addr bs flags

/-- Which of n bytes at a key or physical address are poisoned, as the engine sees them. -/
def State.flagsAt (s : State) (e k n : Nat) : List Bool :=
  (List.range n).map (fun i =>
    if (Table.get? (s.pendOf e) (k + i)).isSome then (s.badOf e).contains (k + i)
    else if 2 ^ 52 ≤ k then s.poison.contains (k + i - (k + i) % 32)
    else s.isPoisoned (k + i))

/-- Which bytes of a virtual range are poisoned. -/
def State.vFlags (s : State) (a : Access) : List (Nat × Nat) → List Bool
  | [] => []
  | (va, n) :: ps =>
    (match s.translate { a with acc := 0 } va with
      | .ok pa => s.flagsAt a.engine pa n
      | .error _ => List.replicate n false) ++ s.vFlags a ps

/-- Which bytes of an operand are poisoned, none listed where nothing is poisoned at all. -/
def State.poisonFlags (s : State) (a : Access) (pl : Place) (addr n : Nat) : List Bool :=
  match pl with
  | .sram c => s.flagsAt a.engine (sramKey c addr) n
  | .virt => s.vFlags a (pagePieces addr n)

/-- A sequence of steps that may each be stopped. -/
def foldM {α : Type} (f : State → α → Except Trap State) : List α → State → Except Trap State
  | [], s => .ok s
  | x :: xs, s => match f s x with
    | .error t => .error t
    | .ok s1 => foldM f xs s1

/-- Read rows of n bytes, one after another, and join them. -/
def State.readRows (s : State) (a : Access) (pl : Place) (n : Nat) : List Nat → Except Trap (List (List Byte) × State)
  | [] => .ok ([], s)
  | x :: xs => match s.readAt a pl x n with
    | .error t => .error t
    | .ok (row, s1) => match s1.readRows a pl n xs with
      | .error t => .error t
      | .ok (rows, s2) => .ok (row :: rows, s2)

end Sys2Proof.Machine
end

