-- ==== Sys2Proof/Machine/Copy.lean ====
section
/-! DEFINITION. The copy engines (R193 to R200, R215 to R217). -/
namespace Sys2Proof.Machine

/-- The fields of a copy command (R194). -/
structure CopyCmd where
  op : Nat
  xpose : Bool
  record : Bool
  esize : Nat
  rows : Nat
  rowBytes : Nat
  src : Nat
  srcSpace : Nat
  srcCluster : Nat
  srcStride : Nat
  dst : Nat
  dstSpace : Nat
  dstCluster : Nat
  dstStride : Nat
  recAddr : Nat
  recValue : Nat
  pattern : List Byte
  deriving DecidableEq, Repr

/-- A copy command's fields from its entry. -/
def copyCmd (b : List Byte) : CopyCmd :=
  { op := byteOf b 0, xpose := bit (byteOf b 1) 0, record := bit (byteOf b 1) 1, esize := byteOf b 2, rows := leAt b 4 4,
    rowBytes := leAt b 8 4, src := leAt b 16 8, srcSpace := byteOf b 24, srcCluster := byteOf b 25, srcStride := leAt b 28 4,
    dst := leAt b 32 8, dstSpace := byteOf b 40, dstCluster := byteOf b 41, dstStride := leAt b 44 4,
    recAddr := leAt b 48 8, recValue := leAt b 56 8, pattern := (b.drop 64).take 8 }

/-- The bytes of an element. -/
def CopyCmd.eb (c : CopyCmd) : Nat := 2 ^ c.esize

/-- The columns of a transposing copy. -/
def CopyCmd.cols (c : CopyCmd) : Nat := c.rowBytes / c.eb

/-- The destination's rows and the bytes of each (R195). -/
def CopyCmd.dstShape (c : CopyCmd) : Nat × Nat := if c.xpose then (c.cols, c.rows * c.eb) else (c.rows, c.rowBytes)

/-- The bytes from the first to the last that rows reach. -/
def reach (rows stride rowBytes : Nat) : Nat := (rows - 1) * stride + rowBytes

/-- Are the reserved bytes and fields of a copy command zero, and its element size defined (R194)? -/
def copyReserved (b : List Byte) (c : CopyCmd) : Bool :=
  if c.op = 0x32 then zerosAt b 1 63
  else
    let common := byteOf b 1 < 4 && zerosAt b 3 1 && zerosAt b 12 4 && zerosAt b 26 2 && zerosAt b 42 2 && zerosAt b 72 56
      && (c.dstSpace ≠ 1 || c.dstCluster = 0)
    if c.op = 0x31 then common && !c.xpose && c.esize = 0 && zerosAt b 16 16
    else common && zerosAt b 64 8 && c.esize ≤ 2 && (c.srcSpace ≠ 1 || c.srcCluster = 0)

/-- The CODEs of an ill-formed copy command (R194, R195, R200, R215), none for a well-formed one. toward: the engine works
toward its die. -/
def copyCodes (b : List Byte) (toward : Bool) : List Nat :=
  let c := copyCmd b
  if c.op = 0x32 then errs [(!copyReserved b c, 3)]
  else
    let copy := c.op = 0x30
    let d := c.dstShape
    errs [(decide (2 ≤ c.dstSpace ∨ (copy ∧ 2 ≤ c.srcSpace) ∨ c.dstSpace ≠ (if toward then 0 else 1)), 2),
      (!copyReserved b c || decide (c.dst % 16 ≠ 0 ∨ c.dstStride % 16 ≠ 0 ∨ (copy ∧ (c.src % 16 ≠ 0 ∨ c.srcStride % 16 ≠ 0))
        ∨ (copy ∧ c.rowBytes % c.eb ≠ 0) ∨ (copy ∧ (1 < c.rows ∨ c.xpose) ∧ c.dstStride < d.2)), 3),
      (decide ((c.dstSpace = 0 ∧ (3 < c.dstCluster ∨ sramBytes < c.dst + reach d.1 c.dstStride d.2))
        ∨ (copy ∧ c.srcSpace = 0 ∧ (3 < c.srcCluster ∨ sramBytes < c.src + reach c.rows c.srcStride c.rowBytes))), 4),
      (decide (c.rows = 0 ∨ (if c.xpose then 256 else 16777216) < c.rows ∨ c.rowBytes = 0 ∨ 1048576 < c.rowBytes), 5),
      (c.xpose && decide (256 < c.rows ∨ c.cols = 0 ∨ 256 < c.cols), 6),
      (c.record && decide (c.recAddr % 16 ≠ 0), 7)]

/-- The place a copy command's space and cluster name on the engine's die. -/
def copyPlace (e space cluster : Nat) : Place := if space = 0 then .sram (4 * eDie e + cluster) else .virt

/-- Bytes for a destination where source and destination may overlap: each 64-byte line of the destination takes the earlier or
the later state of the source, as a free bit decides (R198). -/
def State.mixLines (s : State) (dst : Nat) (old new : List Byte) : List Byte :=
  if old = new then old
  else (List.range old.length).map (fun i =>
    if Config.freeBool (s.free + (dst + i) / 64) then (new[i]?).getD 0 else (old[i]?).getD 0)

/-- The source bytes of destination row j of a transposing copy, element by element, through given pending stores. -/
def State.column (s : State) (a : Access) (pend : List (Nat × Byte)) (pl : Place) (c : CopyCmd) (j : Nat) :
    Nat → Except Trap (List Byte)
  | 0 => .ok []
  | i + 1 => match s.column a pend pl c j i with
    | .error t => .error t
    | .ok bs => match s.readWith a pend pl (c.src + i * c.srcStride + j * c.eb) c.eb with
      | .error t => .error t
      | .ok (x, _) => .ok (bs ++ x)

/-- One row of a plain copy (R195); poison goes with the bytes (R354, R399). pend0: the stores that were pending when the command started. -/
def State.copyRow (s : State) (a : Access) (pend0 : List (Nat × Byte)) (from' tgt : Place) (c : CopyCmd) (r : Nat) : Except Trap State :=
  match s.readWith a pend0 from' (c.src + r * c.srcStride) c.rowBytes with
  | .error t => .error t
  | .ok (old, s1) => match s.readAt a from' (c.src + r * c.srcStride) c.rowBytes with
    | .error t => .error t
    | .ok (new, _) => s1.writeAt a tgt (c.dst + r * c.dstStride) (s.mixLines (c.dst + r * c.dstStride) old new)
      (s.poisonFlags a from' (c.src + r * c.srcStride) c.rowBytes)

/-- One destination row of a transposing copy. -/
def State.copyColumn (s : State) (a : Access) (pend0 : List (Nat × Byte)) (from' tgt : Place) (c : CopyCmd) (j : Nat) : Except Trap State :=
  match s.column a pend0 from' c j c.rows with
  | .error t => .error t
  | .ok old => match s.column a (s.pendOf a.engine) from' c j c.rows with
    | .error t => .error t
    | .ok new => s.writeAt a tgt (c.dst + j * c.dstStride) (s.mixLines (c.dst + j * c.dstStride) old new)
      ((List.range c.rows).map (fun i => s.poisonFlags a from' (c.src + i * c.srcStride + j * c.eb) c.eb)).flatten

/-- The source rows are read once: what the reading counts and touches. -/
def State.readSource (s : State) (a : Access) (from' : Place) (c : CopyCmd) : Except Trap State :=
  match s.readRows a from' c.rowBytes ((List.range c.rows).map (fun r => c.src + r * c.srcStride)) with
  | .error t => .error t
  | .ok (_, s1) => .ok s1

/-- A fill row: PATTERN repeated from its byte 0 (R196). -/
def fillRow (pattern : List Byte) (n : Nat) : List Byte := (List.range n).map (fun i => (pattern[i % 8]?).getD 0)

/-- The bytes a copy command writes. -/
def State.copyBytes (s : State) (e : Nat) (r : Run) (c : CopyCmd) : Except Trap State :=
  let a := { r.access e 0 with carry := true }
  let from' := copyPlace e c.srcSpace c.srcCluster
  let tgt := copyPlace e c.dstSpace c.dstCluster
  if c.op = 0x31 then
    foldM (fun s i => s.writeAt a tgt (c.dst + i * c.dstStride) (fillRow c.pattern c.rowBytes)) (List.range c.rows) s
  else if c.xpose then
    match s.readSource a from' c with
    | .error t => .error t
    | .ok s1 => foldM (fun s j => s.copyColumn a r.pend from' tgt c j) (List.range c.cols) s1
  else foldM (fun s i => s.copyRow a r.pend from' tgt c i) (List.range c.rows) s

/-- The index of a copy engine among its die's (R215). -/
def copyIndex (e : Nat) : Nat := if eKind e = 3 then 4 + eIdx e else eIdx e

/-- The cycles of a copy command without memory waits (R199). -/
def CopyCmd.cycles (c : CopyCmd) : Nat :=
  if c.op = 0x31 then max c.rows (ceilDiv (c.rows * c.rowBytes) 256) + 16
  else if c.xpose then ceilDiv (c.rows * c.rowBytes) 128 + 48
  else max c.rows (ceilDiv (c.rows * c.rowBytes) 256) + 48

/-- Counters of a copy command (R215, R216): its cycles, with a free wait where an operand is in virtual memory, each counted in
CYC_ACT or WAIT_MEM. -/
def State.copyCount (s : State) (e cycles bytes done : Nat) (waits : Bool) : State :=
  if s.flag (TD_CE_CFG (eDie e)) F.TD_CE_CFG_COUNT_EN then
    let total := cycles + (if waits then s.anyNat else 0)
    let act := Config.freeNat (s.free + 1) % (total + 1)
    let i := copyIndex e
    let d := eDie e
    (((((s.count (TD_CE_CYC_BUSY d i) total).count (TD_CE_CYC_ACT d i) act).count (TD_CE_WAIT_MEM d i) (total - act)).count
      (TD_CE_BYTES d i) bytes).count (TD_CE_CMDS d i) done).tookFree
  else s

/-- The data bytes a copy command writes. -/
def CopyCmd.bytes (c : CopyCmd) : Nat := c.dstShape.1 * c.dstShape.2

/-- A copy or fill runs: checked, its bytes written among the engine's pending stores; with RECORD it then waits for their
acknowledgement (R195 to R197). -/
def State.copyRun (s : State) (e op : Nat) : State :=
  s.runCmd e (isOp op) (fun r entry s1 =>
    let codes := copyCodes entry (eKind e = 2)
    if codes ≠ [] then .ill codes
    else
      let c := copyCmd entry
      match s1.copyBytes e r c with
      | .error t => .trap t
      | .ok s2 =>
        let waits := c.dstSpace = 1 ∨ (c.op = 0x30 ∧ c.srcSpace = 1)
        let s3 := s2.copyCount e c.cycles c.bytes (!c.record).toNat waits
        if c.record then .stay (s3.modRun e (fun r => { r with wait := .record c.recAddr c.recValue })) else .done s3)

/-- CCOPY (R195). -/
def execCcopy (e : Nat) (s : State) : Out := .next (s.copyRun e 0x30)

/-- CFILL (R196). -/
def execCfill (e : Nat) (s : State) : Out := .next (s.copyRun e 0x31)

/-- A fence waits for the engine's earlier writes (R117, R156, R196). -/
def State.fence (s : State) (e op : Nat) (codes : List Byte → List Nat) : State :=
  s.runCmd e (isOp op) (fun _ entry s1 =>
    if codes entry ≠ [] then .ill (codes entry) else .stay (s1.modRun e (fun r => { r with wait := .fence })))

/-- A fence completes: every earlier write of the engine is visible. -/
def State.fenceDone (s : State) (e : Nat) (count : State → State) : State :=
  match Table.get? s.eng.runs e with
  | none => s
  | some r => if r.wait = .fence then ((count (s.drain e)).advance e 64) else s

/-- CFENCE (R196). -/
def execCfence (e : Nat) (s : State) : Out := .next (s.fence e 0x32 (fun b => copyCodes b true))

/-- CFENCE_COMPLETE: every earlier write of the copy engine is visible (R196). -/
def execCfenceComplete (e : Nat) (s : State) : Out :=
  if eKind e = 2 ∨ eKind e = 3 then .next (s.fenceDone e (fun s => s.copyCount e 0 0 1 true)) else .next s

/-- COMPLETION_RECORD_WRITE: every write of the copy is acknowledged; the 16-byte record is written, with the visibility epoch,
and the command completes (R197). -/
def execCompletionRecordWrite (e : Nat) (s : State) : Out :=
  match Table.get? s.eng.runs e with
  | none => .next s
  | some r => match r.wait with
    | .record addr value =>
      let s1 := s.drain e
      match s1.vStore (r.access e 1) addr (leBytes 8 value ++ leBytes 8 (s1.reg HST_VIS_EPOCH).toNat) with
      | .error t => .next (s.trapped e r t)
      | .ok s2 => .next ((s2.copyCount e 0 0 1 true).advance e 128)
    | _ => .next s

end Sys2Proof.Machine
end

