-- ==== Sys2Proof/Machine/Float.lean ====
section
/-! DEFINITION. Numbers of the engines: exact dyadic values, the rounding of R102 and R107, and the element formats of R95 and R96. -/
namespace Sys2Proof.Machine

/-- A value: a NaN, an infinity, or the exact number (-1)^neg * m * 2^e. -/
inductive FV where
  | nan
  | inf (neg : Bool)
  | fin (neg : Bool) (m : Nat) (e : Int)
  deriving DecidableEq, Repr

/-- Positive zero. -/
def FV.zero : FV := .fin false 0 0

/-- The sign of a value (a NaN counts as positive). -/
def FV.neg : FV → Bool
  | .nan => false
  | .inf n => n
  | .fin n _ _ => n

/-- The value with its sign changed. -/
def FV.minus : FV → FV
  | .nan => .nan
  | .inf n => .inf (!n)
  | .fin n m e => .fin (!n) m e

/-- The value with sign clear. -/
def FV.abs : FV → FV
  | .nan => .nan
  | .inf _ => .inf false
  | .fin _ m e => .fin false m e

/-- Is the value a NaN? -/
def FV.isNan : FV → Bool
  | .nan => true
  | _ => false

/-- Is the value an infinity? -/
def FV.isInf : FV → Bool
  | .inf _ => true
  | _ => false

/-- Is the value zero? -/
def FV.isZero : FV → Bool
  | .fin _ m _ => decide (m = 0)
  | _ => false

/-- The signed integer m * 2^(e - f) of a finite value, for an exponent f of at most e. -/
def scaled (neg : Bool) (m : Nat) (e f : Int) : Int :=
  let v : Nat := m * 2 ^ (e - f).toNat
  if neg then -(v : Int) else v

/-- A value from an integer times 2^f; a zero takes the sign given. -/
def FV.ofInt (x : Int) (f : Int) (zeroNeg : Bool) : FV := if x = 0 then .fin zeroNeg 0 0 else .fin (decide (x < 0)) x.natAbs f

/-- The exact sum; a zero sum of values that are not both negative zeros is +0 (IEEE 754 round to nearest), infinities of
opposite sign give NaN (R102, R103). -/
def FV.add : FV → FV → FV
  | .nan, _ => .nan
  | _, .nan => .nan
  | .inf a, .inf b => if a = b then .inf a else .nan
  | .inf a, _ => .inf a
  | _, .inf b => .inf b
  | .fin a m e, .fin b n f =>
    let g := min e f
    FV.ofInt (scaled a m e g + scaled b n f g) g (decide (m = 0) && decide (n = 0) && a && b)

/-- The exact product; infinity times zero is NaN (R103). -/
def FV.mul : FV → FV → FV
  | .nan, _ => .nan
  | _, .nan => .nan
  | .inf a, .inf b => .inf (a != b)
  | .inf a, .fin b n _ => if n = 0 then .nan else .inf (a != b)
  | .fin a m _, .inf b => if m = 0 then .nan else .inf (a != b)
  | .fin a m e, .fin b n f => .fin (a != b) (m * n) (e + f)

/-- The value times a power of two. -/
def FV.scale (x : FV) (k : Int) : FV :=
  match x with
  | .fin n m e => .fin n m (e + k)
  | y => y

/-- floor(log2) of a non-zero finite magnitude. -/
def expo (m : Nat) (e : Int) : Int := (Nat.log2 m : Int) + e

/-- m * 2^e rounded to the nearest multiple of 2^q, ties to even: the multiple. -/
def roundAt (m : Nat) (e q : Int) : Nat :=
  if q ≤ e then m * 2 ^ (e - q).toNat
  else
    let d := 2 ^ (q - e).toNat
    let n := m / d
    let r := 2 * (m % d)
    if r < d ∨ (r = d ∧ n % 2 = 0) then n else n + 1

/-- Rounding to nearest even at p significant bits, with an unbounded exponent (R107). -/
def FV.roundBits (p : Nat) : FV → FV
  | .fin n m e =>
    if m = 0 then .fin n 0 0
    else
      let q := expo m e - (p - 1 : Nat)
      .fin n (roundAt m e q) q
  | y => y

/-- Comparison of finite magnitudes: m * 2^e < n * 2^f. -/
def magLt (m : Nat) (e : Int) (n : Nat) (f : Int) : Bool := decide (m * 2 ^ (e - min e f).toNat < n * 2 ^ (f - min e f).toNat)

/-- a < b for values of which neither is a NaN. -/
def FV.lt : FV → FV → Bool
  | .inf a, .inf b => a && !b
  | .inf a, .fin _ _ _ => a
  | .fin _ _ _, .inf b => !b
  | .fin a m e, .fin b n f => decide (scaled a m e (min e f) < scaled b n f (min e f))
  | _, _ => false

/-- Numeric equality of values of which neither is a NaN; zeros of either sign are equal. -/
def FV.eq : FV → FV → Bool
  | .inf a, .inf b => a == b
  | .fin a m e, .fin b n f => decide (scaled a m e (min e f) = scaled b n f (min e f))
  | _, _ => false

/-- A binary format without subnormals, of p significant bits and 8 exponent bits: round to nearest even, below 2^-126 zero,
beyond the largest finite value infinity (R102, R107). -/
def FV.round8 (p : Nat) (x : FV) : FV :=
  match x.roundBits p with
  | .fin n m e =>
    if m = 0 then .fin n 0 0
    else if expo m e < -126 then .fin n 0 0
    else if 127 < expo m e then .inf n
    else .fin n m e
  | y => y

/-- round_fp32 (R102). -/
def FV.round32 (x : FV) : FV := x.round8 24

/-- A value already rounded, as the code of a format with a sign, 8 exponent bits and mant mantissa bits. -/
def encode8 (mant : Nat) (x : FV) : Nat :=
  let one := 2 ^ mant
  match x with
  | .nan => 255 * one + one / 2
  | .inf n => n.toNat * 256 * one + 255 * one
  | .fin n m e =>
    if m = 0 then n.toNat * 256 * one
    else n.toNat * 256 * one + (expo m e + 127).toNat * one + (roundAt m e (expo m e - (mant : Int)) - one)

/-- The FP32 code of a value after rounding. -/
def encode32 (x : FV) : Nat := encode8 23 x.round32

/-- A code of a format with a sign, 8 exponent bits and mant mantissa bits; a zero exponent field reads as zero (R97). -/
def decode8 (mant : Nat) (c : Nat) : FV :=
  let one := 2 ^ mant
  let n := c.testBit (mant + 8)
  let ex := c / one % 256
  let f := c % one
  if ex = 0 then .fin n 0 0
  else if ex = 255 then (if f = 0 then .inf n else .nan)
  else .fin n (one + f) ((ex : Int) - 127 - mant)

/-- An FP32 code's value. -/
def decode32 (c : Nat) : FV := decode8 23 (c % 2 ^ 32)

/-- A BF16 code's value. -/
def decode16 (c : Nat) : FV := decode8 7 (c % 2 ^ 16)

/-- A small format with subnormals: exponent bits ebits, bias, mant mantissa bits; no special codes. -/
def decodeSmall (ebits mant : Nat) (bias : Int) (c : Nat) : FV :=
  let n := c.testBit (ebits + mant)
  let ex := c / 2 ^ mant % 2 ^ ebits
  let f := c % 2 ^ mant
  if ex = 0 then .fin n f (1 - bias - mant) else .fin n (2 ^ mant + f) ((ex : Int) - bias - mant)

/-- The value of an element code of a TYPE of R95 (integers as exact values). -/
def decodeElem (ty c : Nat) : FV :=
  match ty with
  | 0 => if c % 128 = 127 then .nan else decodeSmall 4 3 7 (c % 256)
  | 1 => if c / 4 % 32 = 31 then (if c % 4 = 0 then .inf (c.testBit 7) else .nan) else decodeSmall 5 2 15 (c % 256)
  | 2 => decodeSmall 2 1 1 (c % 16)
  | 3 => decode16 c
  | 4 => FV.ofInt (signed 8 c) 0 false
  | 5 => FV.ofInt (c % 256 : Nat) 0 false
  | 6 => decode32 c
  | _ => FV.ofInt (signed 32 c) 0 false

/-- The bits of an element of a TYPE. -/
def elemBits (ty : Nat) : Nat :=
  match ty with
  | 2 => 4 | 3 => 16 | 6 => 32 | 7 => 32 | _ => 8

/-- A small format's cast: round to nearest even with subnormals; the flag says that the rounded magnitude, with an unbounded
exponent range, exceeds the largest finite value (m0 * 2^e0). -/
def castSmall (mant : Nat) (bias : Int) (m0 : Nat) (e0 : Int) (m : Nat) (e : Int) : Nat × Bool :=
  if m = 0 then (0, false)
  else
    let emin := 1 - bias
    let q := max (expo m e) emin - (mant : Int)
    let r := roundAt m e q
    if magLt m0 e0 r q then (0, true)
    else if r = 0 then (0, false)
    else if expo r q < emin then (r, false)
    else (((expo r q - emin).toNat + 1) * 2 ^ mant + (roundAt r q (expo r q - (mant : Int)) - 2 ^ mant), false)

/-- The integer nearest to m * 2^e, ties to even. -/
def nearestInt (neg : Bool) (m : Nat) (e : Int) : Int := if neg then -(roundAt m e 0 : Int) else roundAt m e 0

/-- What a cast gives: the code, whether it was clamped (R109), and whether a NaN was written. -/
structure Cast where
  code : Nat
  clamped : Bool
  nan : Bool
  deriving DecidableEq, Repr

/-- The cast of a value to a TYPE, by the table of R107. -/
def castElem (ty : Nat) (sat : Bool) (x : FV) : Cast :=
  match ty with
  | 6 => ⟨encode32 x, false, x.isNan⟩
  | 3 => ⟨encode8 7 (x.round8 8), false, x.isNan⟩
  | 0 =>
    let max (n : Bool) : Cast := if sat then ⟨n.toNat * 128 + 0x7E, true, false⟩ else ⟨0x7F, false, true⟩
    (match x with
    | .nan => ⟨0x7F, false, true⟩
    | .inf n => max n
    | .fin n m e => let (c, above) := castSmall 3 7 7 6 m e
      if above then max n else ⟨n.toNat * 128 + c, false, false⟩)
  | 1 =>
    let max (n : Bool) : Cast := if sat then ⟨n.toNat * 128 + 0x7B, true, false⟩ else ⟨n.toNat * 128 + 0x7C, false, false⟩
    (match x with
    | .nan => ⟨0x7E, false, true⟩
    | .inf n => max n
    | .fin n m e => let (c, above) := castSmall 2 15 7 13 m e
      if above then max n else ⟨n.toNat * 128 + c, false, false⟩)
  | 2 =>
    (match x with
    | .nan => ⟨0, false, true⟩
    | .inf n => ⟨n.toNat * 8 + 7, true, false⟩
    | .fin n m e => let (c, above) := castSmall 1 1 6 0 m e
      if above then ⟨n.toNat * 8 + 7, true, false⟩ else ⟨n.toNat * 8 + c, false, false⟩)
  | 4 =>
    (match x with
    | .nan => ⟨0, false, false⟩
    | .inf n => ⟨if n then 128 else 127, true, false⟩
    | .fin n m e =>
      let i := nearestInt n m e
      if i < -128 then ⟨128, true, false⟩ else if 127 < i then ⟨127, true, false⟩ else ⟨unsigned 8 i, false, false⟩)
  | _ => ⟨encode32 x, false, x.isNan⟩

/-- A block of 32 values cast with one scale (R108): the scale byte and the casts; ex is the format's largest exponent. -/
def castBlock (ty : Nat) (xs : List FV) : Nat × List Cast :=
  let ex : Int := if ty = 2 then 2 else if ty = 0 then 8 else 15
  if xs.any (fun x => x.isNan || x.isInf) then (0xFF, xs.map (fun _ => ⟨0, false, true⟩))
  else if xs.all FV.isZero then (0x7F, xs.map (fun x => castElem ty true x))
  else
    let top := xs.foldl (fun (t : Option Int) x => match x with
      | .fin _ m e => if m = 0 then t else (match t with | some v => some (max v (expo m e)) | none => some (expo m e))
      | _ => t) none
    let e := max (-127) (min 127 ((top.getD 0) - ex))
    ((e + 127).toNat, xs.map (fun x => castElem ty true (x.scale (-e))))

/-- Saturation to 32-bit integers (R104), and whether it clamped. -/
def sat32 (x : Int) : Int × Bool :=
  if x < -2147483648 then (-2147483648, true) else if 2147483647 < x then (2147483647, true) else (x, false)

/-- A row of element codes of a TYPE from its bytes (R98). -/
def rowCodes (ty n : Nat) (bs : List Byte) : List Nat :=
  (List.range n).map (fun i => match elemBits ty with
    | 4 => if i % 2 = 0 then byteOf bs (i / 2) % 16 else byteOf bs (i / 2) / 16
    | 16 => leAt bs (2 * i) 2
    | 32 => leAt bs (4 * i) 4
    | _ => byteOf bs i)

/-- Pairs of four-bit codes as bytes. -/
def packPairs : List Nat → List Byte
  | [] => []
  | [a] => leBytes 1 a
  | a :: b :: l => leBytes 1 (a + 16 * b) ++ packPairs l

/-- The bytes of a row of element codes of a TYPE. -/
def rowBytes (ty : Nat) (codes : List Nat) : List Byte :=
  match elemBits ty with
  | 4 => packPairs codes
  | 16 => (codes.map (leBytes 2)).flatten
  | 32 => (codes.map (leBytes 4)).flatten
  | _ => (codes.map (leBytes 1)).flatten

/-- The row length in bytes (R110). -/
def rowLen (ty n : Nat) : Nat := n * elemBits ty / 8

end Sys2Proof.Machine
end

