-- ==== Sys2Proof/Machine/Matrix.lean ====
section
/-! DEFINITION. The matrix engines (R88 to R129). -/
namespace Sys2Proof.Machine

/-! ## Descriptors -/

/-- An operand descriptor (R110). -/
structure Desc where
  base : Nat
  space : Nat
  format : Nat
  width : Nat
  stride : Nat
  scaleBase : Nat
  scaleStride : Nat
  tail : Nat
  deriving DecidableEq, Repr

/-- The descriptor at a byte of an entry. -/
def descAt (b : List Byte) (o : Nat) : Desc :=
  { base := leAt b o 8, space := byteOf b (o + 8), format := byteOf b (o + 9), width := leAt b (o + 10) 2, stride := leAt b (o + 12) 4,
    scaleBase := leAt b (o + 16) 8, scaleStride := leAt b (o + 24) 4, tail := leAt b (o + 28) 4 }

/-- TYPE of a descriptor (R95). -/
def Desc.ty (d : Desc) : Nat := d.format % 16
/-- BS of a descriptor. -/
def Desc.bs (d : Desc) : Bool := d.format.testBit 4
/-- The row length in bytes. -/
def Desc.len (d : Desc) : Nat := rowLen d.ty d.width
/-- The place of a descriptor's rows: the engine's own cluster SRAM (R111) or virtual memory. -/
def Desc.place (d : Desc) (e : Nat) : Place := if d.space = 0 then .sram (eCluster e) else .virt

/-- Does the format byte name a format (R95)? -/
def Desc.fmtOk (d : Desc) : Bool := decide (d.format < 32) && decide (d.ty < 8)

/-- Alignments and reserved bits of R110; an output's ROW_STRIDE is at least its row length. -/
def Desc.aligned (d : Desc) (output : Bool) : Bool :=
  decide (d.space ≤ 1) && decide (d.base % 16 = 0) && decide (d.base < (if d.space = 1 then 2 ^ 57 else 2 ^ 26))
  && decide (d.stride % 16 = 0) && decide (d.scaleBase % 8 = 0) && decide (d.scaleStride % 8 = 0) && decide (d.tail = 0)
  && (d.bs || decide (d.scaleBase = 0)) && (!output || decide (d.len ≤ d.stride))

/-- Does everything a descriptor in cluster SRAM reaches lie within it (R111)? rows rows, and scale rows of n bytes each. -/
def Desc.inSram (d : Desc) (rows scaleRows n : Nat) : Bool :=
  d.space ≠ 0 || (decide (d.base + reach rows d.stride d.len ≤ sramBytes)
    && (!d.bs || decide (d.scaleBase + reach scaleRows d.scaleStride n ≤ sramBytes)))

/-! ## Loading -/

/-- Does a format need the FP4 feature, which no licence gives (R556)? -/
def Desc.noFp4 (d : Desc) (fp4 : Bool) : Bool := decide (d.ty = 2) && !fp4

/-- The CODEs of an ill-formed MLOAD (R114, R127, R556), none for a well-formed one. -/
def mloadCodes (b : List Byte) (fp4 : Bool) : List Nat :=
  let kr := leAt b 2 2
  let d := descAt b 8
  errs [(!d.fmtOk || d.noFp4 fp4, 2),
    (decide (d.width = 0 ∨ 256 < d.width), 3),
    (!d.aligned false || !zerosAt b 1 1 || !zerosAt b 4 4 || !zerosAt b 40 24, 4),
    (!d.inSram kr (kr / 32) d.width, 5),
    (decide (kr = 0 ∨ 256 < kr), 6),
    (d.bs && decide (kr % 32 ≠ 0 ∨ d.width % 32 ≠ 0), 8)]

/-- Row addresses base, base + stride, … -/
def rowAddrs (base stride n : Nat) : List Nat := (List.range n).map (fun i => base + i * stride)

/-- The stationary operand read from memory: KR rows of NC elements, and its scales (R90, R100). -/
def State.readPlane (s : State) (a : Access) (e kr : Nat) (d : Desc) : Except Trap (Plane × State) :=
  match s.readRows a (d.place e) d.len (rowAddrs d.base d.stride kr) with
  | .error t => .error t
  | .ok (rows, s1) =>
    let elems := (rows.map (rowCodes d.ty d.width)).flatten
    if d.bs then
      match s1.readRows a (d.place e) d.width (rowAddrs d.scaleBase d.scaleStride (kr / 32)) with
      | .error t => .error t
      | .ok (sc, s2) => .ok (⟨d.format, kr, d.width, elems, (sc.map (fun r => r.map BitVec.toNat)).flatten⟩, s2)
    else .ok (⟨d.format, kr, d.width, elems, []⟩, s1)

/-- A load of p starts. -/
def MatrixState.load (m : MatrixState) (p : Plane) (under : Nat) : MatrixState :=
  { m with shadow := some p, loading := true, streamed := under % (m.since + 1) }

/-- MLOAD: the shadow plane's load starts; it runs during later streams, and during what is left of the streams since the latest
swap, a free number of their cycles (R90, R92). -/
def execMload (e : Nat) (s : State) : Out :=
  .next (s.runCmd e (isOp 0x10) (fun r entry s1 =>
    if mloadCodes entry s1.fp4 ≠ [] then .ill (mloadCodes entry s1.fp4)
    else match s1.readPlane (r.access e 0) e (leAt entry 2 2) (descAt entry 8) with
      | .error t => .trap t
      | .ok (p, s2) =>
        let s3 := s2.tookFree.exposeLoad e r false
        .done (((s3.putDeps e { s3.depsOf e with loaded := false }).modRun e (fun r => { r with mx := r.mx.load p s2.anyNat })).showPlanes e)))

/-- SHADOW_LOAD_DONE: the shadow plane's load completes (R90). -/
def execShadowLoadDone (e : Nat) (s : State) : Out :=
  match Table.get? s.eng.runs e with
  | none => .next s
  | some r =>
    if r.mx.loading then
      let s1 := (s.modRun e (fun r => { r with mx := { r.mx with loading := false } })).showPlanes e
      .next (if s1.meCounts e then s1.count (TD_ME_LOADS (eDie e) (eIdx e)) else s1)
    else .next s

/-! ## Streaming -/

/-- Is the combination of formats one of R99: A, B, C (where used) and the output? -/
def formatsOk (a b c out : Nat) (useC : Bool) : Bool :=
  let small (f : Nat) : Bool := decide (f % 16 ≤ 1) && decide (f < 32)
  let float := (small a && small b) || (decide (a = 18) && decide (b = 18)) || (decide (a = 3) && decide (b = 3))
  let int := (decide (a = 4) || decide (a = 5)) && decide (b = 4)
  if float then (!useC || decide (c = 6)) && (decide (out = 6) || decide (out = 3) || small out || decide (out = 18))
  else int && (!useC || decide (c = 7)) && (decide (out = 7) || decide (out = 4) || decide (out = 6) || decide (out = 3))

/-- The flags of an MSTREAM. -/
def mSwap (b : List Byte) : Bool := bit (byteOf b 1) 0
/-- USE_C of an MSTREAM. -/
def mUseC (b : List Byte) : Bool := bit (byteOf b 1) 1
/-- SAT of an MSTREAM. -/
def mSat (b : List Byte) : Bool := bit (byteOf b 1) 2

/-- The CODEs of an ill-formed MSTREAM through a plane (R114, R127, R556), none for a well-formed one. -/
def mstreamCodes (b : List Byte) (plane : Option Plane) (fp4 : Bool) : List Nat :=
  let a := descAt b 16
  let c := descAt b 48
  let out := descAt b 80
  let rows := leAt b 4 4
  let useC := mUseC b
  errs ([(!a.fmtOk || !out.fmtOk || (useC && !c.fmtOk) || a.noFp4 fp4 || out.noFp4 fp4, 2),
    (!a.aligned false || !out.aligned true || (useC && !c.aligned false) || decide (8 ≤ byteOf b 1) || !zerosAt b 2 2
      || !zerosAt b 12 4 || !zerosAt b 112 16, 4),
    (!a.inSram rows rows (a.width / 32) || !out.inSram rows rows (out.width / 32) || (useC && !c.inSram rows 0 0), 5),
    (decide (rows = 0 ∨ 16777216 < rows), 6),
    ((a.bs && decide (a.width % 32 ≠ 0)) || (out.bs && decide (out.width % 32 ≠ 0)), 8)]
  ++ (match plane with
    | none => [(true, 7)]
    | some p => [(!formatsOk a.format p.fmt c.format out.format useC, 2),
        (decide (a.width ≠ p.kr ∨ out.width ≠ p.nc ∨ (useC ∧ c.width ≠ p.nc)), 3)]))

/-- A scale byte's exponent; none for 0xFF, which makes the product a NaN (R100, R103). -/
def scaleOf (bs : Bool) (scales : List Nat) (i : Nat) : Option Int :=
  if bs then (if (scales[i]?).getD 0 = 0xFF then none else some (((scales[i]?).getD 0 : Int) - 127)) else some 0

/-- The product p of R101 with its scales. -/
def product (x w : FV) (sa sw : Option Int) : FV :=
  match sa, sw with
  | some a, some b => (x.mul w).scale (a + b)
  | _, _ => .nan

/-- The ordered sum of R101 over k, for floating-point operands. -/
def floatSum (p : Plane) (ta : Nat) (bsA : Bool) (a scaleA : List Nat) (n : Nat) : FV :=
  (List.range p.kr).foldl (fun acc k =>
    (acc.add (product (decodeElem ta ((a[k]?).getD 0)) (decodeElem (p.fmt % 16) ((p.elems[k * p.nc + n]?).getD 0))
      (scaleOf bsA scaleA (k / 32)) (scaleOf (p.fmt.testBit 4) p.scales (k / 32 * p.nc + n)))).round32) FV.zero

/-- The integer value of an 8-bit code, unsigned for TYPE 5. -/
def intElem (ty c : Nat) : Int := if ty = 5 then (c % 256 : Nat) else signed 8 c

/-- The ordered saturating sum of R104, and whether it clamped. -/
def intSum (p : Plane) (ta : Nat) (a : List Nat) (n : Nat) : Int × Bool :=
  (List.range p.kr).foldl (fun acc k =>
    let x := sat32 (acc.1 + intElem ta ((a[k]?).getD 0) * intElem 4 ((p.elems[k * p.nc + n]?).getD 0))
    (x.1, acc.2 || x.2)) (0, false)

/-- One output row before its bytes: the element casts and, for a block-scaled output, the scale bytes. -/
structure OutRow where
  casts : List Cast
  scales : List Nat
  deriving DecidableEq, Repr

/-- Groups of 32 of a list. -/
def groups32 {α : Type} (l : List α) : List (List α) := (List.range (l.length / 32)).map (fun i => (l.drop (32 * i)).take 32)

/-- The output stage for scaled values (R106 to R108). -/
def outStage (format : Nat) (sat : Bool) (xs : List FV) : OutRow :=
  if format.testBit 4 then
    let bl := (groups32 xs).map (castBlock (format % 16))
    ⟨(bl.map (·.2)).flatten, bl.map (·.1)⟩
  else ⟨xs.map (castElem (format % 16) sat), []⟩

/-- One row of an MSTREAM (R101, R104, R106): a the streamed codes, sa their scales, c the codes of the C row. -/
def streamRow (p : Plane) (fa out : Nat) (useC sat : Bool) (outScale : FV) (a sa c : List Nat) : OutRow :=
  if fa = 4 ∨ fa = 5 then
    let ss := (List.range p.nc).map (fun n =>
      let x := intSum p fa a n
      if useC then (let y := sat32 (x.1 + signed 32 (c.getD n 0)); (y.1, x.2 || y.2)) else x)
    if out = 7 then ⟨ss.map (fun x => ⟨unsigned 32 x.1, x.2, false⟩), []⟩
    else
      let r := outStage out sat (ss.map (fun x => (((FV.ofInt x.1 0 false).round32).mul outScale).round32))
      ⟨r.casts.zip ss |>.map (fun q => { q.1 with clamped := q.1.clamped || q.2.2 }), r.scales⟩
  else
    let ss := (List.range p.nc).map (fun n =>
      let x := floatSum p (fa % 16) (fa.testBit 4) a sa n
      if useC then (x.add (decode32 (c.getD n 0))).round32 else x)
    outStage out sat (ss.map (fun x => (x.mul outScale).round32))

/-- The streaming cycles of rows through a plane (R99, R119). -/
def streamCycles (fa rows : Nat) : Nat := if fa = 18 then ceilDiv rows 2 else if fa = 3 then 2 * rows else rows

/-- The stores through which a row's operands are read: those pending now, or those pending when the command started, as a free
bit decides; it matters only where rows of one command overlap its own outputs (log entry 16). -/
def State.rowView (s : State) (e free i : Nat) (pend0 : List (Nat × Byte)) : List (Nat × Byte) :=
  if Config.freeBool (free + i) then s.pendOf e else pend0

/-- One row read, computed and written among the pending stores. The C row is read through every earlier row's output. -/
def State.streamOne (s : State) (r : Run) (e free : Nat) (p : Plane) (b : List Byte) (i : Nat) : Except Trap State :=
  let a := descAt b 16
  let c := descAt b 48
  let out := descAt b 80
  let ac := r.access e 0
  match s.readWith ac (s.rowView e free i r.pend) (a.place e) (a.base + i * a.stride) a.len with
  | .error t => .error t
  | .ok (ra, s1) =>
    match (if a.bs then s1.readWith ac (s1.rowView e free i r.pend) (a.place e) (a.scaleBase + i * a.scaleStride) (p.kr / 32) else .ok ([], s1)) with
    | .error t => .error t
    | .ok (sa, s2) =>
      match (if mUseC b then s2.readWith ac (s2.rowView e (free + 1) i r.pend) (c.place e) (c.base + i * c.stride) c.len else .ok ([], s2)) with
      | .error t => .error t
      | .ok (rc, s3) =>
        let y := streamRow p a.format out.format (mUseC b) (mSat b) (decode32 (leAt b 8 4)) (rowCodes a.ty p.kr ra)
          (sa.map BitVec.toNat) (rowCodes c.ty p.nc rc)
        match s3.writeAt ac (out.place e) (out.base + i * out.stride) (rowBytes out.ty (y.casts.map (·.code))) with
        | .error t => .error t
        | .ok s4 =>
          match (if out.bs then s4.writeAt ac (out.place e) (out.scaleBase + i * out.scaleStride) (y.scales.map (BitVec.ofNat 8)) else .ok s4) with
          | .error t => .error t
          | .ok s5 =>
            .ok (if s5.meCounts e then
              (s5.count (TD_ME_OUT_NAN (eDie e) (eIdx e)) (y.casts.filter (·.nan)).length).count (TD_ME_OUT_SAT (eDie e) (eIdx e))
                (y.casts.filter (·.clamped)).length
            else s5)

/-- Cycle counters of a stream (R120 to R123): the cycles that advance the array, the wait of a swap for its load, and the free
freezes of the feeders and the drain. A frozen cycle counts once in FROZEN and in each cause that held. -/
def State.meCycles (s : State) (e adv shadow : Nat) : State :=
  if s.meCounts e then
    let d := eDie e
    let i := eIdx e
    let fa := s.anyNat
    let fb := Config.freeNat (s.free + 1)
    let fd := Config.freeNat (s.free + 2)
    let most := max (max fa fb) (max fd shadow)
    let frozen := most + Config.freeNat (s.free + 3) % (fa + fb + fd + shadow - most + 1)
    (((((((s.count (TD_ME_CYC_ADV d i) adv).count (TD_ME_FROZEN d i) frozen).count (TD_ME_CYC_BUSY d i) (adv + frozen)).count
      (TD_ME_FRZ_FEED_A d i) fa).count (TD_ME_FRZ_FEED_B d i) fb).count (TD_ME_FRZ_DRAIN d i) fd).count
      (TD_ME_FRZ_SHADOW d i) shadow).setFree (s.free + 4)
  else s

/-- The array has streamed for cyc cycles. -/
def MatrixState.ran (m : MatrixState) (cyc : Nat) : MatrixState := { m with streamed := m.streamed + cyc, since := m.since + cyc }

/-- An MSTREAM streams its rows through the active plane (R101). -/
def State.stream (s : State) (r : Run) (e : Nat) (p : Plane) (b : List Byte) (swaps : Bool) (shadow : Nat) : Res :=
  let rows := leAt b 4 4
  match foldM (fun s i => s.streamOne r e s.free p b i) (List.range rows) s with
  | .error t => .trap t
  | .ok s1 =>
    let cyc := streamCycles (descAt b 16).format rows
    let s2 := s1.modRun e (fun r => { r with mx := r.mx.ran cyc })
    let s3 := s2.meCycles e (swaps.toNat + cyc) shadow
    .done (if s3.meCounts e then s3.count (TD_ME_ROWS (eDie e) (eIdx e)) rows else s3)

/-- The planes exchange (R91). What was loaded is in use, so that no later swap waits for that load. -/
def MatrixState.exchange (m : MatrixState) : MatrixState := 
  { m with active := m.shadow, shadow := m.active, streamed := 256, since := 0 }

/-- A swapping MSTREAM exchanges the planes and streams; the swap waits max(0, KR - S) cycles for the load, none where a command between
has waited for the load (R120). -/
def State.swapStream (s : State) (r : Run) (e : Nat) (b : List Byte) : Res :=
  match r.mx.shadow with
  | none => .ill (mstreamCodes b none s.fp4)
  | some p =>
    let s1 := (s.modRun e (fun r => { r with mx := r.mx.exchange })).showPlanes e
    match s1.stream { r with mx := r.mx.exchange } e p b true
        (if (s.depsOf e).loaded then 0 else p.kr - r.mx.streamed) with
    | .done t => .done ((t.showPlanes e).putDeps e { s.depsOf e with loaded := false })
    | x => x

/-- MSTREAM (R101, R114, R120). A swap that finds its shadow load unfinished waits for it. -/
def execMstream (e : Nat) (s : State) : Out :=
  .next (s.runCmd e (isOp 0x11) (fun r entry s1 =>
    let plane := if mSwap entry then r.mx.shadow else r.mx.active
    if mstreamCodes entry plane s1.fp4 ≠ [] then .ill (mstreamCodes entry plane s1.fp4)
    else if mSwap entry then
      if r.mx.loading then .stay (s.modRun e (fun r => { r with wait := .swap }))
      else s1.swapStream r e entry
    else match r.mx.active with
      | none => .ill [7]
      | some p => s1.stream r e p entry false 0))

/-- SWAP: the shadow load that a swapping MSTREAM waits for is finished; the planes exchange in one cycle and the MSTREAM streams
(R91, R120). -/
def execSwap (e : Nat) (s : State) : Out :=
  match Table.get? s.eng.runs e with
  | none => .next s
  | some r =>
    if r.wait = .swap ∧ ¬ r.mx.loading then
      let s0 := s.modRun e (fun r => { r with wait := .none })
      match s0.fetchEntry e r 128 with
      | .error t => .next (s.trapped e r t)
      | .ok (entry, s1) => .next (s0.settle e r 128 (s1.swapStream { r with wait := .none } e entry))
    else .next s

/-- MFENCE (R117). -/
def execMfence (e : Nat) (s : State) : Out := .next (s.fence e 0x12 (fun b => errs [(!zerosAt b 1 63, 4)]))

/-- MFENCE_COMPLETE: every earlier output row is written and acknowledged (R117). Its cycles drain the array. -/
def execMfenceComplete (e : Nat) (s : State) : Out :=
  if eKind e = 0 then .next (s.fenceDone e (fun s => s.meCycles e s.anyNat 0)) else .next s

end Sys2Proof.Machine
end

