-- ==== Sys2Proof/Machine/VecFn.lean ====
section
/-! DEFINITION. Division, square root and the T-class functions of the vector engines (R145, R147, R148, R150). The functions other
than SQRT are fixed in silicon within stated errors: each is an open constant of Config held to its error, around a value
computed here in fixed point to some 90 bits. -/
namespace Sys2Proof.Machine

/-- The quotient of finite values, exact or with a sticky bit below 64 significant bits, so that rounding it rounds the exact
quotient. The divisor is not zero. -/
def divFin (a : Bool) (m : Nat) (e : Int) (b : Bool) (n : Nat) (f : Int) : FV :=
  let k := 64 + Nat.log2 n
  let q := m * 2 ^ k / n
  let r := m * 2 ^ k % n
  .fin (a != b) (2 * q + (if r = 0 then 0 else 1)) (e - f - k - 1)

/-- floor(sqrt n), by k steps of the digit method from bit k down. -/
def isqrtFrom : Nat → Nat → Nat → Nat
  | 0, _, r => r
  | k + 1, n, r =>
    let r1 := r + 2 ^ k
    isqrtFrom k n (if r1 * r1 ≤ n then r1 else r)

/-- floor(sqrt n). -/
def isqrt (n : Nat) : Nat := isqrtFrom (Nat.log2 n / 2 + 1) n 0

/-- The square root of a positive finite value with a sticky bit below 64 significant bits. -/
def sqrtFin (m : Nat) (e : Int) : FV :=
  let k : Nat := if (e - 128) % 2 = 0 then 128 else 129
  let n := m * 2 ^ k
  let q := isqrt n
  .fin false (2 * q + (if q * q = n then 0 else 1)) ((e - k) / 2 - 1)

/-- ln 2 in units of 2^-128. -/
def ln2Fix : Nat := 235865763225513294137944142764154484399
/-- log2 e in units of 2^-128. -/
def log2eFix : Nat := 490923683258796565746369346286093237521

/-- A finite value in units of 2^-128, rounded down. -/
def fix (x : FV) : Int :=
  match x with
  | .fin n m e =>
    let v : Int := if -128 ≤ e then m * 2 ^ (e + 128).toNat else m / 2 ^ (-128 - e).toNat
    if n then -v else v
  | _ => 0

/-- The Taylor sum of e^g for g in [0, 1), in units of 2^-128. -/
def expSeries (g : Nat) : Nat :=
  ((List.range 40).foldl (fun (acc : Nat × Nat) i => (acc.1 + acc.2, acc.2 * g / 2 ^ 128 / (i + 1))) (0, 2 ^ 128)).1

/-- 2^t for t in units of 2^-128. -/
def exp2Fix (t : Int) : FV := .fin false (expSeries ((t % 2 ^ 128).toNat * ln2Fix / 2 ^ 128)) (t / 2 ^ 128 - 128)

/-- e^y for y in units of 2^-128. -/
def expFix (y : Int) : FV := exp2Fix (y * log2eFix / 2 ^ 128)

/-- k binary digits of log2 of z in [1, 2), z in units of 2^-128. -/
def logDigits : Nat → Nat → Nat → Nat
  | 0, _, acc => acc
  | k + 1, z, acc =>
    let z2 := z * z / 2 ^ 128
    if 2 ^ 129 ≤ z2 then logDigits k (z2 / 2) (2 * acc + 1) else logDigits k z2 (2 * acc)

/-- log2 of a positive finite value, in units of 2^-100. -/
def log2Fix (m : Nat) (e : Int) : Int :=
  expo m e * 2 ^ 100 + logDigits 100 (if Nat.log2 m ≤ 128 then m * 2 ^ (128 - Nat.log2 m) else m / 2 ^ (Nat.log2 m - 128)) 0

/-- The value a - b. -/
def FV.sub (a b : FV) : FV := a.add b.minus

/-- a / b for finite values, b not zero. -/
def quot : FV → FV → FV
  | .fin a m e, .fin b n f => divFin a m e b n f
  | _, _ => .nan

/-- The sigmoid 1 / (1 + e^-y), y in units of 2^-128. -/
def sigmoidFix (y : Int) : FV := quot (.fin false 1 0) ((FV.fin false 1 0).add (expFix (-y)))

/-- tanh y for y in units of 2^-128: 1 - 2 / (e^2y + 1); beyond 60 it is 1 to every digit kept. -/
def tanhFix (y : Int) : FV :=
  if 60 * 2 ^ 128 ≤ y then .fin false 1 0
  else if y ≤ -60 * 2 ^ 128 then .fin true 1 0
  else (FV.fin false 1 0).sub (quot (.fin false 2 0) ((expFix (2 * y)).add (.fin false 1 0)))

/-- Is v within tol of c, with tol = max(ulps units in the last place of c's FP32 rounding, 2^-abs)? Numbers are compared after a
widening of the bound by one part in 2^20, which covers the error of c itself. -/
def within (v c : FV) (ulps : Nat) (absExp : Option Int) : Bool :=
  match v, c with
  | .fin vn vm ve, .fin cn cm ce =>
    if cm = 0 then decide (vm = 0)
    else
      let ulp : Int := max (expo cm ce) (-126) - 23
      let d := (FV.fin vn vm ve).sub (.fin cn cm ce)
      let tol1 : FV := (FV.fin false ulps ulp).mul (.fin false (2 ^ 20 + 1) (-20))
      let near (t : FV) : Bool := !t.lt d.abs
      near tol1 || (match absExp with | some k => near ((FV.fin false 1 k).mul (.fin false (2 ^ 20 + 1) (-20))) | none => false)
  | _, _ => false

/-- What a T-class function of a finite argument returns: the engine's own bits where they lie within the error of the exact
value c, else the rounding of c. An exact value that overflows or is flushed gives that. -/
def settled (op x : Nat) (c : FV) (ulps : Nat) (absExp : Option Int) : FV :=
  match c.round32 with
  | .fin n m e =>
    if m = 0 ∧ absExp.isNone then .fin n m e
    else
      let v := decode32 (Config.vectorFn op x)
      if within v c ulps absExp then v else .fin n m e
  | y => y

/-- The flags an operation raises (R148): invalid, division by zero, overflow. -/
structure Exc where
  invalid : Bool := false
  divZero : Bool := false
  overflow : Bool := false
  sat : Bool := false
  deriving DecidableEq, Repr

/-- A result rounded by round_fp32; finite operands whose rounded result is infinite overflow (R147, R148). -/
def rounded (x : FV) : FV × Exc :=
  let y := x.round32
  (y, { overflow := y.isInf && !x.isInf })

/-- A positive argument's logarithm, its base-2 logarithm times k (in units of 2^-128, for LOG: ln 2). -/
def logOf (op code m : Nat) (e : Int) (k : Nat) : FV :=
  if m = 2 ^ Nat.log2 m ∧ op = 0x23 then FV.ofInt (expo m e) 0 false
  else settled op code (FV.ofInt (log2Fix m e * k) (-228) false) 2 none

/-- GELU's inner argument 0.7978845608 (x + 0.044715 x^3) in units of 2^-128, for x in the same units. -/
def geluArg (x : Int) : Int :=
  let cube := x * x / 2 ^ 128 * x / 2 ^ 128
  (x + cube * 44715 / 1000000) * 7978845608 / 10000000000

/-- T-class functions of a finite non-zero argument, by OP 0x20 to 0x2A (R145, R150). -/
def tFinite (op code : Nat) (n : Bool) (m : Nat) (e : Int) : FV × Exc :=
  let x : FV := .fin n m e
  let huge := decide (20 < expo m e)
  match op with
  | 0x20 => if huge then (if n then (.fin false 0 0, {}) else (.inf false, { overflow := true }))
            else
              let y := settled op code (expFix (fix x)) 2 none
              (y, { overflow := y.isInf })
  | 0x21 => if huge then (if n then (.fin false 0 0, {}) else (.inf false, { overflow := true }))
            else if fix x % 2 ^ 128 = 0 then rounded (.fin false 1 (fix x / 2 ^ 128))
            else
              let y := settled op code (exp2Fix (fix x)) 1 none
              (y, { overflow := y.isInf })
  | 0x22 => if n then (.nan, { invalid := true })
            else if m = 2 ^ Nat.log2 m ∧ expo m e = 0 then (.fin false 0 0, {})
            else (logOf op code m e ln2Fix, {})
  | 0x23 => if n then (.nan, { invalid := true }) else (logOf op code m e (2 ^ 128), {})
  | 0x24 =>
    let c := divFin false 1 0 n m e
    if m = 2 ^ Nat.log2 m then rounded c
    else
      let y := settled op code c 1 none
      (y, { overflow := y.isInf })
  | 0x25 => if n then (.nan, { invalid := true })
            else (settled op code (quot (.fin false 1 0) (sqrtFin m e)) 2 none, {})
  | 0x26 => if n then (.nan, { invalid := true }) else ((sqrtFin m e).round32, {})
  | 0x27 => if !(FV.abs x).lt (quot (.fin false 91 0) (.fin false 10 0)) then (.fin n 1 0, {})
            else (settled op code (tanhFix (fix x)) 2 (some (-24)), {})
  | 0x28 => if !n && !(x.lt (quot (.fin false 174 0) (.fin false 10 0))) then (.fin false 1 0, {})
            else if n && !((FV.fin true 88 0).lt x) then (.fin false 0 0, {})
            else (settled op code (sigmoidFix (fix x)) 2 (some (-24)), {})
  | 0x29 =>
    let h := (x.scale (-1)).mul ((FV.fin false 1 0).add (tanhFix (geluArg (fix x))))
    if n && decide (5 < expo m e) then (settled op code (.fin true 1 (-140)) 4 (some (-22)), {})
    else (settled op code h 4 (some (-22)), {})
  | _ =>
    if n && decide (7 < expo m e) then (settled op code (.fin true 1 (-140)) 4 (some (-22)), {})
    else if !n && decide (7 < expo m e) then (settled op code x 4 (some (-22)), {})
    else (settled op code (x.mul (sigmoidFix (fix x))) 4 (some (-22)), {})

/-- T-class functions of a zero (R148, R150). -/
def tZero (op code : Nat) (n : Bool) : FV × Exc :=
  match op with
  | 0x20 | 0x21 => (.fin false 1 0, {})
  | 0x22 | 0x23 => (.inf true, { divZero := true })
  | 0x24 | 0x25 => (.inf n, { divZero := true })
  | 0x26 => (.fin n 0 0, {})
  | 0x27 => (settled op code (.fin n 1 (-160)) 2 (some (-24)), {})
  | 0x28 => (settled op code (.fin false 1 (-1)) 2 (some (-24)), {})
  | _ => (settled op code (.fin n 1 (-160)) 4 (some (-22)), {})

/-- T-class functions of an infinity (R148, R150). -/
def tInf (op : Nat) (n : Bool) : FV × Exc :=
  match op with
  | 0x20 | 0x21 => (if n then .fin false 0 0 else .inf false, {})
  | 0x22 | 0x23 | 0x26 => if n then (.nan, { invalid := true }) else (.inf false, {})
  | 0x24 => (.fin n 0 0, {})
  | 0x25 => if n then (.nan, { invalid := true }) else (.fin false 0 0, {})
  | 0x27 => (.fin n 1 0, {})
  | 0x28 => (if n then .fin false 0 0 else .fin false 1 0, {})
  | _ => (if n then .fin true 0 0 else .inf false, {})

/-- A T-class function (R145). -/
def tClass (op : Nat) (x : FV) : FV × Exc :=
  match x with
  | .nan => (.nan, {})
  | .inf n => tInf op n
  | .fin n m e => if m = 0 then tZero op (encode32 x) n else tFinite op (encode32 x) n m e

/-- DIV, correctly rounded (R145, R148). -/
def divOp (x y : FV) : FV × Exc :=
  match x, y with
  | .nan, _ => (.nan, {})
  | _, .nan => (.nan, {})
  | .inf _, .inf _ => (.nan, { invalid := true })
  | .inf a, .fin b _ _ => (.inf (a != b), {})
  | .fin a _ _, .inf b => (.fin (a != b) 0 0, {})
  | .fin a m e, .fin b n f =>
    if n = 0 then (if m = 0 then (.nan, { invalid := true }) else (.inf (a != b), { divZero := true }))
    else if m = 0 then (.fin (a != b) 0 0, {})
    else rounded (divFin a m e b n f)

end Sys2Proof.Machine
end

