-- ==== Sys2Proof/Machine/Chain.lean ====
section
/-! DEFINITION. Vector engines: tiles, casts, and the fused chains of R140 to R151 as functions of the tile contents. -/
namespace Sys2Proof.Machine

/-! ## Tiles -/

/-- Is the TYPE a tile type (R131)? -/
def tileType (ty : Nat) : Bool := decide (ty < 8) && decide (ty ≠ 2)
/-- Is the TYPE of the float class? -/
def isFloat (ty : Nat) : Bool := decide (ty ≤ 3) || decide (ty = 6)
/-- Elements per row of a tile type (R131). -/
def perRow (ty : Nat) : Nat := 2048 / elemBits ty
/-- Bytes of an element of a tile type. -/
def elemBytes (ty : Nat) : Nat := elemBits ty / 8

/-- The bytes of a row of a tile. -/
def VectorState.row (v : VectorState) (t i : Nat) : List Byte := getBytes v.tiles (t * 16384 + i * 256) 256

/-- Element (i, j) of a tile read in a type, as its code. -/
def VectorState.el (v : VectorState) (ty t i j : Nat) : Nat := leNat (getBytes v.tiles (t * 16384 + i * 256 + j * elemBytes ty) (elemBytes ty))

/-- Bytes written into a tile's row from a byte on. -/
def VectorState.putBytes (v : VectorState) (t i off : Nat) (bs : List Byte) : VectorState :=
  { v with tiles := Machine.putBytes v.tiles (t * 16384 + i * 256 + off) bs }

/-- Element (i, j) of a tile written in a type. -/
def VectorState.put (v : VectorState) (ty t i j code : Nat) : VectorState := v.putBytes t i (j * elemBytes ty) (leBytes (elemBytes ty) code)

/-- The integer value of a code of an integer type. -/
def intOf (ty c : Nat) : Int := if ty = 4 then signed 8 c else if ty = 5 then (c % 256 : Nat) else signed 32 c

/-- Exceptions of two steps together. -/
def Exc.or (a b : Exc) : Exc := ⟨a.invalid || b.invalid, a.divZero || b.divZero, a.overflow || b.overflow, a.sat || b.sat⟩

/-- The cast of a float value with its exceptions (R107, R151): clamps, and a finite value turned into an infinity or a NaN. -/
def castFloat (ty : Nat) (sat : Bool) (x : FV) : Nat × Exc :=
  let c := castElem ty sat x
  let y := decodeElem ty c.code
  (c.code, { sat := c.clamped, overflow := !x.isNan && !x.isInf && (y.isNan || y.isInf) })

/-- An integer clamped to a type's range (R136, R143). -/
def clampInt (ty : Nat) (x : Int) : Nat × Exc :=
  let lo : Int := if ty = 4 then -128 else if ty = 5 then 0 else -2147483648
  let hi : Int := if ty = 4 then 127 else if ty = 5 then 255 else 2147483647
  let y := max lo (min hi x)
  (unsigned (elemBits ty) y, { sat := decide (y ≠ x) })

/-- An element converted from one format to another of its class (R136), with a scale's exponent for a block-scaled source (none
for scale 0xFF, which gives NaN). -/
def convertCode (from' tgt : Nat) (sat : Bool) (scale : Option Int) (c : Nat) : Nat × Exc :=
  if isFloat tgt then
    castFloat tgt sat (match scale with | some k => (decodeElem from' c).scale k | none => .nan)
  else clampInt tgt (intOf from' c)

/-! ## Chains -/

/-- A stage of a chain (R142). -/
structure Stage where
  op : Nat
  b : Nat
  c : Nat
  deriving DecidableEq, Repr

/-- A running value: of domain F, of domain I, or a predicate (R143, R144). -/
inductive VVal where
  | f (x : FV)
  | i (x : Int)
  | p (x : Bool)
  deriving DecidableEq, Repr

/-- The domain of a chain at a stage. -/
inductive Dom where
  | f | i | p
  deriving DecidableEq, Repr

/-- Which operands a stage takes: none, b, or b and c. -/
def stageArity (op : Nat) : Option Nat :=
  if op = 5 ∨ op = 0x0C then some 2
  else if (1 ≤ op ∧ op ≤ 8) ∨ op = 0x0B ∨ (0x10 ≤ op ∧ op ≤ 0x15) ∨ op = 0x18 ∨ op = 0x19 ∨ (0x30 ≤ op ∧ op ≤ 0x35) then some 1
  else if op = 9 ∨ op = 0x0A ∨ op = 0x0D ∨ op = 0x16 ∨ op = 0x1A ∨ (0x20 ≤ op ∧ op ≤ 0x2A) ∨ op = 0x38 ∨ op = 0x39 ∨ op = 0x3A then some 0
  else none

/-- The domain after a stage; none where the stage may not run in the domain (R143 to R145, R149). -/
def stageDom (op : Nat) : Dom → Option Dom
  | .f =>
    if op = 0x38 then some .i
    else if (0x10 ≤ op ∧ op ≤ 0x15) ∨ op = 0x16 then some .p
    else if (1 ≤ op ∧ op ≤ 0x0D) ∨ (0x20 ≤ op ∧ op ≤ 0x2A) ∨ op = 0x3A then some .f
    else none
  | .i =>
    if op = 0x39 then some .f
    else if 0x10 ≤ op ∧ op ≤ 0x15 then some .p
    else if (1 ≤ op ∧ op ≤ 0x0D ∧ op ≠ 6) ∨ (0x30 ≤ op ∧ op ≤ 0x35) then some .i
    else none
  | .p => if op = 0x18 ∨ op = 0x19 ∨ op = 0x1A then some .p else none

/-- Is a source code defined (R142)? -/
def sourceOk (c : Nat) : Bool := decide (c < 0x42) || decide (c = 0x50)

/-- Is operand b of the operation read as a predicate, in its own type (R143)? -/
def predOperand (op : Nat) : Bool := decide (op = 0x0C) || decide (op = 0x18) || decide (op = 0x19)

/-- Does the class of an operand match the domain? f0 and f1: the classes of the broadcasts; ft: the class of TYPE. -/
def classOk (ft f0 f1 : Bool) (d : Dom) (c : Nat) : Bool :=
  let cl := if c = 0x40 then f0 else if c = 0x41 then f1 else ft
  match d with | .f => cl | .i => !cl | .p => true

/-- The domain at a chain's end; none where a stage is ill-formed. classes: the classes of operands are checked. -/
def chainDom (classes ft f0 f1 : Bool) : List Stage → Dom → Option Dom
  | [], d => some d
  | st :: rest, d =>
    match stageArity st.op, stageDom st.op d with
    | some n, some d2 =>
      let bOk := if 1 ≤ n then sourceOk st.b && (predOperand st.op || !classes || classOk ft f0 f1 d st.b) else decide (st.b = 0xFF)
      let cOk := if n = 2 then sourceOk st.c && (!classes || classOk ft f0 f1 d st.c) else decide (st.c = 0xFF)
      if bOk ∧ cOk then chainDom classes ft f0 f1 rest d2 else none
    | _, _ => none

/-- What a stage's operands are drawn from at element (i, j): TYPE, the tiles, the raw codes of the broadcasts with their
types, and the chain's input. -/
structure ChainEnv where
  ty : Nat
  tiles : VectorState
  t0 : Nat
  b0 : Nat → Nat → Nat
  t1 : Nat
  b1 : Nat → Nat → Nat

/-- The code of an operand at (i, j) and the type it is read in. -/
def ChainEnv.code (v : ChainEnv) (x0 c i j : Nat) : Nat × Nat :=
  if c < 0x20 then (v.ty, v.tiles.el v.ty c i j)
  else if c < 0x40 then (v.ty, v.tiles.el v.ty (c - 0x20) i 0)
  else if c = 0x40 then (v.t0, v.b0 i j)
  else if c = 0x41 then (v.t1, v.b1 i j)
  else (v.ty, x0)

/-- An operand as a value of its class. -/
def operandVal (x : Nat × Nat) : VVal := if isFloat x.1 then .f (decodeElem x.1 x.2) else .i (intOf x.1 x.2)

/-- x + y in domain F with its exceptions (R147, R148). -/
def addF (x y : FV) : FV × Exc :=
  let z := x.add y
  if z.isNan then (.nan, { invalid := !x.isNan && !y.isNan }) else rounded z

/-- The larger (or smaller) of two values in domain F (R148). -/
def maxF (larger : Bool) (x y : FV) : FV :=
  if x.isNan ∨ y.isNan then .nan
  else if x.lt y then (if larger then y else x)
  else if y.lt x then (if larger then x else y)
  else if larger then (if x.neg then y else x)
  else (if x.neg then x else y)

/-- A 32-bit wrapped integer. -/
def wrap32 (x : Int) : Int := signed 32 (unsigned 32 x)

/-- A comparison, by OP 0x10 to 0x15, from "less" and "equal"; unordered makes only CMP_NE true (R148). -/
def compareBy (op : Nat) (unordered lt eq : Bool) : Bool :=
  if unordered then decide (op = 0x15)
  else match op with
    | 0x10 => lt
    | 0x11 => lt || eq
    | 0x12 => !lt && !eq
    | 0x13 => !lt
    | 0x14 => eq
    | _ => !eq

/-- One stage in domain F. -/
def stageF (op : Nat) (x b c : FV) (bTrue : Bool) (idx : Nat) : VVal × Exc :=
  let out (r : FV × Exc) : VVal × Exc := (.f r.1, r.2)
  match op with
  | 0x01 => out (addF x b)
  | 0x02 => out (addF x b.minus)
  | 0x03 => out (addF b x.minus)
  | 0x04 => let z := x.mul b
            if z.isNan then (.f .nan, { invalid := !x.isNan && !b.isNan }) else out (rounded z)
  | 0x05 => let z := (x.mul b).add c
            if z.isNan then (.f .nan, { invalid := !x.isNan && !b.isNan && !c.isNan })
            else
              let y := z.round32
              (.f y, { overflow := y.isInf && !x.isInf && !b.isInf && !c.isInf })
  | 0x06 => out (divOp x b)
  | 0x07 => (.f (maxF true x b), {})
  | 0x08 => (.f (maxF false x b), {})
  | 0x09 => (.f x.abs, {})
  | 0x0A => (.f x.minus, {})
  | 0x0B => (.f b, {})
  | 0x0C => (.f (if bTrue then x else c), {})
  | 0x0D => (.f (.fin false idx 0), {})
  | 0x16 => (.p (!x.isNan && !x.isInf), {})
  | 0x38 => (match x with
    | .nan => (.i 0, { sat := true })
    | .inf n => (.i (if n then -2147483648 else 2147483647), { sat := true })
    | .fin n m e => let r := sat32 (nearestInt n m e)
      (.i r.1, { sat := r.2 }))
  | 0x3A => (match x with
    | .fin n m e => (.f (.fin n (roundAt m e 0) 0), {})
    | y => (.f y, {}))
  | op =>
    if 0x10 ≤ op ∧ op ≤ 0x15 then (.p (compareBy op (x.isNan || b.isNan) (x.lt b) (x.eq b)), {})
    else out (tClass op x)

/-- One stage in domain I (R145, R149). -/
def stageI (op : Nat) (x b c : Int) (bTrue : Bool) (idx : Nat) : VVal × Exc :=
  let out (r : Int) : VVal × Exc := (.i (wrap32 r), {})
  let ux := unsigned 32 x
  let ub := unsigned 32 b
  match op with
  | 0x01 => out (x + b)
  | 0x02 => out (x - b)
  | 0x03 => out (b - x)
  | 0x04 => out (x * b)
  | 0x05 => out (x * b + c)
  | 0x07 => out (max x b)
  | 0x08 => out (min x b)
  | 0x09 => out x.natAbs
  | 0x0A => out (-x)
  | 0x0B => out b
  | 0x0C => out (if bTrue then x else c)
  | 0x0D => out idx
  | 0x30 => out (ux &&& ub)
  | 0x31 => out (ux ||| ub)
  | 0x32 => out (ux ^^^ ub)
  | 0x33 => out (ux <<< (ub % 32))
  | 0x34 => out (ux >>> (ub % 32))
  | 0x35 => out (x / 2 ^ (ub % 32))
  | 0x39 => (.f (FV.ofInt x 0 false).round32, {})
  | op => (.p (compareBy op false (decide (x < b)) (decide (x = b))), {})

/-- The float value of a running value or operand (of class float where the chain is well-formed). -/
def VVal.float : VVal → FV
  | .f x => x
  | _ => .nan
/-- The integer value of a running value or operand. -/
def VVal.int : VVal → Int
  | .i x => x
  | _ => 0

/-- One stage at element (i, j). -/
def ChainEnv.stage (v : ChainEnv) (x0 i j : Nat) (st : Stage) (x : VVal) : VVal × Exc :=
  let b := v.code x0 st.b i j
  let c := v.code x0 st.c i j
  let idx := i * perRow v.ty + j
  match x with
  | .f y => stageF st.op y (operandVal b).float (operandVal c).float (decide (b.2 ≠ 0)) idx
  | .i y => stageI st.op y (operandVal b).int (operandVal c).int (decide (b.2 ≠ 0)) idx
  | .p y => (.p (if st.op = 0x18 then y && decide (b.2 ≠ 0) else if st.op = 0x19 then y || decide (b.2 ≠ 0) else !y), {})

/-- The stages of a chain at element (i, j), with the exceptions of the element. -/
def ChainEnv.run (v : ChainEnv) (x0 i j : Nat) : List Stage → VVal × Exc → VVal × Exc
  | [], r => r
  | st :: rest, r =>
    let y := v.stage x0 i j st r.1
    v.run x0 i j rest (y.1, r.2.or y.2)

/-- All ones or zeros of an element of a type (R133). -/
def predCode (ty : Nat) (p : Bool) : Nat := if p then 2 ^ elemBits ty - 1 else 0

/-- The final cast of a chain (R143, R144). -/
def finalCode (dty : Nat) (sat : Bool) : VVal → Nat × Exc
  | .f x => castFloat dty sat x
  | .i x => clampInt dty x
  | .p b => (predCode dty b, {})

/-- The element a chain writes at (i, j). -/
def ChainEnv.result (v : ChainEnv) (stages : List Stage) (src dty i j : Nat) (sat : Bool) : Nat × Exc :=
  let x0 := v.tiles.el v.ty src i j
  let r := v.run x0 i j stages (operandVal (v.ty, x0), {})
  let c := finalCode dty sat r.1
  (c.1, r.2.or c.2)

/-- The cost class of an operation: 0 N, 1 L, 2 T (R145). -/
def opClass (op : Nat) : Nat :=
  if op = 6 ∨ (0x20 ≤ op ∧ op ≤ 0x2A) then 2
  else if (7 ≤ op ∧ op ≤ 0x0C) ∨ (0x10 ≤ op ∧ op ≤ 0x1A) then 0
  else 1

/-- The cycles of a chain (R146, R153). -/
def chainCycles (ty dty rows : Nat) (stages : List Stage) : Nat :=
  let lanes := ceilDiv (rows * perRow ty) 128
  if ty = dty ∧ ty ≤ 5 ∧ stages.all (fun st => opClass st.op = 0) then stages.length * ceilDiv rows 2
  else stages.foldl (fun n st => n + (if opClass st.op = 2 then 4 * lanes else lanes)) 0

end Sys2Proof.Machine
end

