-- ==== Sys2Proof/Machine/Vector.lean ====
section
/-! DEFINITION. The vector engines' commands (R130 to R173). -/
namespace Sys2Proof.Machine

/-! ## Commands in general -/

/-- The common header of a vector command (R134). -/
structure VHdr where
  flags : Nat
  rows : Nat
  ty : Nat
  dst : Nat
  src : Nat
  aux : Nat
  sel : Nat
  deriving DecidableEq, Repr

/-- The header of an entry. -/
def vhdr (b : List Byte) : VHdr :=
  { flags := byteOf b 1, rows := byteOf b 2, ty := byteOf b 3, dst := byteOf b 4, src := byteOf b 5, aux := byteOf b 6, sel := byteOf b 7 }

/-- Are bits of a byte outside a mask zero? -/
def onlyBits (v mask : Nat) : Bool := decide (v &&& mask = v)

/-- ROWS in range for a command that acts on rows. -/
def VHdr.rowsOk (h : VHdr) : Bool := decide (1 ≤ h.rows) && decide (h.rows ≤ 64)

/-- Do the die's vector-engine counters count? -/
def State.veCounts (s : State) (e : Nat) : Bool := s.flag (TD_VE_CFG (eDie e)) F.TD_VE_CFG_COUNT_EN

/-- A number of exceptions of a kind. -/
def excCount (xs : List Exc) (p : Exc → Bool) : Nat := (xs.filter p).length

/-- The exception counters (R148, R151). -/
def State.veExc (s : State) (e : Nat) (xs : List Exc) : State :=
  if s.veCounts e then
    let d := eDie e
    let i := eIdx e
    (((s.count (TD_VE_EXC_INVALID d i) (excCount xs (·.invalid))).count (TD_VE_EXC_DIVZERO d i) (excCount xs (·.divZero))).count
      (TD_VE_EXC_OVERFLOW d i) (excCount xs (·.overflow))).count (TD_VE_EXC_SAT d i) (excCount xs (·.sat))
  else s

/-- A completed vector command's counters: its cost, its waits for memory and for earlier results, and itself (R153, R154, R170). -/
def State.veCount (s : State) (e cost w dep : Nat) : State :=
  if s.veCounts e then
    let d := eDie e
    let i := eIdx e
    ((((s.count (TD_VE_CYC_ACT d i) cost).count (TD_VE_WAIT_MEM d i) w).count (TD_VE_WAIT_DEP d i) dep).count
      (TD_VE_CYC_BUSY d i) (cost + w + dep)).count (TD_VE_CMDS d i)
  else s

/-- The registers of R154 in Timing: tile t as t, then the count registers, the carry row and the side accumulator. -/
def cntReg (k : Nat) : Nat := 32 + k
/-- The carry row. -/
def carryReg : Nat := 40
/-- The side accumulator. -/
def sideReg : Nat := 41

/-- The cycles of a vector command that reads some registers and writes others: it waits until what it reads can be read, 24 cycles
after the last cycle of the command that wrote it, then for memory, a free number of cycles (R153, R154, log entry 94). -/
def State.veCycles (s : State) (e cost : Nat) (memory : Bool) (reads writes : List Nat) (red : Option (Nat × Nat) := none) : State :=
  let x := s.depsOf e
  let w := if memory then s.anyNat else 0
  let dep := x.wait reads
  let x1 := x.pass (dep + w + cost)
  let late := writes.foldl (fun l k => Table.put l k 24) x1.late
  ((s.putDeps e { late := late, red := red }).veCount e cost w dep).tookFree

/-- The vector state of an engine's run replaced. -/
def State.putVx (s : State) (e : Nat) (v : VectorState) : State := (s.modRun e (fun r => { r with vx := v })).showPlanes e

/-- A vector command runs: ill-formed under its CODEs (R167), or its body. -/
def State.vcmd (s : State) (e : Nat) (mine : List Byte → Bool) (codes : List Byte → List Nat) (body : Run → List Byte → State → Res) : State :=
  s.runCmd e mine (fun r entry s1 => if codes entry ≠ [] then .ill (codes entry) else body r entry s1)

/-- Positions of rows and columns in row-major order. -/
def positions (rows cols : Nat) : List (Nat × Nat) := ((List.range rows).map (fun i => (List.range cols).map (fun j => (i, j)))).flatten

/-! ## Loads and stores -/

/-- The CODEs of a descriptor of VLOAD or VSTORE against its tile type (R110, R111, R136, R167, R556). -/
def memCodes (d : Desc) (ty rows : Nat) (output fp4 : Bool) : List Nat :=
  errs [(!d.fmtOk || d.noFp4 fp4 || !tileType ty || (d.fmtOk && decide (isFloat d.ty ≠ isFloat ty)), 2),
    (!d.aligned output, 4),
    (!d.inSram rows rows (d.width / 32), 5),
    (decide (d.width = 0 ∨ perRow ty < d.width), 6),
    ((d.bs && decide (3 ≤ d.ty)) || (!d.bs && decide (d.ty = 2)) || (d.bs && (decide (d.width % 32 ≠ 0) || !isFloat ty)), 8)]

/-- The CODEs of an ill-formed VLOAD (R134, R135, R167). -/
def vloadCodes (b : List Byte) (fp4 : Bool) : List Nat :=
  let h := vhdr b
  memCodes (descAt b 16) h.ty h.rows false fp4 ++ errs [(decide (32 ≤ h.dst), 3),
    (!onlyBits h.flags 1 || decide (h.sel ≠ 0) || !zerosAt b 8 8 || !zerosAt b 48 16, 4), (!h.rowsOk, 6)]

/-- One value fed into the side accumulator (R166). -/
def sideFeed (arm acc c : Nat) : Nat :=
  if arm = 1 then encode32 (((decode32 acc).add (decode32 c)).round32) else encode32 (maxF true (decode32 acc) (decode32 c))

/-- One row of a load: the converted elements, with zeros up to the row's end, and the exceptions (R135, R136). -/
def loadRow (d : Desc) (ty : Nat) (sat : Bool) (bs scales : List Byte) : List Nat × List Exc :=
  let cs := (rowCodes d.ty d.width bs).zipIdx.map (fun x => convertCode d.ty ty sat (scaleOf d.bs (scales.map BitVec.toNat) (x.2 / 32)) x.1)
  (cs.map (·.1), cs.map (·.2))

/-- The rows of an operand and their scale rows. -/
def State.loadRows (s : State) (a : Access) (e : Nat) (d : Desc) (n : Nat) : Except Trap ((List (List Byte) × List (List Byte)) × State) :=
  match s.readRows a (d.place e) d.len (rowAddrs d.base d.stride n) with
  | .error t => .error t
  | .ok (rows, s1) =>
    if d.bs then
      match s1.readRows a (d.place e) (d.width / 32) (rowAddrs d.scaleBase d.scaleStride n) with
      | .error t => .error t
      | .ok (sc, s2) => .ok ((rows, sc), s2)
    else .ok ((rows, []), s1)

/-- VLOAD fills tile rows from memory (R135); the first FP32 load after an arm feeds the side accumulator (R166). -/
def execVload (e : Nat) (s : State) : Out :=
  .next (s.vcmd e (isOp 0x20) (fun b => vloadCodes b s.fp4) (fun r b s1 =>
    let h := vhdr b
    let d := descAt b 16
    match s1.loadRows (r.access e 0) e d h.rows with
    | .error t => .trap t
    | .ok ((rows, sc), s2) =>
      let out := (List.range h.rows).map (fun i => loadRow d h.ty (bit h.flags 0) ((rows[i]?).getD []) ((sc[i]?).getD []))
      let v := out.zipIdx.foldl (fun (v : VectorState) x =>
        v.putBytes h.dst x.2 0 (((x.1.1.map (leBytes (elemBytes h.ty))).flatten ++ List.replicate 256 0).take 256)) r.vx
      let feeds := decide (h.ty = 6) && decide (v.sideArm ≠ 0)
      let v1 := if feeds then { v with side := (out.map (·.1)).flatten.foldl (sideFeed v.sideArm) v.side, sideArm := 0 } else v
      let s3 := (s2.putVx e v1).veExc e (out.map (·.2)).flatten
      .done (s3.veCycles e (max (ceilDiv h.rows 2) (ceilDiv (h.rows * d.len) 512)) true []
        (if feeds then [h.dst, sideReg] else [h.dst]))))

/-- The CODEs of an ill-formed VSTORE (R134, R137, R138, R167). -/
def vstoreCodes (b : List Byte) (v : VectorState) (fp4 : Bool) : List Nat :=
  let h := vhdr b
  let d := descAt b 16
  let always := errs [(decide (32 ≤ h.src), 3),
    (!onlyBits h.flags 7 || !onlyBits h.sel 0x77 || !zerosAt b 8 8 || !zerosAt b 48 16, 4)]
  if bit h.flags 1 then
    let n := (Sparse.get v.cnt (h.sel % 8)).toNat
    let at0 := d.base + (Sparse.get v.cnt (h.sel / 16)).toNat * elemBytes d.ty
    always ++ errs [(!d.fmtOk || d.noFp4 fp4 || !tileType h.ty || (d.fmtOk && decide (isFloat d.ty ≠ isFloat h.ty)), 2),
      (!{ d with stride := 0, width := 0 }.aligned false || (decide (d.space = 1) && decide (at0 % max 1 (elemBytes d.ty) ≠ 0)), 4),
      (decide (d.space = 0) && decide (sramBytes < at0 + n * elemBytes d.ty), 5),
      (d.bs || decide (d.ty = 2) || decide (64 * perRow h.ty < n), 9)]
  else always ++ memCodes d h.ty h.rows true fp4 ++ errs [(!h.rowsOk, 6)]

/-- One row of a store: its bytes, scale bytes and exceptions (R136, R137). -/
def storeRow (d : Desc) (ty : Nat) (sat : Bool) (codes : List Nat) : List Byte × List Byte × List Exc :=
  if d.bs then
    let y := outStage d.format true (codes.map (decodeElem ty))
    (rowBytes d.ty (y.casts.map (·.code)), y.scales.map (BitVec.ofNat 8), y.casts.map (fun c => { sat := c.clamped }))
  else
    let cs := codes.map (convertCode ty d.ty sat (some 0))
    (rowBytes d.ty (cs.map (·.1)), [], cs.map (·.2))

/-- The codes of columns 0 to n - 1 of a tile's row. -/
def VectorState.codes (v : VectorState) (ty t i n : Nat) : List Nat := (List.range n).map (fun j => v.el ty t i j)

/-- The rows of a store written one after another. -/
def State.storeRows (s : State) (a : Access) (e : Nat) (d : Desc) (rows : List (List Byte × List Byte × List Exc)) : Except Trap State :=
  foldM (fun s x =>
    match s.writeAt a (d.place e) (d.base + x.2 * d.stride) x.1.1 with
    | .error t => .error t
    | .ok s1 => if d.bs then s1.writeAt a (d.place e) (d.scaleBase + x.2 * d.scaleStride) x.1.2.1 else .ok s1) rows.zipIdx s

/-- VSTORE writes tile rows, or a packed run under the count registers (R137, R138). -/
def execVstore (e : Nat) (s : State) : Out :=
  .next (s.runCmd e (isOp 0x21) (fun r b s1 =>
    let h := vhdr b
    let d := descAt b 16
    let sat := bit h.flags 0
    let codes := vstoreCodes b r.vx s1.fp4
    if codes ≠ [] then .ill codes
    else if bit h.flags 1 then
      let n := (Sparse.get r.vx.cnt (h.sel % 8)).toNat
      let cur := Sparse.get r.vx.cnt (h.sel / 16)
      let ep := perRow h.ty
      let row := storeRow { d with format := d.ty } h.ty sat ((List.range n).map (fun k => r.vx.el h.ty h.src (k / ep) (k % ep)))
      match s1.writeAt (r.access e 1) (d.place e) (d.base + cur.toNat * elemBytes d.ty) row.1 with
      | .error t => .trap t
      | .ok s2 =>
        let v := if bit h.flags 2 then { r.vx with cnt := Sparse.set r.vx.cnt (h.sel / 16) (cur + BitVec.ofNat 32 n) } else r.vx
        .done (((s2.putVx e v).veExc e row.2.2).veCycles e (ceilDiv (n * elemBytes d.ty) 512 + 4) true
          [h.src, cntReg (h.sel % 8), cntReg (h.sel / 16)] (if bit h.flags 2 then [cntReg (h.sel / 16)] else []))
    else
      let rows := (List.range h.rows).map (fun i => storeRow d h.ty sat (r.vx.codes h.ty h.src i d.width))
      match s1.storeRows (r.access e 1) e d rows with
      | .error t => .trap t
      | .ok s2 =>
        .done ((s2.veExc e (rows.map (·.2.2)).flatten).veCycles e (max (ceilDiv h.rows 2) (ceilDiv (h.rows * d.len) 512)) true
          [h.src] [])))

/-! ## Chains -/

/-- The stages of a VCHAIN entry. -/
def chainStages (b : List Byte) : List Stage :=
  (List.range (byteOf b 7)).map (fun k => ⟨byteOf b (16 + 4 * k), byteOf b (17 + 4 * k), byteOf b (18 + 4 * k)⟩)

/-- Do the stages read a source code? -/
def usesCode (stages : List Stage) (c : Nat) : Bool :=
  stages.any (fun st => match stageArity st.op with
    | some 1 => decide (st.b = c)
    | some 2 => decide (st.b = c) || decide (st.c = c)
    | _ => false)

/-- The tiles that a VCHAIN reads: SRC, the mask's, and the operands of its stages, whole or in column 0 (R141, R142). -/
def chainReads (h : VHdr) (stages : List Stage) : List Nat :=
  let ops := (stages.map (fun st => match stageArity st.op with | some 1 => [st.b] | some 2 => [st.b, st.c] | _ => [])).flatten
  h.src :: (if bit h.flags 1 then [h.aux] else []) ++ (ops.filter (· < 64)).map (· % 32)

/-- The CODEs of a broadcast descriptor (R139): zero where unused. -/
def bcastCodes (b : List Byte) (o : Nat) (used : Bool) (ty rows : Nat) : List Nat :=
  let d := descAt b o
  if ¬ used then errs [(!zerosAt b o 32, 4)]
  else
    let one := decide (d.width = 1)
    let es := max 1 (elemBytes d.ty)
    errs [(!d.fmtOk, 2), (d.bs || decide (d.ty = 2), 2), (d.bs || decide (d.ty = 2), 8),
      ((if one then decide (d.base % es ≠ 0) || decide (d.stride % es ≠ 0)
          || !{ d with base := d.base / 16 * 16, stride := d.stride / 16 * 16 }.aligned false
        else !d.aligned false), 4),
      (!d.inSram (if d.stride = 0 then 1 else rows) 0 0, 5),
      (decide (d.width ≠ 1 ∧ d.width ≠ perRow ty), 6)]

/-- The CODEs of an ill-formed VCHAIN (R134, R140 to R145, R167). -/
def vchainCodes (b : List Byte) : List Nat :=
  let h := vhdr b
  let dty := byteOf b 8
  let stages := chainStages b
  let ft := isFloat h.ty
  let f0 := isFloat (byteOf b 57 % 16)
  let f1 := isFloat (byteOf b 89 % 16)
  let dom := chainDom true ft f0 f1 stages (if ft then .f else .i)
  let mixed := dom.isNone && (chainDom false ft f0 f1 stages (if ft then .f else .i)).isSome
  let clash := match dom with | some .f => !isFloat dty | some .i => isFloat dty | _ => false
  errs ([(!tileType h.ty || !tileType dty || decide (elemBits h.ty < elemBits dty), 2),
    (decide (32 ≤ h.dst ∨ 32 ≤ h.src ∨ (bit h.flags 1 ∧ 32 ≤ h.aux)), 3),
    (!onlyBits h.flags 3 || !zerosAt b 9 7 || !zerosAt b 112 16 || (List.range 8).any (fun k => byteOf b (19 + 4 * k) ≠ 0)
      || !zerosAt b (16 + 4 * h.sel) (32 - 4 * h.sel), 4),
    (!h.rowsOk, 6), (decide (h.sel = 0 ∨ 8 < h.sel) || dom.isNone, 7), (mixed || clash, 2), (clash, 7)])
  ++ bcastCodes b 48 (usesCode stages 0x40) h.ty h.rows ++ bcastCodes b 80 (usesCode stages 0x41) h.ty h.rows

/-- The raw codes of a broadcast descriptor, by row and column (R139). -/
def State.readBcast (s : State) (a : Access) (e : Nat) (used : Bool) (d : Desc) (rows : Nat) :
    Except Trap ((Nat → Nat → Nat) × State) :=
  if ¬ used then .ok ((fun _ _ => 0), s)
  else
    match s.readRows a (d.place e) d.len (rowAddrs d.base d.stride (if d.stride = 0 then 1 else rows)) with
    | .error t => .error t
    | .ok (rs, s1) =>
      let codes := rs.map (rowCodes d.ty d.width)
      .ok ((fun i j => ((codes[if d.stride = 0 then 0 else i]?).getD [])[if d.width = 1 then 0 else j]?.getD 0), s1)

/-- The elements a chain writes, by position, with their exceptions (R140, R141): the columns of TYPE, and where DTYPE is narrower
zeros in the columns beyond them. -/
def chainOut (v : ChainEnv) (h : VHdr) (dty : Nat) (stages : List Stage) : List ((Nat × Nat) × (Nat × Exc)) :=
  (positions h.rows (perRow dty)).filterMap (fun p =>
    if bit h.flags 1 ∧ v.tiles.el dty h.aux p.1 p.2 = 0 then none
    else if p.2 < perRow h.ty then some (p, v.result stages h.src dty p.1 p.2 (bit h.flags 0))
    else some (p, (0, {})))

/-- The tile contents after a chain. -/
def chainWrite (v : VectorState) (dst dty : Nat) (out : List ((Nat × Nat) × (Nat × Exc))) : VectorState :=
  out.foldl (fun v x => v.put dty dst x.1.1 x.1.2 x.2.1) v

/-- The exceptions of the elements a chain computes: of every element, where a mask keeps some unwritten too (log entry 18). -/
def chainExc (v : ChainEnv) (h : VHdr) (dty : Nat) (stages : List Stage) : List Exc :=
  (positions h.rows (perRow h.ty)).map (fun p => (v.result stages h.src dty p.1 p.2 (bit h.flags 0)).2)

/-- VCHAIN applies its stages element by element (R140 to R151). -/
def execVchain (e : Nat) (s : State) : Out :=
  .next (s.vcmd e (isOp 0x22) vchainCodes (fun r b s1 =>
    let h := vhdr b
    let stages := chainStages b
    let d0 := descAt b 48
    let d1 := descAt b 80
    match s1.readBcast (r.access e 0) e (usesCode stages 0x40) d0 h.rows with
    | .error t => .trap t
    | .ok (b0, s2) =>
      match s2.readBcast (r.access e 0) e (usesCode stages 0x41) d1 h.rows with
      | .error t => .trap t
      | .ok (b1, s3) =>
        let env : ChainEnv := ⟨h.ty, r.vx, d0.ty, b0, d1.ty, b1⟩
        let s4 := s3.putVx e (chainWrite r.vx h.dst (byteOf b 8) (chainOut env h (byteOf b 8) stages))
        .done ((s4.veExc e (chainExc env h (byteOf b 8) stages)).veCycles e (chainCycles h.ty (byteOf b 8) h.rows stages)
          (usesCode stages 0x40 || usesCode stages 0x41) (chainReads h stages) [h.dst])))

/-! ## Reductions -/

/-- The CODEs of an ill-formed VRED (R157, R167). -/
def vredCodes (b : List Byte) : List Nat :=
  let h := vhdr b
  errs [(!tileType h.ty, 2), (decide (32 ≤ h.dst ∨ 32 ≤ h.src ∨ (bit h.flags 1 ∧ 32 ≤ h.aux)), 3),
    (!onlyBits h.flags 3 || !onlyBits h.sel 0x1F || !zerosAt b 8 56, 4), (!h.rowsOk, 6),
    (decide (6 ≤ h.sel % 16 ∨ (bit h.flags 0 ∧ 4 ≤ h.sel % 16)), 12)]

/-- The identity of a reduction for masked-off and padding elements (R158). -/
def redIdentity (float : Bool) (op : Nat) : VVal :=
  if float then .f (if op = 1 then .inf true else if op = 2 then .inf false else FV.zero)
  else .i (if op = 1 then -2147483648 else if op = 2 then 2147483647 else 0)

/-- One combination of a reduction. -/
def redCombine (op : Nat) (a b : VVal × Exc) : VVal × Exc :=
  let x := a.2.or b.2
  match a.1, b.1 with
  | .f u, .f v =>
    if op = 1 then (.f (maxF true u v), x) else if op = 2 then (.f (maxF false u v), x)
    else
      let r := addF u v
      (.f r.1, x.or r.2)
  | u, v =>
    if op = 1 then (.i (max u.int v.int), x) else if op = 2 then (.i (min u.int v.int), x) else (.i (wrap32 (u.int + v.int)), x)

/-- Neighbours combined pairwise. -/
def redPairs (op : Nat) : List (VVal × Exc) → List (VVal × Exc)
  | a :: b :: l => redCombine op a b :: redPairs op l
  | l => l

/-- The tree of R158 over a list of 2^k elements. -/
def redTree (op : Nat) : Nat → List (VVal × Exc) → List (VVal × Exc)
  | 0, l => l
  | k + 1, l => redTree op k (redPairs op l)

/-- The square of SUMSQ, per element first. -/
def redSquare (x : VVal) : VVal × Exc :=
  match x with
  | .f u => let z := u.mul u
            let r := rounded z
            (.f r.1, r.2)
  | y => (.i (wrap32 (y.int * y.int)), {})

/-- The reduction of a group: elements with whether the mask keeps them (R158). -/
def reduce (float : Bool) (op : Nat) (xs : List (VVal × Bool)) : VVal × Exc :=
  let id := (redIdentity float op, ({} : Exc))
  let vs := xs.map (fun x => if x.2 then (if op = 3 then redSquare x.1 else (x.1, {})) else id)
  let k := if xs.length ≤ 1 then 0 else Nat.log2 (xs.length - 1) + 1
  ((redTree op k (vs ++ List.replicate (2 ^ k - vs.length) id)).head?).getD id

/-- Is a a better candidate than b for ARGMAX (4) or ARGMIN (5)? -/
def argBetter (op : Nat) (a b : VVal) : Bool :=
  match a, b with
  | .f u, .f v => if op = 4 then v.lt u else u.lt v
  | u, v => if op = 4 then decide (v.int < u.int) else decide (u.int < v.int)

/-- The index of the first greatest or least element that the mask keeps, of the first NaN, or -1 (R158). -/
def argReduce (op : Nat) (xs : List (VVal × Bool)) : Int :=
  let kept : List (VVal × Nat) := (xs.zipIdx.filter (fun x => x.1.2)).map (fun x => (x.1.1, x.2))
  match kept.find? (fun x => match x.1 with | .f u => u.isNan | _ => false) with
  | some x => x.2
  | none => match kept.foldl (fun (best : Option (VVal × Nat)) x => match best with
      | none => some x
      | some y => if argBetter op x.1 y.1 then some x else some y) none with
    | some y => y.2
    | none => -1

/-- The group that result k of a VRED reduces: row k, or column k of rows 0 to ROWS - 1. -/
def redGroup (v : VectorState) (h : VHdr) (k : Nat) : List (VVal × Bool) :=
  let ps := if bit h.sel 4 then (List.range h.rows).map (fun i => (i, k)) else (List.range (perRow h.ty)).map (fun j => (k, j))
  ps.map (fun p => (operandVal (h.ty, v.el h.ty h.src p.1 p.2), !bit h.flags 1 || decide (v.el h.ty h.aux p.1 p.2 ≠ 0)))

/-- Result k of a VRED as a 32-bit code, with its exceptions: FP32, or INT32 for integers and for indexes (R157). -/
def redResult (v : VectorState) (h : VHdr) (k : Nat) : Nat × Exc :=
  let op := h.sel % 16
  let at0 := if bit h.sel 4 then (k / 64, k % 64) else (k, 0)
  let float := isFloat h.ty
  if 4 ≤ op then (unsigned 32 (argReduce op (redGroup v h k)), {})
  else
    let r := reduce float op (redGroup v h k)
    let r2 := if bit h.flags 0 then
        redCombine (if op = 3 then 0 else op) (operandVal (if float then 6 else 7, v.el 6 h.dst at0.1 at0.2), {}) r else r
    match r2.1 with
    | .f x => (encode32 x, r2.2)
    | y => (unsigned 32 y.int, r2.2)

/-- VRED reduces rows or columns in one fixed order (R157, R158). An ACCUM on the tile of the VRED just before, with the same OP and AXIS,
takes its result by forwarding (R155). -/
def execVred (e : Nat) (s : State) : Out :=
  .next (s.vcmd e (isOp 0x23) vredCodes (fun r b s1 =>
    let h := vhdr b
    let n := if bit h.sel 4 then perRow h.ty else h.rows
    let out := (List.range n).map (fun k => redResult r.vx h k)
    let v := out.zipIdx.foldl (fun (v : VectorState) x =>
      if bit h.sel 4 then v.put 6 h.dst (x.2 / 64) (x.2 % 64) x.1.1 else v.put 6 h.dst x.2 0 x.1.1) r.vx
    let mask := if bit h.flags 1 then [h.aux] else []
    let acc := if bit h.flags 0 ∧ (s1.depsOf e).red ≠ some (h.dst, h.sel) then [h.dst] else []
    .done (((s1.putVx e v).veExc e (out.map (·.2))).veCycles e (ceilDiv (h.rows * perRow h.ty) 128 + 8) false (h.src :: mask ++ acc) [h.dst]
      (some (h.dst, h.sel)))))

/-! ## Scans -/

/-- The CODEs of an ill-formed VSCAN (R163, R167). -/
def vscanCodes (b : List Byte) : List Nat :=
  let h := vhdr b
  errs [(decide (h.ty ≠ 6 ∧ h.ty ≠ 7), 2), (decide (32 ≤ h.dst ∨ 32 ≤ h.src ∨ (bit h.flags 1 ∧ 32 ≤ h.aux)), 3),
    (!onlyBits h.flags 15 || !onlyBits h.sel 3 || !zerosAt b 8 56, 4), (!h.rowsOk, 6),
    (decide (h.sel = 3 ∨ (h.sel = 0 ∧ 4 ≤ h.flags % 16)), 11)]

/-- A scan's add: by round_fp32 in domain F, wrapping in domain I; whether it overflowed. -/
def scanAdd (float : Bool) (a b : Nat) : Nat × Bool :=
  if float then
    let r := addF (decode32 a) (decode32 b)
    (encode32 r.1, r.2.overflow)
  else ((a + b) % 2 ^ 32, false)

/-- A sequence scanned in order (R164): the position, element code and flag of each element; what is written, the overflows and
the final sum. -/
def scanSeq (float exclusive segmented : Bool) : List ((Nat × Nat) × Nat × Bool) → Nat → List ((Nat × Nat) × Nat × Bool) × Nat
  | [], acc => ([], acc)
  | (p, x, f) :: l, acc =>
    let s0 := if segmented ∧ f then 0 else acc
    let r := scanAdd float s0 x
    let rest := scanSeq float exclusive segmented l r.1
    ((p, if exclusive then s0 else r.1, r.2) :: rest.1, rest.2)

/-- The sequences of a VSCAN with their lanes: (lane, positions). -/
def scanSeqs (axis rows : Nat) : List (Nat × List (Nat × Nat)) :=
  if axis = 0 then (List.range rows).map (fun i => (0, (List.range 64).map (fun j => (i, j))))
  else if axis = 1 then (List.range 64).map (fun j => (j, (List.range rows).map (fun i => (i, j))))
  else [(0, positions rows 64)]

/-- VSCAN computes prefix sums (R163, R164). -/
def execVscan (e : Nat) (s : State) : Out :=
  .next (s.vcmd e (isOp 0x24) vscanCodes (fun r b s1 =>
    let h := vhdr b
    let axis := h.sel
    let v0 := r.vx
    let one (v : VectorState × List Exc) (q : Nat × List (Nat × Nat)) : VectorState × List Exc :=
      let items := q.2.map (fun p => (p, v0.el h.ty h.src p.1 p.2,
        bit h.flags 1 && decide (v0.el h.ty h.aux p.1 (if axis = 1 then 0 else p.2) ≠ 0)))
      let res := scanSeq (decide (h.ty = 6)) (bit h.flags 0) (bit h.flags 1) items (if bit h.flags 2 then (Sparse.get v0.carry q.1).toNat else 0)
      let v1 := res.1.foldl (fun (v : VectorState) x => v.put h.ty h.dst x.1.1 x.1.2 x.2.1) v.1
      (if bit h.flags 3 then { v1 with carry := Sparse.set v1.carry q.1 (BitVec.ofNat 32 res.2) } else v1,
       v.2 ++ res.1.map (fun x => { overflow := x.2.2 }))
    let out := (scanSeqs axis h.rows).foldl one (v0, [])
    .done (((s1.putVx e out.1).veExc e out.2).veCycles e (ceilDiv (h.rows * 64) 128 + (if axis = 2 then 96 else 64)) false
      (h.src :: (if bit h.flags 1 then [h.aux] else []) ++ (if bit h.flags 2 then [carryReg] else []))
      (h.dst :: (if bit h.flags 3 then [carryReg] else [])))))

/-! ## Compress, expand, transpose -/

/-- The CODEs of an ill-formed VCOMPRESS (R160, R162, R167). -/
def vcompressCodes (b : List Byte) (flagMask : Nat) : List Nat :=
  let h := vhdr b
  errs [(!tileType h.ty, 2), (decide (32 ≤ h.dst ∨ 32 ≤ h.src ∨ 32 ≤ h.aux ∨ h.dst = h.src ∨ h.dst = h.aux), 3),
    (!onlyBits h.flags flagMask || !onlyBits h.sel 7 || !zerosAt b 8 56, 4), (!h.rowsOk, 6)]

/-- VCOMPRESS packs the elements a predicate selects (R160). -/
def execVcompress (e : Nat) (s : State) : Out :=
  .next (s.vcmd e (isOp 0x25) (fun b => vcompressCodes b 0) (fun r b s1 =>
    let h := vhdr b
    let ep := perRow h.ty
    let taken := ((positions h.rows ep).filter (fun p => r.vx.el h.ty h.aux p.1 p.2 ≠ 0)).map (fun p => r.vx.el h.ty h.src p.1 p.2)
    let bytes := (taken.map (leBytes (elemBytes h.ty))).flatten
    let v := { r.vx with tiles := Machine.putBytes r.vx.tiles (h.dst * 16384) (bytes ++ List.replicate (16384 - bytes.length) 0),
                         cnt := Sparse.set r.vx.cnt h.sel (BitVec.ofNat 32 taken.length) }
    .done ((s1.putVx e v).veCycles e (ceilDiv h.rows 2 + 8) false [h.src, h.aux] [h.dst, cntReg h.sel])))

/-- VEXPAND scatters packed elements to the positions a predicate selects (R161). -/
def execVexpand (e : Nat) (s : State) : Out :=
  .next (s.vcmd e (isOp 0x26) (fun b => vcompressCodes b 1) (fun r b s1 =>
    let h := vhdr b
    let ep := perRow h.ty
    let out := (positions h.rows ep).foldl (fun (acc : VectorState × Nat) p =>
      if r.vx.el h.ty h.aux p.1 p.2 ≠ 0 then (acc.1.put h.ty h.dst p.1 p.2 (r.vx.el h.ty h.src (acc.2 / ep) (acc.2 % ep)), acc.2 + 1)
      else if bit h.flags 0 then acc else (acc.1.put h.ty h.dst p.1 p.2 0, acc.2)) (r.vx, 0)
    let v := { out.1 with cnt := Sparse.set out.1.cnt h.sel (BitVec.ofNat 32 out.2) }
    .done ((s1.putVx e v).veCycles e (ceilDiv h.rows 2 + 8) false [h.src, h.aux] [h.dst, cntReg h.sel])))

/-- The CODEs of an ill-formed VXPOSE (R162, R165, R167). -/
def vxposeCodes (b : List Byte) : List Nat :=
  let h := vhdr b
  errs [(!tileType h.ty, 2), (decide (32 ≤ h.dst ∨ 32 ≤ h.src ∨ h.dst = h.src ∨ h.dst = h.aux), 3),
    (decide (h.flags ≠ 0) || !onlyBits h.sel 0x33 || !zerosAt b 8 56, 4), (decide (h.rows ≠ 64), 6),
    (decide (perRow h.ty / 64 ≤ h.sel % 4 ∨ perRow h.ty / 64 ≤ h.sel / 16 % 4), 10)]

/-- VXPOSE transposes one 64 x 64 block (R165). -/
def execVxpose (e : Nat) (s : State) : Out :=
  .next (s.vcmd e (isOp 0x27) vxposeCodes (fun r b s1 =>
    let h := vhdr b
    let v := (positions 64 64).foldl (fun (v : VectorState) p =>
      v.put h.ty h.dst p.2 (64 * (h.sel / 16 % 4) + p.1) (r.vx.el h.ty h.src p.1 (64 * (h.sel % 4) + p.2))) r.vx
    .done ((s1.putVx e v).veCycles e 64 false [h.src] [h.dst])))

/-! ## Count registers, fences, the side reducer -/

/-- The CODEs of a 4-byte store at ADDR in SPACE (R159, R166). -/
def wordCodes (b : List Byte) : List Nat :=
  let a := leAt b 16 8
  let sp := byteOf b 24
  errs [(decide (2 ≤ sp ∨ a % 4 ≠ 0 ∨ (if sp = 0 then 2 ^ 26 else 2 ^ 57) ≤ a), 4), (decide (sp = 0 ∧ sramBytes < a + 4), 5)]

/-- The CODEs of an ill-formed VCNT (R159, R167). -/
def vcntCodes (b : List Byte) : List Nat :=
  let h := vhdr b
  errs [(!onlyBits h.flags 3 || !onlyBits h.sel 7 || !zerosAt b 12 4 || !zerosAt b 25 39, 4), (decide (h.rows ≠ 0), 6),
    (decide (h.flags % 4 = 3), 9)] ++ (if h.flags % 4 = 2 then wordCodes b else [])

/-- An entry of an opcode whose action, FLAGS bits [1:0], is one of a list. -/
def isAction (op : Nat) (acts : List Nat) (b : List Byte) : Bool := isOp op b && acts.contains (byteOf b 1 % 4)

/-- A 32-bit word stored at ADDR in SPACE, among the pending stores. -/
def State.wordStore (s : State) (r : Run) (e : Nat) (b : List Byte) (v : Nat) : Except Trap State :=
  s.writeAt (r.access e 1) (if byteOf b 24 = 0 then .sram (eCluster e) else .virt) (leAt b 16 8) (leBytes 4 v)

/-- A count register set to a function of itself and VALUE. -/
def State.vcnt (s : State) (e : Nat) (acts : List Nat) (f : BitVec 32 → BitVec 32 → BitVec 32) : State :=
  s.vcmd e (isAction 0x28 acts) vcntCodes (fun r b s1 =>
    let k := byteOf b 7
    .done ((s1.putVx e { r.vx with cnt := Sparse.set r.vx.cnt k (f (Sparse.get r.vx.cnt k) (BitVec.ofNat 32 (leAt b 8 4))) }).veCycles e 1 false
      (if acts = [1] then [cntReg k] else []) [cntReg k]))

/-- VCNT_SET; the undefined action 3 is found ill-formed here too (R159). -/
def execVcntSet (e : Nat) (s : State) : Out := .next (s.vcnt e [0, 3] (fun _ v => v))

/-- VCNT_ADD (R159). -/
def execVcntAdd (e : Nat) (s : State) : Out := .next (s.vcnt e [1] (fun c v => c + v))

/-- VCNT_STORE writes the register as a UINT32 (R159). -/
def execVcntStore (e : Nat) (s : State) : Out :=
  .next (s.vcmd e (isAction 0x28 [2]) vcntCodes (fun r b s1 =>
    match s1.wordStore r e b (Sparse.get r.vx.cnt (byteOf b 7)).toNat with
    | .error t => .trap t
    | .ok s2 => .done (s2.veCycles e 4 true [cntReg (byteOf b 7)] [])))

/-- VFENCE (R156). -/
def execVfence (e : Nat) (s : State) : Out :=
  .next (s.fence e 0x29 (fun b => errs [(!zerosAt b 1 1 || !zerosAt b 7 57, 4), (decide (byteOf b 2 ≠ 0), 6)]))

/-- VFENCE_COMPLETE: earlier stores are visible (R156). -/
def execVfenceComplete (e : Nat) (s : State) : Out :=
  if eKind e = 1 then .next (s.fenceDone e (fun s => s.veCycles e 0 true [] [])) else .next s

/-- The CODEs of an ill-formed VSIDE (R166, R167). -/
def vsideCodes (b : List Byte) : List Nat :=
  let h := vhdr b
  errs [(!onlyBits h.flags 3 || decide (h.flags % 4 = 3) || decide (h.sel ≠ 0) || !zerosAt b 8 8 || !zerosAt b 25 39, 4),
    (decide (h.rows ≠ 0), 6)] ++ (if h.flags % 4 = 2 then wordCodes b else [])

/-- Each VSIDE is counted and, where SIDE_EVENT is set, logged (R166, R582). -/
def State.sideUse (s : State) (e : Nat) (r : Run) : State :=
  let s1 := if s.veCounts e then s.count (TD_VE_SIDE_USE (eDie e) (eIdx e)) else s
  if s1.flag (TD_VE_CFG (eDie e)) F.TD_VE_CFG_SIDE_EVENT then s1.engineEvent e r.part 0xA00 [s.tagOf r] else s1

/-- The side accumulator armed with a starting value. -/
def State.sideArm (s : State) (e : Nat) (acts : List Nat) (arm start : Nat) : State :=
  s.vcmd e (isAction 0x2A acts) vsideCodes (fun r _ s1 =>
    .done (((s1.putVx e { r.vx with side := start, sideArm := arm }).sideUse e r).veCycles e 1 false [] [sideReg]))

/-- VSIDE_ARM_SUM; the undefined action 3 is found ill-formed here too (R166). -/
def execVsideArmSum (e : Nat) (s : State) : Out := .next (s.sideArm e [0, 3] 1 0)

/-- VSIDE_ARM_MAX (R166). -/
def execVsideArmMax (e : Nat) (s : State) : Out := .next (s.sideArm e [1] 2 0xFF800000)

/-- VSIDE_STORE writes the side accumulator as FP32 (R166). -/
def execVsideStore (e : Nat) (s : State) : Out :=
  .next (s.vcmd e (isAction 0x2A [2]) vsideCodes (fun r b s1 =>
    match s1.wordStore r e b r.vx.side with
    | .error t => .trap t
    | .ok s2 => .done ((s2.sideUse e r).veCycles e 1 true [sideReg] [])))

end Sys2Proof.Machine
end

