-- ==== Sys2Proof/Machine/Group.lean ====
section
/-! DEFINITION. Groups of the gradient exchange: the values in effect and their apply (R218 to R221), the members, the settings
of the Beacon (R248), step capture and replay (R244 to R246), flips (R241) and the records that a capture copies (R304, R445). -/
namespace Sys2Proof.Machine

/-! ## Values in effect -/

/-- A group's state. -/
def State.group (s : State) (g : Nat) : Group := (Table.get? s.col.groups g).getD {}

/-- A group's state changed. -/
def State.putGroup (s : State) (g : Nat) (x : Group) : State := s.setCol { s.col with groups := Table.put s.col.groups g x }

/-- The members of a group: the ranks below SIZE that are not excluded, in ascending order (R219). -/
def GroupSet.members (v : GroupSet) : List Nat := (List.range v.size).filter (fun r => !v.excl.testBit r)

/-- Is this package's rank excluded? -/
def GroupSet.out (v : GroupSet) : Bool := v.excl.testBit v.rank

/-- The pending values of COL_GRP_CFG and COL_GRP_EXCL. -/
def State.groupPending (s : State) (g : Nat) : GroupSet :=
  { size := s.fld (COL_GRP_CFG g) F.COL_GRP_CFG_SIZE, rank := s.fld (COL_GRP_CFG g) F.COL_GRP_CFG_RANK
    x := s.fld (COL_GRP_CFG g) F.COL_GRP_CFG_X, epoch := s.fld (COL_GRP_CFG g) F.COL_GRP_CFG_EPOCH
    excl := (List.range 4).foldl (fun v i => v + (s.reg (COL_GRP_EXCL g i)).toNat * 2 ^ (64 * i)) 0 }

/-- COL_GRP_STATUS shows the values in effect and whether an apply waits. -/
def State.showGroup (s : State) (g : Nat) : State :=
  let x := s.group g
  ((s.putFld (COL_GRP_STATUS g) F.COL_GRP_STATUS_MEMBERS x.now.members.length).putFld (COL_GRP_STATUS g)
    F.COL_GRP_STATUS_EPOCH x.now.epoch).putFld (COL_GRP_STATUS g) F.COL_GRP_STATUS_APPLY_PENDING x.pending.isSome.toNat

/-- A write of COL_GRP_APPLY with GO set: the pending values are captured for the watch named, or refused (R220). -/
def State.groupApply (s : State) (g : Nat) : State :=
  let w := s.fld (COL_GRP_APPLY g) F.COL_GRP_APPLY_WATCH_LO + s.fld (COL_GRP_APPLY g) F.COL_GRP_APPLY_WATCH_HI * 2 ^ 32
  let x := s.group g
  if w ≤ s.watch then
    (s.setBit (COL_GRP_STATUS g) F.COL_GRP_STATUS_APPLY_REFUSED).putFld (COL_GRP_APPLY g) F.COL_GRP_APPLY_GO x.pending.isSome.toNat
  else ((s.putGroup g { x with pending := some (w, s.groupPending g) }).setBit (COL_GRP_APPLY g) F.COL_GRP_APPLY_GO).showGroup g

/-- GROUP_APPLY_EFFECT: at the start of the apply's watch the captured values take effect (R220). -/
def execGroupApplyEffect (g : Nat) (s : State) : Out :=
  let x := s.group g
  match x.pending with
  | some (w, v) =>
    if w ≤ s.watch then
      .next (((s.putGroup g { x with now := v, pending := none }).clrBit (COL_GRP_APPLY g) F.COL_GRP_APPLY_GO).showGroup g)
    else .next s
  | none => .next s

/-! ## The Beacon's settings -/

/-- F in effect: 1 to 8; 0 acts as 1 (R247, R248). -/
def State.beaconF (s : State) (g : Nat) : Nat := max 1 (min 8 (fget (s.inEffect (COL_BCN_CFG g)) F.COL_BCN_CFG_F))

/-- SG in effect: 10 to 25 granules, else 25 (R247). -/
def State.beaconSg (s : State) (g : Nat) : Nat :=
  let v := s.xfld (COL_X_BCN_TUNE g) F.COL_X_BCN_TUNE_SG
  if 10 ≤ v ∧ v ≤ 25 then v else 25

/-! ## Engines' open steps -/

/-- The key of an open step: the engine's link die and the group. -/
def stepKey (n g : Nat) : Nat := 4 * n + g

/-- The open step of link die n's engine for a group. -/
def State.openStep (s : State) (n g : Nat) : Option OpenStep := Table.get? s.col.steps (stepKey n g)

/-- An open step changed. -/
def State.putStep (s : State) (n g : Nat) (o : OpenStep) : State :=
  s.setCol { s.col with steps := Table.put s.col.steps (stepKey n g) o }

/-- Does any engine have a step open for a group? -/
def State.stepOpen (s : State) (g step : Nat) : Bool :=
  (List.range 4).any (fun n => match s.openStep n g with | some o => decide (o.step = step) | none => false)

/-- The open steps of a group that equal a step, in the order of the engines (R229). -/
def State.openSteps (s : State) (g step : Nat) : List OpenStep :=
  (List.range 4).filterMap (fun n => match s.openStep n g with | some o => if o.step = step then some o else none | none => none)

/-! ## Capture -/

/-- The capture of a group for a step, in a mode. -/
def State.capturing (s : State) (g step mode : Nat) : Bool :=
  let c := (s.group g).cap
  decide (c.mode = mode) && decide (c.step = step)

/-- The capture of a group changed. -/
def State.putCap (s : State) (g : Nat) (c : Capture) : State := s.putGroup g { s.group g with cap := c }

/-- The 64-byte header of a capture area (R245). -/
def State.capHeader (s : State) (g state ids subs bcn : Nat) : List Byte :=
  let x := s.group g
  leBytes 4 0x50414342 ++ leBytes 2 1 ++ leBytes 1 state ++ leBytes 1 x.now.members.length ++ leBytes 8 x.cap.step
    ++ leBytes 1 x.now.rank ++ leBytes 1 x.now.x ++ leBytes 2 x.now.epoch ++ leBytes 4 x.cap.entries ++ leBytes 8 ids
    ++ leBytes 8 subs ++ leBytes 8 bcn ++ leBytes 8 x.cap.used ++ leBytes 8 0

/-- The header of the area rewritten. -/
def State.writeCap (s : State) (a : Access) (g state ids subs bcn : Nat) : Except Trap State :=
  s.vStore a (s.group g).cap.addr (s.capHeader g state ids subs bcn)

/-- The mode of a step at its first CSTEP: 3 acts as 0, and neither mode operates in a group of more than 16 members (R244). -/
def State.capMode (s : State) (g : Nat) : Nat :=
  let m := s.fld (COL_CAP_CTRL g) F.COL_CAP_CTRL_MODE
  if m = 3 ∨ 16 < (s.group g).now.members.length then 0 else m

/-- The capture is abandoned: STATE 3 and OVERFLOW (R245). -/
def State.abandonCap (s : State) (a : Access) (g : Nat) : Except Trap State :=
  let s1 := (s.putCap g { (s.group g).cap with opened := false }).setBit (COL_CAP_STATUS g) F.COL_CAP_STATUS_OVERFLOW
  if (s.group g).cap.used = 0 then .ok s1 else s1.writeCap a g 3 0 0 0

/-- Bytes appended to the capture area; an append past COL_CAP_SIZE abandons the capture. entry: the bytes are an entry. -/
def State.appendCap (s : State) (a : Access) (g : Nat) (bs : List Byte) (entry : Bool) : Except Trap State :=
  let c := (s.group g).cap
  if ¬ c.opened then .ok s
  else if c.size < c.used + bs.length then s.abandonCap a g
  else match s.vStore a (c.addr + c.used) bs with
    | .error t => .error t
    | .ok s1 => (s1.putCap g { c with used := c.used + bs.length, entries := c.entries + entry.toNat }).writeCap a g 1 0 0 0

/-- The first CSTEP of a step settles its mode; a captured step's header is written with STATE 1 (R244, R245). -/
def State.beginCap (s : State) (a : Access) (g step : Nat) : Except Trap State :=
  let refused := decide (s.fld (COL_CAP_CTRL g) F.COL_CAP_CTRL_MODE = 1) && decide (16 < (s.group g).now.members.length)
  let s0 := if refused then s.setBit (COL_CAP_STATUS g) F.COL_CAP_STATUS_REFUSED else s
  let c : Capture := { step := step, mode := s.capMode g
                       addr := s.addr (COL_CAP_ADDR g) F.COL_CAP_ADDR_ADDR_LO F.COL_CAP_ADDR_ADDR_HI
                       size := s.addr (COL_CAP_SIZE g) F.COL_CAP_SIZE_SIZE_LO F.COL_CAP_SIZE_SIZE_HI }
  if c.mode ≠ 1 then .ok (s0.putCap g c)
  else if c.size < 64 then (s0.putCap g c).abandonCap a g
  else (s0.putCap g { c with opened := true, used := 64 }).writeCap a g 1 0 0 0

/-! ## Replay -/

/-- A captured entry: its offset, TAG, IN_CRC and DATA_BYTES (R245). -/
structure CapEntry where
  off : Nat
  tag : Nat
  crc : Nat
  bytes : Nat
  deriving DecidableEq, Repr

/-- The entries of a captured area, in order. -/
def State.capEntries (s : State) (a : Access) (base : Nat) : Nat → Nat → Except Trap (List CapEntry)
  | 0, _ => .ok []
  | n + 1, off => match s.vRead a (base + off) 64 with
    | .error t => .error t
    | .ok (h, _) => match s.capEntries a base n (off + 64 + leAt h 24 8) with
      | .error t => .error t
      | .ok l => .ok (⟨off, leAt h 0 4, leAt h 16 8, leAt h 24 8⟩ :: l)

/-- The entry of a captured area with a TAG. -/
def State.capFind (s : State) (a : Access) (g tag : Nat) : Except Trap (Option CapEntry) :=
  let base := (s.group g).cap.addr
  match s.vRead a base 64 with
  | .error t => .error t
  | .ok (h, _) => match s.capEntries a base (leAt h 20 4) 64 with
    | .error t => .error t
    | .ok l => .ok (l.find? (fun x => x.tag = tag))

/-- A section of a captured area that opens with an 8-byte count: its records of 32 bytes. at: where the header names it. -/
def State.capSection (s : State) (a : Access) (g at1 : Nat) : Except Trap (List (List Byte)) :=
  let base := (s.group g).cap.addr
  match s.vRead a (base + at1) 8 with
  | .error t => .error t
  | .ok (o, _) => match s.vRead a (base + leNat o) 8 with
    | .error t => .error t
    | .ok (n, _) => match s.readRows a .virt 32 ((List.range (leNat n)).map (fun i => base + leNat o + 8 + 32 * i)) with
      | .error t => .error t
      | .ok (rows, _) => .ok rows

/-- A mismatch in replay (R246): DIVERGED or NO_MATCH, with the TAG. -/
def State.capStatus (s : State) (g : Nat) (f : Fld) (tag : Nat) : State :=
  (s.setBit (COL_CAP_STATUS g) f).putFld (COL_CAP_STATUS g) F.COL_CAP_STATUS_TAG tag

/-! ## Records that a capture copies -/

/-- The records of a partition's circular log that are present, in order: its address, LOG2 and head. A LOG2 outside 4 to 20 acts
as 0 (R303, R444). -/
def State.logRecords (s : State) (a : Access) (base log2 head : Nat) : Except Trap (List (List Byte)) :=
  if log2 < 4 ∨ 20 < log2 then .ok []
  else
    let n := 2 ^ log2
    let first := head - min head n
    match s.readRows a .virt 32 ((List.range (head - first)).map (fun i => base + (first + i) % n * 32)) with
    | .error t => .error t
    | .ok (rows, _) => .ok rows

/-- A section: the 8-byte count and the records (R245). -/
def capSectionBytes (rows : List (List Byte)) : List Byte := leBytes 8 rows.length ++ rows.flatten

/-- The substitution section of a step: the records with its STEP and GROUP (R304). -/
def State.subSection (s : State) (a : Access) (g step : Nat) : Except Trap (List Byte) :=
  match s.logRecords a (s.addr (TMV_SUB_ADDR a.part) F.TMV_SUB_ADDR_ADDR_LO F.TMV_SUB_ADDR_ADDR_HI)
    (s.fld (TMV_SUB_CTRL a.part) F.TMV_SUB_CTRL_LOG2) (s.reg (TMV_SUB_HEAD a.part)).toNat with
  | .error t => .error t
  | .ok rows => .ok (capSectionBytes (rows.filter (fun r => decide (leAt r 0 8 = step) && decide (byteOf r 31 = g))))

/-- The identifier section of a step (R445). -/
def State.idSection (s : State) (a : Access) (g step : Nat) : Except Trap (List Byte) :=
  match s.logRecords a (s.addr (INT0_IDL_ADDR a.part) F.INT0_IDL_ADDR_ADDR_LO F.INT0_IDL_ADDR_ADDR_HI)
    (s.fld (INT0_IDL_CTRL a.part) F.INT0_IDL_CTRL_LOG2) (s.reg (INT0_IDL_HEAD a.part)).toNat with
  | .error t => .error t
  | .ok rows => .ok (capSectionBytes (rows.filter (fun r => decide (leAt r 0 8 = step) && decide (byteOf r 25 = g))))

/-! ## Flips -/

/-- FLIP_TOGGLE: the selectors of committed rounds whose next watch has started toggle (R241). -/
def execFlipToggle (s : State) : Out :=
  let due := s.col.flips.filter (fun f => f.1 ≤ s.watch)
  let s1 := s.setCol { s.col with flips := s.col.flips.filter (fun f => s.watch < f.1) }
  .next (due.foldl (fun s f => s.putReg COL_FLIP_SEL (s.reg COL_FLIP_SEL ^^^ BitVec.ofNat 64 f.2)) s1)

end Sys2Proof.Machine
end

