-- ==== Sys2Proof/Machine/Exchange.lean ====
section
/-! DEFINITION. The gradient exchange: CSTEP and CREDUCE, the reduction orders of R225 and R226 as one member computes them, the
data of peers, completion and failure (R222 to R231). Each member sends the running sums that leave it to the next member of the
order, and the outputs it forms to every other member (log entry 21). -/
namespace Sys2Proof.Machine

/-! ## Well-formed commands -/

/-- The CODEs that every collective command shares (R222): 2 group not owned, 4 reserved bytes, 7 best-effort slot. -/
def State.colCodes (s : State) (r : Run) (g : Nat) (clean : Bool) : List Nat :=
  errs [(decide (4 ≤ g) || !s.ownsGroup r.part g, 2), (!clean, 4), (r.be, 7)]

/-- The CODEs of an ill-formed CSTEP (R222, R231). -/
def State.cstepCodes (s : State) (r : Run) (b : List Byte) : List Nat :=
  let th := decode32 (leAt b 16 4)
  s.colCodes r (byteOf b 2) (zerosAt b 1 1 && zerosAt b 3 5 && zerosAt b 20 44) ++ errs [(th.isNan || th.lt FV.zero, 5)]

/-- Is a format code BF16 or FP32? -/
def wireFmt (f : Nat) : Bool := f = 3 || f = 6

/-- The CODEs of an ill-formed CREDUCE on link die n's engine (R222, R224, R231). -/
def State.creduceCodes (s : State) (n : Nat) (r : Run) (b : List Byte) : List Nat :=
  let g := byteOf b 2
  let i := leAt b 16 8
  let o := leAt b 24 8
  let count := leAt b 32 8
  let inLen := count * (elemBits (byteOf b 4) / 8)
  let outLen := count * (elemBits (byteOf b 6) / 8)
  s.colCodes r g (onlyBits (byteOf b 1) 7 && zerosAt b 7 1 && zerosAt b 48 80) ++
  errs [(decide (1 < byteOf b 3) || !wireFmt (byteOf b 4) || !wireFmt (byteOf b 5) || !wireFmt (byteOf b 6)
      || (byteOf b 4 = 6 && byteOf b 5 = 3), 3),
    (decide (i % 64 ≠ 0 ∨ o % 64 ≠ 0) || decide ((i ≠ o ∨ inLen ≠ outLen) ∧ i < o + outLen ∧ o < i + inLen), 4),
    (decide (count = 0 ∨ 2 ^ 32 < count ∨ leAt b 40 4 = 0 ∨ 250000 < leAt b 40 4), 5),
    ((match s.openStep n g with | some x => decide (x.step ≠ leAt b 8 8) | none => true), 6)]

/-- CSTEP opens a step on one engine (R223); the first one of a step settles its capture mode (R244, R245). -/
def execCstep (e : Nat) (s : State) : Out :=
  .next (s.runCmd e (isOp 0x40) (fun r b s1 =>
    let codes := s1.cstepCodes r b
    let g := byteOf b 2
    let step := leAt b 8 8
    if codes ≠ [] then .ill codes
    else
      let begun := if s1.stepOpen g step then .ok s1 else s1.beginCap (r.access e 1) g step
      match begun with
      | .error t => .trap t
      | .ok s2 =>
        let s3 := s2.putGroup g { s2.group g with closed := (s2.group g).closed.filter (· ≠ step) }
        .done (s3.putStep (eDie e - 10) g { step := step, thresh := leAt b 16 4 })))

/-! ## The order of a reduction (R225, R226) -/

/-- The chunk of element i among k chunks of n elements: chunk c holds floor(c n / k) to floor((c + 1) n / k) - 1. -/
def chunkOf (n k i : Nat) : Nat := ((List.range k).find? (fun c => decide (i < (c + 1) * n / k))).getD 0

/-- Where element i of a CREDUCE ends: its chunk by column and by row (the ring has one row). -/
def Reduce.place (d : Reduce) (i : Nat) : Nat × Nat :=
  if d.x = 0 then (chunkOf d.count d.members.length i, 0)
  else
    let cx := chunkOf d.count d.x i
    let lo := cx * d.count / d.x
    let hi := (cx + 1) * d.count / d.x
    (cx, chunkOf (hi - lo) (d.members.length / d.x) (i - lo))

/-- The columns of the schedule: every member in the ring, else X. -/
def Reduce.cols (d : Reduce) : Nat := if d.x = 0 then d.members.length else d.x
/-- The rows of the schedule. -/
def Reduce.rows (d : Reduce) : Nat := d.members.length / d.cols
/-- This package's column. -/
def Reduce.col (d : Reduce) : Nat := d.self % d.cols
/-- This package's row. -/
def Reduce.row (d : Reduce) : Nat := d.self / d.cols

/-- The place among the members of column c in row r. -/
def Reduce.at (d : Reduce) (r c : Nat) : Nat := r * d.cols + c

/-- The member on which element i is finished. -/
def Reduce.owner (d : Reduce) (i : Nat) : Nat := let p := d.place i; d.at p.2 p.1

/-- The bytes of an element of a format. -/
def fmtBytes (f : Nat) : Nat := if f = 3 then 2 else 4

/-- A value cast to a format's code (R107, without SAT: BF16 and FP32 have infinities). -/
def castTo (f : Nat) (x : FV) : Nat := (castElem f false x).code

/-- wire_round: to BF16 where WIRE is BF16 (R225). -/
def Reduce.wireRound (d : Reduce) (x : FV) : FV := if d.wire = 3 then decode16 (castTo 3 x) else x

/-- The code of element i that a member's COLL data holds, of a format. -/
def State.received (s : State) (d : Reduce) (member i fmt : Nat) : Option Nat :=
  let src := s.rankPkg d.group ((d.members[member]?).getD 0)
  let w := fmtBytes fmt
  match s.col.inbox.find? (fun x => decide (x.group = d.group ∧ x.tag = d.tag ∧ x.step = d.step ∧ x.src = src ∧ x.off ≤ i
    ∧ (i - x.off + 1) * w ≤ x.data.length)
    && decide (d.owner x.off = d.owner i)) with
  | some x => some (leAt x.data ((i - x.off) * w) w)
  | none => none

/-- This member's own element. -/
def Reduce.own (d : Reduce) (i : Nat) : FV := decodeElem d.inFmt ((d.input[i]?).getD 0)

/-- round_fp32 of a received running sum and a value. -/
def State.joined (s : State) (d : Reduce) (member i : Nat) (x : FV) : Option FV :=
  (s.received d member i d.wire).map (fun c => ((decodeElem d.wire c).add x).round32)

/-- The running sum along the row as it leaves this member (stage 1; the whole of the ring). -/
def State.rowSum (s : State) (d : Reduce) (i : Nat) : Option FV :=
  let cx := (d.place i).1
  if d.col = (cx + 1) % d.cols then some (d.own i)
  else s.joined d (d.at d.row ((d.col + d.cols - 1) % d.cols)) i (d.own i)

/-- The running sum down the column as it leaves this member, which holds its row's result (stage 2). -/
def State.colSum (s : State) (d : Reduce) (i : Nat) : Option FV :=
  let cy := (d.place i).2
  match s.rowSum d i with
  | none => none
  | some q =>
    if d.row = (cy + 1) % d.rows then some q
    else s.joined d (d.at ((d.row + d.rows - 1) % d.rows) d.col) i q

/-- What this member sends of element i, once it can: the members it goes to and the code's format and value. -/
def State.outgoing (s : State) (d : Reduce) (i : Nat) : Option (List Nat × Nat × Nat) :=
  let (cx, cy) := d.place i
  if d.col ≠ cx then
    (s.rowSum d i).map (fun v => ([d.at d.row ((d.col + 1) % d.cols)], d.wire, castTo d.wire (d.wireRound v)))
  else if d.row ≠ cy then
    (s.colSum d i).map (fun v => ([d.at ((d.row + 1) % d.rows) d.col], d.wire, castTo d.wire (d.wireRound v)))
  else (s.colSum d i).map (fun v => ((List.range d.members.length).filter (· ≠ d.self), d.outFmt, castTo d.outFmt v))

/-- The output code of element i, once this member has it. -/
def State.outputOf (s : State) (d : Reduce) (i : Nat) : Option Nat :=
  if d.owner i = d.self then (s.colSum d i).map (castTo d.outFmt) else s.received d (d.owner i) i d.outFmt

/-! ## Sending -/

/-- A run of elements that leave together: first element, members, format, codes. -/
structure SendRun where
  off : Nat
  dests : List Nat
  fmt : Nat
  owner : Nat
  codes : List Nat

/-- Elements that leave, joined into runs of one chunk with one set of members, of at most 4,096 bytes each (R469). -/
def sendRuns (d : Reduce) : List (Nat × (List Nat × Nat × Nat)) → List SendRun
  | [] => []
  | (i, (dests, fmt, c)) :: l =>
    match sendRuns d l with
    | x :: rest =>
      if x.off = i + 1 ∧ x.dests = dests ∧ x.fmt = fmt ∧ x.owner = d.owner i ∧ (x.codes.length + 1) * fmtBytes fmt ≤ 4096
      then { x with off := i, codes := c :: x.codes } :: rest
      else ⟨i, dests, fmt, d.owner i, [c]⟩ :: x :: rest
    | [] => [⟨i, dests, fmt, d.owner i, [c]⟩]

/-- One run goes to each of its members as COLL messages; a package in SPLIT sends none (R56, R469). -/
def State.sendRun (s : State) (d : Reduce) (x : SendRun) : State :=
  if s.fld WCH_TB_STATUS F.WCH_TB_STATUS_STATE = 4 then s
  else x.dests.foldl (fun s m =>
    let dest := s.rankPkg d.group ((d.members[m]?).getD 0)
    s.send 2 true dest (messageBytes { type := 0x20, gr := true, dest := dest, src := s.pkg, addr := x.off, tag := d.tag
                                       group := d.group, epoch := d.step } (x.codes.map (leBytes (fmtBytes x.fmt))).flatten)) s

/-- What a CREDUCE can send in a state, among given elements. -/
def State.ready (s : State) (d : Reduce) (elems : List Nat) : List (Nat × (List Nat × Nat × Nat)) :=
  elems.filterMap (fun i => (s.outgoing d i).map (fun o => (i, o)))

/-- Elements that could not leave before and can now are sent. -/
def State.sendNew (s before : State) (d : Reduce) (elems : List Nat) : State :=
  (sendRuns d (s.ready d (elems.filter (fun i => (before.outgoing d i).isNone)))).foldl (fun s x => s.sendRun d x) s

/-! ## CREDUCE -/

/-- Runs of 1,024 elements of a list. -/
def runs1024 : Nat → List Nat → List (List Nat)
  | 0, _ => []
  | k + 1, l => if l.isEmpty then [] else l.take 1024 :: runs1024 k (l.drop 1024)

/-- Is the code of a format a NaN or an infinity? -/
def nonFinite (f c : Nat) : Bool := let v := decodeElem f c; v.isNan || v.isInf

/-- The sanity accumulators take a local input in (R228). -/
def OpenStep.sanity (o : OpenStep) (fmt : Nat) (codes : List Nat) : OpenStep :=
  (runs1024 (codes.length / 1024 + 1) codes).foldl (fun o run =>
    let q := match (reduce true 3 (run.map (fun c => (VVal.f (decodeElem fmt c), true)))).1 with | .f v => v | _ => FV.zero
    { o with sumsq := encode32 (((decode32 o.sumsq).add q).round32)
             nonfinite := o.nonfinite + (run.filter (nonFinite fmt)).length }) o

/-- The place of this package's rank among the members. -/
def placeOf (members : List Nat) (rank : Nat) : Nat := (members.findIdx? (· = rank)).getD members.length

/-- X after the fallback of R226: 0 for the ring. -/
def schedX (sched x g : Nat) : Nat := if sched = 0 ∨ x = 0 ∨ x = g ∨ g % x ≠ 0 then 0 else x

/-- The input of a CREDUCE: its codes and bytes. -/
def State.reduceInput (s : State) (a : Access) (b : List Byte) : Except Trap (List Byte × State) :=
  s.vRead a (leAt b 16 8) (leAt b 32 8 * fmtBytes (byteOf b 4))

/-- A CREDUCE in replay (R246): the captured output, or none, which marks the step. The codes written are answered. -/
def State.replayReduce (s : State) (a : Access) (n : Nat) (d : Reduce) : Except Trap State :=
  match s.capFind { a with acc := 0 } d.group d.tag with
  | .error t => .error t
  | .ok none =>
    let s1 := s.capStatus d.group F.COL_CAP_STATUS_NO_MATCH d.tag
    (match s1.openStep n d.group with
      | some o => .ok (s1.putStep n d.group { o with failed := true })
      | none => .ok s1)
  | .ok (some x) =>
    let s1 := if x.crc = d.inCrc then s else s.capStatus d.group F.COL_CAP_STATUS_DIVERGED d.tag
    match s1.vRead { a with acc := 0 } ((s1.group d.group).cap.addr + x.off + 64) (min x.bytes (d.count * fmtBytes d.outFmt)) with
    | .error t => .error t
    | .ok (bs, s2) => match s2.vStore { a with acc := 1 } d.outAddr bs with
      | .error t => .error t
      | .ok s3 =>
        let bad := ((rowCodes d.outFmt d.count bs).filter (nonFinite d.outFmt)).length
        match s3.openStep n d.group with
        | some o => .ok (if d.flags.testBit 1 then s3.putStep n d.group { o with reduced := o.reduced + bad } else s3)
        | none => .ok s3

/-- CREDUCE reads its input, feeds the sanity test and starts its exchange; in replay it completes from the capture (R225 to
R228, R246). -/
def execCreduce (e : Nat) (s : State) : Out :=
  let n := eDie e - 10
  .next (s.runCmd e (isOp 0x41) (fun r b s1 =>
    let codes := s1.creduceCodes n r b
    if codes ≠ [] then .ill codes
    else match s1.reduceInput (r.access e 0) b with
      | .error t => .trap t
      | .ok (bs, s2) =>
        let g := byteOf b 2
        let v := (s2.group g).now
        let d : Reduce := { group := g, step := leAt b 8 8, tag := leAt b 44 4, flags := byteOf b 1, inFmt := byteOf b 4
                            wire := byteOf b 5, outFmt := byteOf b 6, outAddr := leAt b 24 8, count := leAt b 32 8
                            members := v.members, self := placeOf v.members v.rank, x := schedX (byteOf b 3) v.x v.members.length
                            input := rowCodes (byteOf b 4) (leAt b 32 8) bs, inCrc := crc64 bs }
        let s3 := match s2.openStep n g with
          | some o => if d.flags.testBit 0 then s2.putStep n g (o.sanity d.inFmt d.input) else s2
          | none => s2
        if s3.capturing g d.step 2 then Res.ofStore (s3.replayReduce (r.access e 0) n d)
        else
          let s4 := (s3.setCol { s3.col with running := Table.put s3.col.running n d
                                             stopped := s3.col.stopped.filter (· ≠ (g, d.step, d.tag)) }).modRun e
            (fun r => { r with wait := .busy })
          let s5 := if d.self < d.members.length then
            (sendRuns d (s4.ready d (List.range d.count))).foldl (fun s x => s.sendRun d x) s4 else s4
          .stay s5))

/-- The elements that a piece of COLL data holds, of a format. -/
def CollData.elems (x : CollData) (d : Reduce) : List Nat :=
  ((List.range (x.data.length / 2)).map (x.off + ·)).filter (· < d.count)

/-- COLL data of a peer arrives: it is placed by its offset, and what it lets this member send goes on. Data for a CREDUCE that
stopped is discarded (R225, R230, R472). -/
def State.collArrives (s : State) (x : CollData) : State :=
  if s.col.stopped.contains (x.group, x.step, x.tag) then s
  else
    let s1 := s.setCol { s.col with inbox := s.col.inbox ++ [x] }
    match s.col.running.find? (fun d => decide (d.2.group = x.group ∧ d.2.tag = x.tag ∧ d.2.step = x.step
      ∧ d.2.self < d.2.members.length)) with
    | some (_, d) => s1.sendNew s d (x.elems d)
    | none => s1

/-- COLL (R225, R472). -/
def execColl (g tag step src off : Nat) (data : List Byte) (s : State) : Out := .next (s.collArrives ⟨g, tag, step, src, off, data⟩)

/-! ## Ends -/

/-- The inbox without a CREDUCE's data. -/
def State.dropInbox (s : State) (d : Reduce) : State :=
  s.setCol { s.col with inbox := s.col.inbox.filter (fun x => ¬(x.group = d.group ∧ x.tag = d.tag ∧ x.step = d.step)) }

/-- Every output code, once this member has them all. -/
def State.outputs (s : State) (d : Reduce) : Option (List Nat) := (List.range d.count).mapM (s.outputOf d)

/-- The entry a capture appends for a CREDUCE (R245). -/
def entryBytes (d : Reduce) (out : List Byte) : List Byte :=
  let data := out ++ List.replicate ((64 - out.length % 64) % 64) 0
  leBytes 4 d.tag ++ leBytes 1 d.outFmt ++ leBytes 1 d.wire ++ leBytes 1 (if d.x = 0 then 0 else 1) ++ leBytes 1 0
    ++ leBytes 8 d.count ++ leBytes 8 d.inCrc ++ leBytes 8 data.length ++ List.replicate 32 0 ++ data

/-- Is the exchange of a CREDUCE cut off: SPLIT, this rank excluded, or a peer unreachable (R230)? -/
def State.cutOff (s : State) (d : Reduce) : Bool :=
  decide (s.fld WCH_TB_STATUS F.WCH_TB_STATUS_STATE = 4) || decide (d.members.length ≤ d.self)
  || d.members.any (fun r => decide (r ≠ (d.members[d.self]?).getD 0) && s.unreachable (s.rankPkg d.group r))

/-- CREDUCE_COMPLETE: every output of a running CREDUCE is known; the outputs are written and acknowledged, checked and captured
(R225 to R228, R245). -/
def execCreduceComplete (e : Nat) (s : State) : Out :=
  let n := eDie e - 10
  match Table.get? s.eng.runs e, Table.get? s.col.running n with
  | some r, some d =>
    if r.wait ≠ .busy ∨ s.fld WCH_TB_STATUS F.WCH_TB_STATUS_STATE = 4 ∨ d.members.length ≤ d.self then .next s
    else match s.outputs d with
      | none => .next s
      | some codes =>
        let out := rowBytes d.outFmt codes
        match s.vStore (r.access e 1) d.outAddr out with
        | .error t => .next (s.trapped e r t)
        | .ok s1 =>
          let s2 := match s1.openStep n d.group with
            | some o => if d.flags.testBit 1 then s1.putStep n d.group
                { o with reduced := o.reduced + (codes.filter (nonFinite d.outFmt)).length } else s1
            | none => s1
          let capped := if d.flags.testBit 2 ∧ s2.capturing d.group d.step 1
            then s2.appendCap (r.access e 1) d.group (entryBytes d out) true else .ok s2
          match capped with
          | .error t => .next (s.trapped e r t)
          | .ok s3 => .next (((s3.dropInbox d).setCol { (s3.dropInbox d).col with running := Table.del s3.col.running n }).advance e 128)
  | _, _ => .next s

/-- The 64-byte lines of the output that are complete and that a free bit says were written (R230). -/
def State.partOutput (s : State) (d : Reduce) : List (Nat × List Byte) :=
  let w := fmtBytes d.outFmt
  let per := 64 / w
  (List.range (ceilDiv d.count per)).filterMap (fun k =>
    let is := (List.range (min per (d.count - k * per))).map (k * per + ·)
    match is.mapM (s.outputOf d) with
    | some cs => if Config.freeBool (s.free + k) then some (d.outAddr + 64 * k, rowBytes d.outFmt cs) else none
    | none => none)

/-- EXCH_FAILED: an engine stops its CREDUCE, for want of a peer's data or because the exchange is cut off. The step is marked, and
each line of the output keeps its contents or holds complete output (R230). -/
def execExchFailed (e : Nat) (s : State) : Out :=
  let n := eDie e - 10
  match Table.get? s.eng.runs e, Table.get? s.col.running n with
  | some r, some d =>
    if r.wait ≠ .busy ∨ (¬ s.cutOff d ∧ (s.outputs d).isSome) then .next s
    else
      let lines := if d.self < d.members.length then s.partOutput d else []
      match foldM (fun s l => s.vStore (r.access e 1) l.1 l.2) lines s with
      | .error t => .next (s.trapped e r t)
      | .ok s1 =>
        let s2 := match s1.openStep n d.group with
          | some o => if o.step = d.step then s1.putStep n d.group { o with failed := true } else s1
          | none => s1
        let s3 := (s2.dropInbox d).count (COL_EXCH_FAILED d.group)
        .next ((s3.setCol { s3.col with running := Table.del s3.col.running n
                                        stopped := (d.group, d.step, d.tag) :: s3.col.stopped }).advance e 128)
  | _, _ => .next s

end Sys2Proof.Machine
end

