-- ==== Sys2Proof/Machine/Beacon.lean ====
section
/-! DEFINITION. The Beacon round (R232 to R240, R615): the vote, the sub-rounds and their messages, the decision, its record and
the flip it triggers (R241); and a round in replay (R246). -/
namespace Sys2Proof.Machine

/-! ## The vote -/

/-- The CODEs of an ill-formed CBEACON (R222, R229, R231, R232). -/
def State.cbeaconCodes (s : State) (e : Nat) (r : Run) (b : List Byte) : List Nat :=
  let g := byteOf b 2
  let buoy := leAt b 4 2
  let mask := leAt b 32 8
  let slot : Option Slot := (Table.get? s.adm.plans r.plan).bind (fun pl => pl.slots[r.slot]?)
  let placed := match slot with
    | some x => decide (x.gran = 0) && decide ((s.beaconF g + 1) * s.beaconSg g + 4 ≤ x.count)
    | none => false
  s.colCodes r g (onlyBits (byteOf b 1) 3 && zerosAt b 3 1 && zerosAt b 6 2 && zerosAt b 40 24) ++
  errs [(decide (leAt b 24 8 % 64 ≠ 0), 4), (decide (16383 < buoy ∧ buoy ≠ 0xFFFF), 5),
    ((s.group g).closed.contains (leAt b 8 8), 6),
    (decide (eDie e ≠ 10 + g) || decide (r.idx ≠ 0) || r.be || !placed
      || !(setBits mask 64).all (fun x => s.ownsSet r.part x), 8)]

/-- The sums of the combined engines (R229): sum of squares, threshold, non-finite inputs and outputs. -/
structure Combined where
  sumsq : Nat
  thresh : Option FV
  nonfinite : Nat
  reduced : Nat
  failed : Bool

/-- The accumulators of the engines whose open step is the CBEACON's, in engine order (R229). -/
def combine (os : List OpenStep) : Combined :=
  { sumsq := encode32 (os.foldl (fun v o => (v.add (decode32 o.sumsq)).round32) FV.zero)
    thresh := os.foldl (fun (t : Option FV) o => match t with
      | none => some (decode32 o.thresh)
      | some v => some (if (decode32 o.thresh).lt v then decode32 o.thresh else v)) none
    nonfinite := os.foldl (fun n o => n + o.nonfinite) 0
    reduced := os.foldl (fun n o => n + o.reduced) 0
    failed := os.any (·.failed) }

/-- The norm test fails: a NaN, or more than the threshold (R233). -/
def Combined.norm (c : Combined) : Bool :=
  match c.thresh with
  | none => false
  | some t => let v := decode32 c.sumsq; v.isNan || t.lt v

/-- Bits to a number, bit 0 first. -/
def bitsOf (l : List Bool) : Nat := l.foldr (fun b v => b.toNat + 2 * v) 0

/-- The reasons that hold at the start of a CBEACON (R233). -/
def State.reasons (s : State) (g step : Nat) (b : List Byte) (c : Combined) : Nat :=
  let buoy := leAt b 4 2
  bitsOf [decide (c.nonfinite ≠ 0), c.norm, decide (c.reduced ≠ 0),
    c.failed || s.col.running.any (fun d => decide (d.2.group = g ∧ d.2.step = step)) || (s.openSteps g step).isEmpty,
    decide (buoy ≠ 0xFFFF ∧ (s.buoy buoy).toNat < leAt b 16 8), bit (byteOf b 1) 0, decide (1 ≤ s.granule), (s.group g).now.out]

/-- The step closes on all four engines (R229). -/
def State.closeStep (s : State) (g step : Nat) : State :=
  let s1 := s.setCol { s.col with steps := s.col.steps.filter (fun x => ¬(x.1 % 4 = g ∧ x.2.step = step)) }
  s1.putGroup g { s1.group g with closed := step :: (s1.group g).closed }

/-! ## Messages -/

/-- The 96 bytes of a Beacon message (R234). -/
def State.beaconBytes (s : State) (g : Nat) (x : Round) : List Byte :=
  let gr := s.group g
  leBytes 8 x.step ++ leBytes 2 gr.now.epoch ++ leBytes 1 x.sub ++ leBytes 1 x.f ++ leBytes 1 x.sg ++ leBytes 1 gr.now.rank
    ++ leBytes 1 gr.decision ++ leBytes 1 0 ++ leBytes 8 gr.decided ++ leBytes 8 0 ++ leBytes 32 x.known ++ leBytes 32 x.skip

/-- The other members in ascending rank order from RANK + 1, wrapping round (R235). -/
def GroupSet.others (v : GroupSet) : List Nat :=
  v.members.filter (fun r => v.rank < r) ++ v.members.filter (fun r => r < v.rank)

/-- The member's message of the current sub-round goes to every other member, by the lowest UP port of each route mask; a package
in SPLIT sends none (R56, R235, R239). -/
def State.flood (s : State) (g : Nat) (x : Round) : State :=
  if s.fld WCH_TB_STATUS F.WCH_TB_STATUS_STATE = 4 then s
  else (s.group g).now.others.foldl (fun s r =>
    let dest := s.rankPkg g r
    match s.upPorts dest with
    | oe :: _ => s.sendCtrl oe 3 dest g (s.beaconBytes g x)
    | [] => s) s

/-- A round of a group replaced. -/
def State.putRound (s : State) (g : Nat) (x : Option Round) : State := s.putGroup g { s.group g with round := x }

/-- SUBROUND_OPEN: the next sub-round opens and the member sends what it knows (R235, R615). -/
def execSubroundOpen (g : Nat) (s : State) : Out :=
  match (s.group g).round with
  | none => .next s
  | some x =>
    if x.sub < x.f + 1 then
      let y := { x with sub := x.sub + 1 }
      .next (((s.toTick (1000 * (1 + x.sub * x.sg))).putRound g (some y)).flood g y)
    else .next s

/-- Does a received message belong to the round's current sub-round (R235)? -/
def State.timely (s : State) (g : Nat) (x : Round) (b : List Byte) : Bool :=
  let v := (s.group g).now
  decide (1 ≤ x.sub) && decide (byteOf b 10 = x.sub) && decide (leAt b 0 8 = x.step) && decide (leAt b 8 2 = v.epoch)
    && decide (byteOf b 11 = x.f) && decide (byteOf b 12 = x.sg) && v.members.contains (byteOf b 13)
    && decide (s.fld WCH_TB_STATUS F.WCH_TB_STATUS_STATE ≠ 4)

/-- A timely message is merged; a change in the last sub-round is UNSTABLE, a different previous decision DISAGREE (R235,
R238). -/
def State.merge (s : State) (g : Nat) (x : Round) (b : List Byte) : State :=
  let gr := s.group g
  let known := x.known ||| leAt b 32 32
  let skip := x.skip ||| leAt b 64 32
  let unstable := decide (x.sub = x.f + 1) && decide (known ≠ x.known ∨ skip ≠ x.skip)
  let disagree := decide (gr.decision ≠ 0) && decide (leAt b 16 8 = gr.decided) && decide (byteOf b 14 ≠ gr.decision)
  let s1 := s.putRound g (some { x with known := known, skip := skip, unstable := x.unstable || unstable
                                        disagree := x.disagree || disagree })
  let s2 := if unstable then s1.alarmBeacon g F.COL_BCN_ALARM_UNSTABLE else s1
  if disagree then s2.alarmBeacon g F.COL_BCN_ALARM_DISAGREE else s2

/-- A Beacon message of 96 bytes reaches the group's Beacon unit: merged, or discarded and counted (R235). -/
def State.beaconArrives (s : State) (g : Nat) (b : List Byte) : State :=
  match (s.group g).round with
  | some x => if s.timely g x b then s.merge g x b else s.count (COL_BCN_DROPPED g)
  | none => s.count (COL_BCN_DROPPED g)

/-- BEACON_MESSAGE (R235, R238). -/
def execBeaconMessage (g : Nat) (data : List Byte) (s : State) : Out := .next (s.beaconArrives g data)

/-! ## The decision -/

/-- A round's outcome: 1 commit, 2 skip, with the KNOWN and SKIP of the record (R237, R239, R246). -/
structure Verdict where
  decision : Nat
  known : Nat
  skip : Nat
  flips : Nat
  deriving DecidableEq, Repr

/-- The decision at the close of the last sub-round (R237); a package in SPLIT decides skip (R239). -/
def State.decide' (s : State) (g : Nat) (x : Round) : Verdict :=
  let ms := (s.group g).now.members
  let commit := ms.all (fun r => x.known.testBit r && !x.skip.testBit r) && decide (s.fld WCH_TB_STATUS F.WCH_TB_STATUS_STATE ≠ 4)
  { decision := if commit then 1 else 2, known := x.known, skip := x.skip, flips := if commit then x.flips else 0 }

/-- Members whose bit a set holds. -/
def memberCount (ms : List Nat) (set : Nat) : Nat := (ms.filter (fun r => set.testBit r)).length

/-- The 64 bytes of a result record (R240). -/
def State.beaconRecord (s : State) (g : Nat) (x : Round) (v : Verdict) : List Byte :=
  let gr := (s.group g).now
  leBytes 8 x.step ++ leBytes 1 v.decision ++ leBytes 1 x.reason ++ leBytes 1 (x.unstable.toNat + 2 * x.disagree.toNat)
    ++ leBytes 1 0 ++ leBytes 2 (memberCount gr.members v.known) ++ leBytes 2 (memberCount gr.members v.skip)
    ++ leBytes 8 s.watch ++ leBytes 4 x.sumsq ++ leBytes 4 0 ++ leBytes 8 x.nonfinite ++ leBytes 8 x.reduced
    ++ leBytes 8 v.flips ++ leBytes 2 gr.epoch ++ leBytes 6 0

/-- The registers and counters after a decision (R240). -/
def State.beaconRegs (s : State) (g : Nat) (x : Round) (v : Verdict) : State :=
  let ms := (s.group g).now.members
  let last := fset (fset (fset (fset (fset (fset (fset 0 F.COL_BCN_LAST_DECISION v.decision) F.COL_BCN_LAST_UNSTABLE x.unstable.toNat)
    F.COL_BCN_LAST_DISAGREE x.disagree.toNat) F.COL_BCN_LAST_REASON x.reason) F.COL_BCN_LAST_KNOWN_COUNT (memberCount ms v.known))
    F.COL_BCN_LAST_SKIP_COUNT (memberCount ms v.skip)) F.COL_BCN_LAST_STEP_LO x.step
  let s1 := (s.putReg (COL_BCN_LAST g) last).putFld (COL_BCN_SUMSQ g) F.COL_BCN_SUMSQ_SUMSQ x.sumsq
  let s2 := (List.range 4).foldl (fun s i => (s.putReg (COL_BCN_KNOWN g i) (BitVec.ofNat 64 (v.known / 2 ^ (64 * i)))).putReg
    (COL_BCN_SKIP g i) (BitVec.ofNat 64 (v.skip / 2 ^ (64 * i)))) s1
  let s3 := s2.count (COL_BCN_ROUNDS g)
  if v.decision = 2 then s3.count (COL_BCN_SKIPS g) else s3

/-- The end of a round: the record, the registers, the previous decision, the flip for the next watch, the event of a skip and
the wear step mark (R240, R241, R340). -/
def State.endRound (s : State) (a : Access) (g : Nat) (x : Round) (v : Verdict) : Except Trap State :=
  let record := s.beaconRecord g x v
  let captured : Except Trap State :=
    if x.capture ∧ (s.group g).cap.opened then
      let used := (s.group g).cap.used
      match s.appendCap a g x.ids false with
      | .error t => .error t
      | .ok s1 => match s1.appendCap a g x.subs false with
        | .error t => .error t
        | .ok s2 => match s2.appendCap a g (record ++ leBytes 32 v.known ++ leBytes 32 v.skip) false with
          | .error t => .error t
          | .ok s3 =>
            if (s3.group g).cap.opened then
              let s4 := (s3.putCap g { (s3.group g).cap with opened := false }).setBit (COL_CAP_STATUS g) F.COL_CAP_STATUS_DONE
              s4.writeCap a g 2 used (used + x.ids.length) (used + x.ids.length + x.subs.length)
            else .ok s3
    else .ok s
  match captured with
  | .error t => .error t
  | .ok s1 => match s1.vStore a x.result record with
    | .error t => .error t
    | .ok s2 =>
      let s3 := s2.beaconRegs g x v
      let s4 := s3.putGroup g { s3.group g with decision := v.decision, decided := x.step, round := none }
      let s5 := if v.flips ≠ 0 then s4.setCol { s4.col with flips := s4.col.flips ++ [(s4.watch + 1, v.flips)] } else s4
      let s6 := if v.decision = 2 ∧ s5.flag (COL_BCN_CFG g) F.COL_BCN_CFG_SKIP_EVENT
        then s5.blockEvent 37 a.part (0x800 + x.reason) [x.step, g] else s5
      .ok (if ¬ s6.flag DFT_LIFE_CTRL F.DFT_LIFE_CTRL_SRC ∧ s6.fld DFT_LIFE_CTRL F.DFT_LIFE_CTRL_GROUP = g then s6.stepMark else s6)

/-- BEACON_DECIDE: the last sub-round closes; the member decides and the CBEACON completes (R237 to R241). -/
def execBeaconDecide (g : Nat) (s : State) : Out :=
  match (s.group g).round with
  | none => .next s
  | some x =>
    if x.sub ≠ x.f + 1 then .next s
    else match Table.get? s.eng.runs x.engine with
      | none => .next (s.putRound g none)
      | some r =>
        let s1 := s.toTick (1000 * (1 + (x.f + 1) * x.sg))
        match s1.endRound (r.access x.engine 1) g x (s1.decide' g x) with
        | .error t => .next (s1.trapped x.engine r t)
        | .ok s2 => .next (s2.advance x.engine 64)

/-! ## CBEACON -/

/-- The captured round of a replay (R246): the verdict and the REASON of its Beacon section. -/
def State.capturedRound (s : State) (a : Access) (g : Nat) : Except Trap (Verdict × Nat) :=
  let base := (s.group g).cap.addr
  match s.vRead a (base + 40) 8 with
  | .error t => .error t
  | .ok (o, _) => match s.vRead a (base + leNat o) 128 with
    | .error t => .error t
    | .ok (b, _) => .ok (⟨byteOf b 8, leAt b 64 32, leAt b 96 32, leAt b 48 8⟩, byteOf b 9)

/-- A CBEACON in replay takes the captured decision, KNOWN, SKIP and flips (R246). -/
def State.replayRound (s : State) (a : Access) (g : Nat) (x : Round) : Except Trap State :=
  match s.capturedRound { a with acc := 0 } g with
  | .error t => .error t
  | .ok (v, reason) =>
    let s1 := if reason = x.reason then s else s.setBit (COL_CAP_STATUS g) F.COL_CAP_STATUS_DIVERGED
    s1.endRound { a with acc := 1 } g x v

/-- CBEACON freezes the vote, closes the step on all engines and joins the round; a late one joins in the sub-round in progress
(R229, R232, R233, R239, R615). -/
def execCbeacon (e : Nat) (s : State) : Out :=
  .next (s.runCmd e (isOp 0x42) (fun r b s1 =>
    let codes := s1.cbeaconCodes e r b
    let g := byteOf b 2
    let step := leAt b 8 8
    let a := r.access e 0
    if codes ≠ [] then .ill codes
    else
      let c := combine (s1.openSteps g step)
      let v := (s1.group g).now
      let reason := s1.reasons g step b c
      let capture := bit (byteOf b 1) 1 && s1.capturing g step 1
      match (if capture then s1.idSection a g step else .ok []), (if capture then s1.subSection a g step else .ok []) with
      | .error t, _ => .trap t
      | _, .error t => .trap t
      | .ok ids, .ok subs =>
        let f := s1.beaconF g
        let sg := s1.beaconSg g
        let late := 1 ≤ s1.granule
        let x : Round := { engine := e, step := step, f := f, sg := sg
                           sub := if late then min ((s1.granule - 1) / sg + 1) (f + 1) else 0
                           known := 2 ^ v.rank, skip := if reason = 0 then 0 else 2 ^ v.rank, reason := reason, sumsq := c.sumsq
                           nonfinite := c.nonfinite, reduced := c.reduced, result := leAt b 24 8, flips := leAt b 32 8
                           capture := capture, ids := ids, subs := subs }
        let s2 := s1.closeStep g step
        if s1.capturing g step 2 then Res.ofStore (s2.replayRound a g x)
        else
          let s3 := (s2.putRound g (some x)).modRun e (fun r => { r with wait := .busy })
          .stay (if late ∧ (s1.granule - 1) / sg < f + 1 then s3.flood g x else s3)))

end Sys2Proof.Machine
end

