-- ==== Sys2Proof/Machine/Timebase.lean ====
section
/-! DEFINITION. The timebase (R51 to R57, R479): its states, holdover, joins and what a timing message measures. -/
namespace Sys2Proof.Machine

/-- The timebase state: 0 FREE, 1 ACQUIRING, 2 LOCKED, 3 HOLDOVER, 4 SPLIT. -/
def State.tbState (s : State) : Nat := s.fld WCH_TB_STATUS F.WCH_TB_STATUS_STATE

/-- The role in effect: 0 standalone, 1 follower, 2 master. -/
def State.tbRole (s : State) : Nat := s.fld WCH_TB_STATUS F.WCH_TB_STATUS_ROLE

/-- The timebase enters a state. -/
def State.tbEnter (s : State) (v : Nat) : State := s.putFld WCH_TB_STATUS F.WCH_TB_STATUS_STATE v

/-- The timebase becomes SPLIT: the alarm, and no Beacon contribution or collective traffic from then on (R56). -/
def State.tbSplit (s : State) : State := (s.tbEnter 4).alarmWch F.WCH_ALARM_WATCH_SPLIT

/-- The timebase enters ACQUIRING, counting its watches anew. -/
def State.tbAcquire (s : State) : State :=
  (s.setTb { s.tb with acquiring := 0, inRange := 0, outRange := 0, missed := 0, unlocked := false }).tbEnter 1

/-- The offset limit of LOCKED, 20 ns, in 1/32 ns. -/
def tbNear : Nat := 20 * 32
/-- The offset limit of SPLIT, 10 us, in 1/32 ns. -/
def tbFar : Nat := 10000 * 32

/-- The error bound of HOLDOVER in 1/32 ns: the last offset's magnitude and 0.25 ns for each watch (R55). -/
def State.tbBound (s : State) : Nat := s.tb.offset.natAbs + 8 * s.tb.holdover

/-- The counts of the timebase at the start of a watch: the watch that ends had a timing message or not, and one more watch is
spent in ACQUIRING or HOLDOVER. A watch without a message ends a run of watches in or out of range (log entry 13). -/
def State.tbWatch (s : State) : State :=
  let t := s.tb
  let t1 := if t.heard then t else { t with missed := t.missed + 1, inRange := 0, outRange := 0 }
  s.setTb { t1 with heard := false,
                    acquiring := if s.tbState = 1 then t.acquiring + 1 else t.acquiring,
                    holdover := if s.tbState = 3 then t.holdover + 1 else t.holdover }

/-- HOLDOVER_ENTRY: a follower goes four watches without a timing message (R54). -/
def execHoldoverEntry (s : State) : Out :=
  if s.tbRole = 1 ∧ (s.tbState = 1 ∨ s.tbState = 2) ∧ 4 ≤ s.tb.missed then
    .next ((s.setTb { s.tb with holdover := 0, unlocked := false }).tbEnter 3)
  else .next s

/-- ACQUIRE_TIMEOUT: 16,384 watches in ACQUIRING without reaching LOCKED (R54). -/
def execAcquireTimeout (s : State) : Out :=
  if s.tbState = 1 ∧ 16384 ≤ s.tb.acquiring then .next s.tbSplit else .next s

/-- TB_LOCK: the offset within 20 ns for 16 consecutive watches (R54). -/
def execTbLock (s : State) : Out :=
  if s.tbState = 1 ∧ 16 ≤ s.tb.inRange then .next ((s.setTb { s.tb with outRange := 0 }).tbEnter 2) else .next s

/-- TB_LOCK_LOST: the offset of a LOCKED follower beyond 20 ns in 4 consecutive watches (R54). Its offset then also sets
WATCH_UNLOCKED (R55). -/
def execTbLockLost (s : State) : Out :=
  if s.tbRole = 1 ∧ s.tbState = 2 ∧ 4 ≤ s.tb.outRange then .next (s.tbAcquire.alarmWch F.WCH_ALARM_WATCH_UNLOCKED) else .next s

/-- WATCH_UNLOCKED: the error bound of HOLDOVER first exceeds 20 ns (R55). -/
def execWatchUnlocked (s : State) : Out :=
  if s.tbState = 3 ∧ ¬ s.tb.unlocked ∧ tbNear < s.tbBound then
    .next ((s.setTb { s.tb with unlocked := true }).alarmWch F.WCH_ALARM_WATCH_UNLOCKED)
  else .next s

/-- HOLDOVER_SPLIT: the error bound of HOLDOVER exceeds 10 us (R54, R56). -/
def execHoldoverSplit (s : State) : Out :=
  if s.tbState = 3 ∧ tbFar < s.tbBound then .next s.tbSplit else .next s

/-- Is any guaranteed plan accepted and unfinished? -/
def State.guaranteedHeld (s : State) : Bool := s.adm.plans.any (fun p => p.2.guaranteed)

/-- A JOIN under a role (R54, R57): refused while a guaranteed plan is held; else the role is in effect, and a follower's count
steps at the start of the next watch. -/
def State.joinAs (s : State) (role0 : Nat) : State :=
  let role := if role0 = 3 then 0 else role0
  if s.guaranteedHeld then s.alarmWch F.WCH_ALARM_JOIN_REFUSED
  else
    let s1 := s.putFld WCH_TB_STATUS F.WCH_TB_STATUS_ROLE role
    if role = 0 then (s1.setTb { s1.tb with stepPending := false }).tbEnter 0
    else if role = 1 then (s1.setTb { s1.tb with stepPending := true, heard := false }).tbAcquire
    else (s1.setTb { s1.tb with stepPending := false }).tbEnter 2

/-- WATCH_COUNT_STEP: the count steps to the master's after an accepted JOIN. A guaranteed plan accepted since the JOIN forbids
the step, which then shows as a refused JOIN (R57, log entry 14). Powered time does not step. -/
def execWatchCountStep (count : Nat) (s : State) : Out :=
  if ¬ s.tb.stepPending then .next s
  else
    let s1 := s.setTb { s.tb with stepPending := false }
    if s.guaranteedHeld then .next (s1.alarmWch F.WCH_ALARM_JOIN_REFUSED) else
      .next ((s1.setFt { s1.ft with ahead := s1.ft.ahead + s1.watch - (count % 2 ^ 48 : Nat) }).setWatch count)

/-- OFFSET_NS shows an offset in whole ns; which way a fraction rounds the spec leaves open. -/
def State.showOffset (s : State) (x : Int) : State :=
  let r := if x % 32 ≠ 0 ∧ s.anyBool then x / 32 + 1 else x / 32
  ((s.setTb { s.tb with offset := x }).putFld WCH_TB_STATUS F.WCH_TB_STATUS_OFFSET_NS (unsigned 32 r)).tookFree

/-- What an offset measured in this watch does to the timebase state (R54, R55). -/
def State.measured (s : State) (x : Int) : State :=
  let near := decide (x.natAbs ≤ tbNear)
  let s1 := (s.showOffset x)
  let s2 := s1.setTb { s1.tb with heard := true, missed := 0, inRange := if near then s1.tb.inRange + 1 else 0,
                                  outRange := if near then 0 else s1.tb.outRange + 1 }
  if s.tbState = 1 then
    let s3 := if near then s2 else s2.alarmWch F.WCH_ALARM_WATCH_UNLOCKED
    if tbFar < x.natAbs then s3.tbSplit else s3
  else if s.tbState = 2 then (if tbFar < x.natAbs then s2.tbSplit else s2)
  else if s.tbState = 3 then
    if tbFar < x.natAbs then s2.tbSplit
    else
      let s3 := s2.tbAcquire
      let s4 := s3.setTb { s3.tb with inRange := if near then 1 else 0 }
      if near then s4 else s4.alarmWch F.WCH_ALARM_WATCH_UNLOCKED
  else s2

/-- The time now in 1/16 ns, with the sixteenths the tick does not show left open. -/
def State.stamp (s : State) : Nat := (s.watch * 250000 + s.tick) * 16 + s.anyNat % 16

/-- The timing parent's delay is shown in LNKn_TIME_STATUS of its die, in ns; which way a fraction rounds the spec leaves open
(R479, R495). -/
def State.showDelay (s : State) (x : Int) : State :=
  let r := if x % 32 ≠ 0 ∧ s.anyBool then x / 32 + 1 else x / 32
  (s.putFld (LNK_TIME_STATUS (s.boot.chart.parent / 8)) F.LNK_TIME_STATUS_DELAY_NS (unsigned 16 r)).tookFree

/-- A follower receives TIME_RSP, stamps T4 and computes its offset and delay. A response without LOCKED, one at or after tick
200,000 and a second one in a watch measure nothing (R479). Times are in 1/16 ns: (count x 250,000 + tick) x 16. -/
def State.timeRsp (s : State) (t1 t2 t3 : Nat) (locked : Bool) : State :=
  let s1 := s.toTick (s.tick + s.anyNat % (250000 - s.tick))
  let t4 : Nat := (s1.tookFree).stamp
  if s.tbRole ≠ 1 ∨ ¬ locked ∨ s.tb.heard ∨ 200000 ≤ s1.tick then s1.tookFree.tookFree
  else (s1.tookFree.tookFree.measured (((t2 : Int) - t1) - ((t4 : Int) - t3))).showDelay (((t4 : Int) - t1) - ((t3 : Int) - t2))

/-- TIME_RSP_RECEIVE. -/
def execTimeRspReceive (t1 t2 t3 : Nat) (locked : Bool) (s : State) : Out := .next (s.timeRsp t1 t2 t3 locked)

end Sys2Proof.Machine
end

