-- ==== Sys2Proof/Machine/Links.lean ====
section
/-! DEFINITION. The ports of Morco Link: flits to be sent (R453 to R467), training and port states (R452, R481 to R486), and timing
requests (R478, R479). -/
namespace Sys2Proof.Machine

/-! ## Flits -/

/-- The value of a table of counts. -/
def countOf (l : List (Nat × Nat)) (v : Nat) : Nat := (Table.get? l v).getD 0

/-- The initial credits of a channel (R464). -/
def initialCredits (v : Nat) : Nat := if v = 1 then 512 else if v = 2 then 1024 else 256

/-- Has a port credits left on a channel (R465)? -/
def Port.hasCredit (p : Port) (v : Nat) : Bool := decide ((countOf p.used v + 65536 - countOf p.freed v) % 65536 < initialCredits v)

/-- The 256 bytes of a flit (R454): sequence number and kind, E - 1 as ACK with ACK_VALID, REPLAY_REQ, and one channel's credit total. -/
def Port.flit (p : Port) (seq kind vc : Nat) (body : List Byte) : List Byte :=
  let b := leBytes 2 (seq % 4096 + kind * 4096) ++ leBytes 2 ((p.expect + 4095) % 4096 + 4096 + 8192 * p.ask.toNat)
    ++ leBytes 1 vc ++ leBytes 1 p.turn ++ leBytes 2 (countOf p.drained p.turn % 65536) ++ leBytes 4 0
    ++ (body ++ List.replicate 240 0).take 240
  b ++ leBytes 4 (crc32c b)

/-- A port has sent a flit: the replay request has gone with it, and the next channel's credit total goes next. -/
def Port.didSend (p : Port) (bytes : List Byte) : Port := { p with sent := bytes, ask := false, turn := (p.turn + 1) % 4 }

/-- A new sequenced flit: it takes the next SEQ and is held in the replay buffer (R457, R460). -/
def Port.sendNew (p : Port) (kind vc : Nat) (body : List Byte) : Port :=
  let f := p.flit p.next kind vc body
  { p.didSend f with next := (p.next + 1) % 4096, held := p.held ++ [(p.next, f)] }

/-- A held flit is resent, with the current acknowledgement and credit fields (R462). -/
def Port.resend (p : Port) (seq : Nat) (f : List Byte) : Port :=
  (p.didSend (p.flit seq (leAt f 0 2 / 4096) (byteOf f 4) ((f.drop 12).take 240)))

/-! ## Messages on a port -/

/-- The port a waiting message goes out on: the one it was given while that is UP, else the lowest UP port of its destination's route
mask (R471, R484). -/
def State.portOf (s : State) (m : Packet) : Option Nat :=
  match m.port with
  | some q => if s.portUp q then some q else (s.upPorts m.dest).head?
  | none => (s.upPorts m.dest).head?

/-- The message at the head of a channel of a port: the one under way, else the first GR message that waits, else the first BE one. -/
def State.headOf (s : State) (oe v : Nat) : Option Packet :=
  match Table.get? (s.port oe).going v with
  | some m => some m
  | none =>
    let mine := s.lnk.out.filter (fun m => decide (m.chan = v) && decide (s.portOf m = some oe))
    match mine.find? (·.gr) with
    | some m => some m
    | none => mine.head?

/-- The message at the head of a channel is taken up. -/
def State.takeHead (s : State) (oe v : Nat) (m : Packet) : State :=
  if (Table.get? (s.port oe).going v).isSome then s
  else (s.setLnk { s.lnk with out := s.lnk.out.erase m }).putPort oe { s.port oe with going := Table.put (s.port oe).going v m }

/-- A body is filled with the bytes of messages of one channel, one after another; the rest of it stays zero (R466). -/
def State.fillBody (s : State) (oe v : Nat) : Nat → Nat → List Byte → State × List Byte
  | 0, _, acc => (s, acc)
  | fuel + 1, room, acc =>
    if room = 0 then (s, acc)
    else match s.headOf oe v with
      | none => (s, acc)
      | some m =>
        let s1 := s.takeHead oe v m
        let p := s1.port oe
        let rest := m.bytes.drop room
        let s2 := s1.putPort oe { p with going := if rest.isEmpty then Table.del p.going v else Table.put p.going v { m with bytes := rest } }
        s2.fillBody oe v fuel (room - m.bytes.length) (acc ++ m.bytes.take room)

/-- The channel whose STREAM flit goes first: GR messages in the order RSP, COLL, REQ, BULK, then BE messages in the same order (R467). -/
def State.nextChannel (s : State) (oe : Nat) : Option Nat :=
  let able (gr : Bool) : List Nat := [1, 2, 0, 3].filter (fun v =>
    (s.port oe).hasCredit v && (match s.headOf oe v with | some m => m.gr == gr | none => false))
  (able true ++ able false).head?

/-- The CTRL body that goes first: TIME, then BEACON, then PORT_CHANGE (R467). -/
def Port.nextCtrl (p : Port) : Option (Nat × List Byte) :=
  match p.ctrl.find? (fun c => c.1 ≤ 2) with
  | some c => some c
  | none => match p.ctrl.find? (fun c => c.1 = 3) with
    | some c => some c
    | none => p.ctrl.head?

/-- The 16 bytes of a timestamp in 1/16 ns (R478). -/
def stampBytes (t : Nat) : List Byte := leBytes 6 (t / 4000000) ++ leBytes 2 0 ++ leBytes 4 (t % 4000000) ++ leBytes 4 0

/-- A timestamp read from its 16 bytes. -/
def stampAt (b : List Byte) (off : Nat) : Nat := leAt b off 6 * 4000000 + leAt b (off + 8) 4

/-- A TIME message is stamped as its flit is sent: T1 of TIME_REQ, T3 of TIME_RSP (R478). -/
def State.stamped (s : State) (c : Nat × List Byte) : List Byte :=
  if c.1 = 1 then c.2.take 16 ++ stampBytes s.stamp ++ c.2.drop 32
  else if c.1 = 2 then c.2.take 48 ++ stampBytes s.stamp ++ c.2.drop 64
  else c.2

/-! ## Port states -/

/-- A port's state shown. -/
def State.showPort (s : State) (oe v : Nat) : State := s.putFld (portStatus oe) F.LNK_PORT_STATUS_STATE v

/-- The control register of an optical engine's port. -/
def portCtrl (oe : Nat) : Nat := LNK_PORT_CTRL (oe / 8) (oe % 8)

/-- Is the port one of an Ethernet engine? -/
def State.isEth (s : State) (oe : Nat) : Bool := s.flag (portStatus oe) F.LNK_PORT_STATUS_ETH

/-- LNK0_ETH_STATUS shows whether an Ethernet engine is up. -/
def State.showEth (s : State) (oe : Nat) (up : Bool) : State :=
  if s.isEth oe ∧ oe < 8 then s.putFld LNK0_ETH_STATUS ⟨oe, oe⟩ up.toNat else s

/-- Training begins: 1 with saved settings, 2 in full, 3 a change (R481, R483, R486). -/
def State.startTraining (s : State) (oe kind : Nat) : State := (s.showPort oe 1).putPort oe { s.port oe with training := kind }

/-- The command bits of a port's control register read 0 once the training ends (R496). -/
def State.clearCommands (s : State) (oe : Nat) : State :=
  ((s.clrBit (portCtrl oe) F.LNK_PORT_CTRL_RETRAIN).clrBit (portCtrl oe) F.LNK_PORT_CTRL_FULL_TRAIN).clrBit (portCtrl oe) F.LNK_PORT_CTRL_CHANGE

/-- The destinations that lost their last port with this one are unreachable (R476). -/
def State.lostWith (s before : State) (oe : Nat) : State :=
  let gone := (s.linkRecs 2).filter (fun r => !(before.upPorts r.a).isEmpty && (s.upPorts r.a).isEmpty && !s.lnk.silent.contains r.a)
  gone.foldl (fun s r => s.peerLost (oe / 8) r.a 1) s

/-- BEACON messages not yet started go out on other ports. -/
def State.reroute (s : State) (l : List (Nat × List Byte)) : State :=
  l.foldl (fun s c => match (s.upPorts (leAt c.2 2 2)).head? with
    | some q => let p := s.port q; s.putPort q { p with ctrl := p.ctrl ++ [c] }
    | none => s) s

/-- A port leaves UP: its buffers, part messages, credits and sequence numbers are gone; the exit is counted; but for a command
LINK_DOWN is set (R484). -/
def State.leaveUp (s : State) (oe : Nat) (command : Bool) : State :=
  let p := s.port oe
  let s1 := ((s.putPort oe { half := p.half, back := p.back, dark := p.dark }).showPort oe 3).showEth oe false
  let s2 := (s1.count (LNK_PORT_DOWNS (oe / 8) (oe % 8))).reroute (p.ctrl.filter (fun c => c.1 = 3))
  let s3 := if command then s2 else s2.alarmLnk (oe / 8) F.LNK_ALARM_LINK_DOWN
  s3.lostWith s oe

/-- A port that is DOWN trains at once while AUTO is set and its laser input is in range (R452, R481). -/
def State.autoTrain (s : State) (oe : Nat) : State :=
  if s.portState oe = 3 ∧ s.flag (portCtrl oe) F.LNK_PORT_CTRL_AUTO ∧ ¬ (s.port oe).dark then s.startTraining oe 1 else s

/-- A port's command to train, of a kind: from UP it leaves UP first (R481, R484). -/
def State.commandTraining (s : State) (oe kind : Nat) : State :=
  (if s.portState oe = 2 then s.leaveUp oe true else s).startTraining oe kind

/-- A change of rate begins on a port, to a setting (R486). -/
def State.startChange (s : State) (oe : Nat) (half : Bool) : State :=
  let s1 := s.commandTraining oe 3
  let p := s1.port oe
  s1.putPort oe { p with half := half, back := some (p.back.getD p.half) }

/-- The command bits of a write to LNKn_PORT_CTRL: the first of FULL_TRAIN, RETRAIN and CHANGE acts (R481, R496). A port that is OFF has
nothing to train; CHANGE acts on a port that is UP, and sends PORT_CHANGE first. -/
def State.portCommand (s : State) (oe : Nat) (full retrain change : Bool) : State :=
  if s.portState oe = 0 then s
  else if full then (s.commandTraining oe 2).setBit (portCtrl oe) F.LNK_PORT_CTRL_FULL_TRAIN
  else if retrain then (s.commandTraining oe 1).setBit (portCtrl oe) F.LNK_PORT_CTRL_RETRAIN
  else if change ∧ s.portState oe = 2 then
    let s1 := s.setBit (portCtrl oe) F.LNK_PORT_CTRL_CHANGE
    let half := s1.flag (portCtrl oe) F.LNK_PORT_CTRL_HALF
    if s1.isEth oe then s1.startChange oe half else s1.sendCtrl oe 4 0 0 (leBytes 1 half.toNat)
  else s

/-! ## The transmit slot -/

/-- A port sends a CTRL flit; once PORT_CHANGE is sent the port retrains at the new setting. -/
def State.sendCtrlFlit (s : State) (oe : Nat) (c : Nat × List Byte) : State :=
  let p := s.port oe
  let s1 := (s.putPort oe (({ p with ctrl := p.ctrl.erase c }).sendNew 2 0 (s.stamped c))).tookFree
  let s2 := s1.count (LNK_PORT_FLITS (oe / 8) (oe % 8))
  if c.1 = 4 then s2.startChange oe (bit (byteOf c.2 16) 0) else s2

/-- A port sends a STREAM flit of a channel, using one credit. -/
def State.sendStream (s : State) (oe v : Nat) : State :=
  let (s1, body) := s.fillBody oe v 31 240 []
  let p := s1.port oe
  (s1.putPort oe (({ p with used := Table.put p.used v (countOf p.used v + 1) }).sendNew 1 v body)).count (LNK_PORT_FLITS (oe / 8) (oe % 8))

/-- FLIT_SLOT: a port sends the first that is ready of a replay, a CTRL flit, a STREAM flit, an IDLE flit; no new sequenced flit while
1,024 are held (R459, R461, R467). -/
def execFlitSlot (die port : Nat) (s : State) : Out :=
  let oe := 8 * die + port
  let p := s.port oe
  if ¬ s.portUp oe then .next s
  else match p.replay with
    | q :: rest => (match Table.get? p.held q with
      | some f => .next ((s.putPort oe (({ p with replay := rest }).resend q f)).count (LNK_PORT_REPLAYED die port))
      | none => .next (s.putPort oe { p with replay := rest }))
    | [] =>
      let idle := s.putPort oe (p.didSend (p.flit 0 0 0 []))
      if 1024 ≤ p.held.length then .next idle
      else match p.nextCtrl with
        | some c => .next (s.sendCtrlFlit oe c)
        | none => match s.nextChannel oe with
          | some v => .next (s.sendStream oe v)
          | none => .next idle

/-! ## Acknowledgements and replay -/

/-- A valid acknowledgement releases the flits up to it; it is valid when it names O - 1 or a held flit (R460). None for an invalid
one. -/
def Port.ack (p : Port) (a : Nat) : Option Port :=
  let o := match p.held with | (q, _) :: _ => q | [] => p.next
  if (a + 1) % 4096 = o then some p
  else if (a + 4096 - o) % 4096 < (p.next + 4096 - o) % 4096 then
    let n := (a + 4096 - o) % 4096 + 1
    some { p with held := p.held.drop n, replay := p.replay.filter (fun q => n ≤ (q + 4096 - o) % 4096), timeouts := 0 }
  else none

/-- A replay request resends every held flit after its acknowledgement, ahead of new flits (R462). -/
def Port.replayFrom (p : Port) (a : Nat) : Port :=
  match p.ack a with
  | some q => { q with replay := q.held.map (·.1) }
  | none => p

/-- REPLAY_REQ_RECEIVE. -/
def execReplayReqReceive (die port seq : Nat) (s : State) : Out :=
  let oe := 8 * die + port
  if s.portUp oe then .next (s.putPort oe ((s.port oe).replayFrom seq)) else .next s

/-- REPLAY_REQ_REPEAT: REPLAY_US passes with the expected flit still missing after a gap: the request goes again (R458). -/
def execReplayReqRepeat (die port : Nat) (s : State) : Out :=
  let oe := 8 * die + port
  let p := s.port oe
  if s.portUp oe ∧ p.asked = some p.expect then .next (s.putPort oe { p with ask := true }) else .next s

/-- REPLAY_TIMEOUT: the oldest flit has been held for REPLAY_US: the port replays from it; after 16 timeouts in a row it leaves UP with
FAIL 6 (R463). -/
def execReplayTimeout (die port : Nat) (s : State) : Out :=
  let oe := 8 * die + port
  let p := s.port oe
  if ¬ s.portUp oe ∨ p.held.isEmpty then .next s
  else if 16 ≤ p.timeouts + 1 then
    .next (((s.leaveUp oe false).putFld (portStatus oe) F.LNK_PORT_STATUS_FAIL 6).autoTrain oe)
  else .next (s.putPort oe { p with timeouts := p.timeouts + 1, replay := p.held.map (·.1) })

/-! ## Training -/

/-- The peer the Chart expects at a port: package and optical engine (R485, R547). -/
def State.expectedPeer (s : State) (oe : Nat) : Option (Nat × Nat) := ((s.linkRecs 1).find? (fun r => r.a = oe)).map (fun r => (r.b, r.c))

/-- The saved settings of a port at a rate (R483). -/
def settingsKey (oe : Nat) (half : Bool) : Nat := 2 * oe + half.toNat

/-- A port fails its training for good (R481). -/
def State.trainingFailed (s : State) (oe code : Nat) : State :=
  let s1 := (s.clearCommands oe).putPort oe { s.port oe with training := 0 }
  (s1.putFld (portStatus oe) F.LNK_PORT_STATUS_FAIL code).showPort oe 4

/-- A port is miswired: FAILED with code 3, and the alarm (R485). -/
def State.miswired (s : State) (oe : Nat) : State := (s.trainingFailed oe 3).alarmLnk (oe / 8) F.LNK_ALARM_LINK_MISWIRED

/-- Training completes: the port is UP with fresh credits and sequence numbers. A port without valid saved settings, or whose fast start
did not reach step 5 in time (a free bit), has trained in full, and its settings are saved (R457, R464, R482, R483). -/
def State.trained (s : State) (oe pkg peer : Nat) : State :=
  let p := s.port oe
  let key := settingsKey oe p.half
  let fast := decide (p.training ≠ 2) && s.boot.saved.contains key && s.anyBool
  let st := portStatus oe
  let s1 := ((s.clearCommands oe).putPort oe { half := p.half, dark := p.dark }).tookFree
  let s2 := if fast then s1 else s1.setBoot { s1.boot with saved := enter key s1.boot.saved }
  let s3 := ((((s2.putFld st F.LNK_PORT_STATUS_HALF p.half.toNat).putFld st F.LNK_PORT_STATUS_SAVED_USED fast.toNat).putFld st
    F.LNK_PORT_STATUS_FAIL 0).putFld st F.LNK_PORT_STATUS_PEER_PKG pkg).putFld st F.LNK_PORT_STATUS_PEER_PORT peer
  (s3.showPort oe 2).showEth oe true

/-- TRAINING_COMPLETE: the five steps are done; a peer other than the Chart's is miswired (R482, R485). -/
def execTrainingComplete (die port pkg peer : Nat) (s : State) : Out :=
  let oe := 8 * die + port
  if s.portState oe ≠ 1 ∨ (s.port oe).training = 0 ∨ (s.port oe).dark then .next s
  else if s.isEth oe ∨ s.expectedPeer oe = some (pkg, peer) then .next (s.trained oe pkg peer)
  else .next (s.miswired oe)

/-- A change is aborted: the port goes DOWN with code 7, and its next training returns to the rate before the change (R486). -/
def State.abortChange (s : State) (oe : Nat) : State :=
  let p := s.port oe
  let s1 := (s.clearCommands oe).putPort oe { p with training := 0, half := p.back.getD p.half, back := none }
  (((s1.putFld (portStatus oe) F.LNK_PORT_STATUS_FAIL 7).showPort oe 3).alarmLnk (oe / 8) F.LNK_ALARM_PORT_CHANGE_ABORTED).autoTrain oe

/-- TRAINING_FAIL: a step fails with a code of R482: FAILED for code 3 or with AUTO clear; with AUTO set the port trains again after a
second. Loss of signal during a change aborts it. -/
def execTrainingFail (die port cause : Nat) (s : State) : Out :=
  let oe := 8 * die + port
  let p := s.port oe
  if s.portState oe ≠ 1 ∨ p.training = 0 ∨ cause = 0 ∨ 5 < cause then .next s
  else if cause = 3 then .next (s.miswired oe)
  else if p.training = 3 ∧ cause = 1 then .next (s.abortChange oe)
  else if s.flag (portCtrl oe) F.LNK_PORT_CTRL_AUTO then
    .next (((s.clearCommands oe).putPort oe { p with training := 0 }).putFld (portStatus oe) F.LNK_PORT_STATUS_FAIL cause)
  else .next (s.trainingFailed oe cause)

/-- TRAINING_RETRY: a second after its failure a port with AUTO set trains again (R481). -/
def execTrainingRetry (die port : Nat) (s : State) : Out :=
  let oe := 8 * die + port
  if s.portState oe = 1 ∧ (s.port oe).training = 0 ∧ ¬ (s.port oe).dark then .next (s.startTraining oe 1) else .next s

/-- PORT_DOWN: a port leaves UP for loss of signal or uncorrectable codeword pairs (R484); during a change the loss of signal aborts it
(R486). -/
def execPortDown (die port : Nat) (s : State) : Out :=
  let oe := 8 * die + port
  if s.portState oe = 2 then .next ((s.leaveUp oe false).autoTrain oe)
  else if s.portState oe = 1 ∧ (s.port oe).training = 3 then .next (s.abortChange oe)
  else .next s

/-- PORT_CHANGE: the peer asks for a change: the port retrains at the new setting, bit 0 for half rate (R486). -/
def execPortChange (die port value : Nat) (s : State) : Out :=
  let oe := 8 * die + port
  if s.portState oe = 2 then .next (s.startChange oe (value.testBit 0)) else .next s

/-! ## Laser light -/

/-- The ports of an edge connector. -/
def connectorPorts (k : Nat) : List Nat := (List.range 4).map (4 * (k % 8) + ·)

/-- LASER_LOW: the laser input of a connector is out of range for 10 us: its ports leave UP (R452). -/
def execLaserLow (connector : Nat) (s : State) : Out :=
  let s1 := (connectorPorts connector).foldl (fun s oe =>
    let s1 := s.putPort oe { s.port oe with dark := true }
    if s1.portState oe = 2 then s1.leaveUp oe false else s1) s
  .next (s1.alarmLnk (connector % 8 / 2) F.LNK_ALARM_LASER_LOW)

/-- LASER_RESTORED: the input has been in range for 100 ms: the ports train again (R452). -/
def execLaserRestored (connector : Nat) (s : State) : Out :=
  .next ((connectorPorts connector).foldl (fun s oe =>
    if (s.port oe).dark then
      let s1 := s.putPort oe { s.port oe with dark := false }
      if s1.portState oe = 3 then s1.startTraining oe 1 else s1
    else s) s)

/-! ## Timing requests -/

/-- TIME_REQ_SEND: at tick 1,000 a follower sends TIME_REQ on its parent port (R479). -/
def execTimeReqSend (s : State) : Out :=
  let oe := s.boot.chart.parent
  if s.tbRole = 1 ∧ oe < 32 ∧ s.portUp oe then
    let s1 := s.toTick 1000
    .next ((s1.sendCtrl oe 1 0 0 (stampBytes s1.stamp)).tookFree)
  else .next s

/-- Is the parent's own time good: the master, or LOCKED (R478)? -/
def State.timeLocked (s : State) : Bool := decide (s.tbRole = 2 ∨ s.tbState = 2)

/-- A parent receives TIME_REQ: it stamps T2 and answers, with T3 stamped as the flit is sent (R478, R479). -/
def State.timeReq (s : State) (oe t1 : Nat) : State :=
  (s.sendCtrl oe 2 0 0 (stampBytes t1 ++ stampBytes s.stamp ++ List.replicate 16 0 ++ leBytes 1 s.timeLocked.toNat)).tookFree

/-- TIME_REQ_RECEIVE. -/
def execTimeReqReceive (die port t1 : Nat) (s : State) : Out :=
  if s.portUp (8 * die + port) then .next (s.timeReq (8 * die + port) t1) else .next s

end Sys2Proof.Machine
end

