-- ==== Sys2Proof/Machine/Reset.lean ====
section
/-! DEFINITION. What a power loss and a package reset leave (R8, R329 to R332, R532, R585), and the power-loss path (R529, R530, R587). -/
namespace Sys2Proof.Machine

/-! ## The flash tier at a reset and at a power loss -/

/-- The first address past the deep flash tier's aperture (R317). -/
def flashEnd : Nat := flashBase + 100 * 2 ^ 40

/-- Does an address lie in the deep flash tier's aperture? -/
def inFlash (a : Nat) : Bool := decide (flashBase ≤ a) && decide (a < flashEnd)

/-- Every accepted T3 write becomes durable before a package reset with power present (R329). -/
def State.flashDurable (s : State) : State :=
  let s1 := (s.programAll).closeStripe
  (s1.setFlash { s1.flash with accepted := [] }).putFld DFT_STATUS F.DFT_STATUS_CACHE_MIB 0

/-- A write that a power loss discards gives way to what its bytes held before. -/
def State.unwrite (s : State) (w : FlashWrite) : State :=
  let inside (x : Nat) : Bool := decide (w.addr ≤ x) && decide (x < w.addr + w.old.length)
  (s.setMem (putBytes s.mem w.addr w.old)).setPoison (w.oldPoison.foldl (fun l g => enter g l) (s.poison.filter (fun g => !inside g)))

/-- After a power loss T3 holds every write accepted in watches up to some w_s, and no later write: w_s is a free value at or
after DFT_DURABLE (R331). -/
def State.flashLoss (s : State) : State :=
  let ws := s.durable + s.anyNat % (s.watch - s.durable + 1)
  let gone := s.flash.accepted.filter (fun a => ws < a.watch)
  let s1 := gone.foldl (fun s a => s.unwrite a) s
  (s1.setFlash { s1.flash with accepted := [], stripe := 0, full := 0, cache := 0,
                               loss := some (ws, gone.foldl (fun n a => n + a.old.length) 0) }).tookFree

/-! ## Volatile content -/

/-- Every volatile content is lost: cluster SRAM, HBM, host DRAM, fabric data in flight, plans and engines (R532). Flash contents and
the records of T3 frames stay (R329), and so do repair lists and retired frames, which Keeper MRAM holds. -/
def State.dropVolatile (s : State) : State :=
  { s with
    mem := s.mem.filter (fun c => inFlash c.1), sram := [], poison := s.poison.filter inFlash, tb := {}, deferred := [], tracker := []
    adm := {}, eng := {}, xq := {}
    tiers := { frames := (s.tiers.frames.filter (fun f => inFlash f.1 && !f.2.zeroing && !f.2.freeAfter)).map (fun f =>
                 (f.1, { f.2 with transit := false })),
               nextRun := s.tiers.nextRun, retired := s.tiers.retired }
    hbm := s.hbm.map (fun h => (h.1, { repair := h.2.repair }))
    mmu := {}, coh := [], pcie := {}, exp := [], lnk := {}, col := {}, upd := {}, probe := none, draws := []
    log := { s.log with queues := [] } }

/-! ## The Logbook at a reset -/

/-- The open incident closes with a cause: 1 QUIET, 2 RESET, 3 POWER_LOSS (R585, R586). -/
def State.closeIncident (s : State) (cause : Nat) : State :=
  if s.flag LOG_STATUS F.LOG_STATUS_OPEN then
    (s.setLog { s.log with incidents := Table.mod s.log.incidents (s.fld LOG_STATUS F.LOG_STATUS_SLOT) (fun i =>
      { i with close := cause }) }).clrBit LOG_STATUS F.LOG_STATUS_OPEN
  else s

/-! ## Package reset -/

/-- Every register returns to its reset value; fields marked Stored or Fuse map keep theirs (R8). -/
def State.resetRegisters (s : State) : List (Nat × Word) :=
  storedMasks.foldl (fun l e => Sparse.set l e.1 ((Sparse.get resetRegs e.1 &&& ~~~ e.2) ||| (s.reg e.1 &&& e.2))) resetRegs

/-- The field-test records persist (R575), and powered time goes on. Reserved windows are gone, and a unit that waited to become
unavailable is. -/
def State.resetFt (s : State) : FieldTest :=
  { units := s.ft.units.map (fun u => (u.1, { u.2 with due := false, reserved := false, loaded := false })),
    unavailable := s.ft.leaving.map (·.1) ++ s.ft.unavailable, ahead := s.ft.ahead + s.watch }

/-- What the Keeper's stores keep of the boot state; a package reset closes the debug port (R561). -/
def State.resetBoot (s : State) : Boot :=
  { s.boot with recovery := false, halted := false, chart := {}, chtQueue := [], chtRun := none, firmware := 0, portOpen := false, opening := false,
                replies := [], sideband := [], block := none, pwrOk := false, xboot := (s.reg KPR_X_BOOT).toNat, lastStatus := (s.reg KPR_BOOT_STATUS).toNat }

/-- A package reset (R8): registers at their reset values, volatile content lost, the open incident closed; the debug nonce changes
(R559), and boot stage 1 is next. Input power goes on being averaged over its 4 s. -/
def State.packageReset (s : State) : State :=
  let s1 := s.closeIncident 2
  let s2 := (((((s1.dropVolatile.setRegs s1.resetRegisters).setLog { s1.log with
      windows := [], drops := [], queues := [], final := false, reading := false }).setFt s1.resetFt).setBoot s1.resetBoot).setPwr
    { hist := s1.pwr.hist }).setFlash { s1.flash with accepted := [], stripe := 0, full := 0, cache := 0, marks := [], paced := 0 }
  ((s2.putReg KPR_DBG_NONCE s.anyWord).putFld KPR_BOOT_STATUS F.KPR_BOOT_STATUS_STAGE 1).tookFree

/-! ## The power-loss path -/

/-- The flash controllers at a power-fail warning: they stop accepting writes, and a commit record in progress completes, which a free
bit decides (R330). -/
def State.flashStop (s : State) : State :=
  let w := s.durable + 1
  if s.anyBool ∧ w < s.watch ∧ s.flash.full = 0 ∧ (s.flash.stripe = 0 ∨ w < s.flash.stripeWatch) then
    let s1 := s.setFlash { s.flash with accepted := s.flash.accepted.filter (fun a => w < a.watch) }
    ((s1.putFld DFT_DURABLE F.DFT_DURABLE_WATCH_LO w).putFld DFT_DURABLE F.DFT_DURABLE_WATCH_HI (w / 2 ^ 32)).tookFree
  else s.tookFree

/-- The FINAL record (R584, R587): the input voltage, the 4 s average power and DFT_DURABLE. Every later record is discarded. -/
def State.finalRecord (s : State) : State :=
  let s1 := s.logRecord 6 0xFF (blockSource 4) 0 s.watch s.tick
    [s.fld PWR_INPUT F.PWR_INPUT_VIN, s.fld PWR_STATUS F.PWR_STATUS_AVG_W, (s.reg DFT_DURABLE).toNat]
  s1.setLog { s1.log with final := true }

/-- The power-loss path (R530), once for each warning: the POWER_FAIL alarm line, the flash controllers, the engines and hosts stop,
the FINAL record, and the open incident closes. Line 121 has no source register: the image in its ALARM record is free. cause: 1 the
warning, 2 a thermal trip, 3 a rail, 4 over-voltage, 5 the reference. -/
def State.powerLoss (s : State) (cause : Nat) : State :=
  if s.log.final ∨ ¬ s.boot.powered then s
  else
    let s1 := ((s.occurrence 121 (s.anyNat % 2 ^ 64)).tookFree).flashStop
    let s2 := ((((((s1.setAdm {}).setEng {}).setExp []).setCol {}).setUpd {}).setDraws []).setProbe none
    let s3 := s2.setBoot { s2.boot with endCause := cause, pwrOk := false }
    ((s3.finalRecord).closeIncident 3).setPwr { s3.pwr with clocks := false }

end Sys2Proof.Machine
end

