-- ==== Sys2Proof/Machine/Sextant.lean ====
section
/-! DEFINITION. The Sextant (R500 to R523, R534 to R536): operating points, the input power limits, shares of the headroom, the learned
estimates, and thermal control. -/
namespace Sys2Proof.Machine

/-! ## Exact fractions -/

/-- A fraction with a positive denominator. -/
structure Frac where
  n : Int
  d : Nat
  deriving DecidableEq, Repr

/-- A whole number. -/
def Frac.ofInt (i : Int) : Frac := ⟨i, 1⟩
/-- The sum. -/
def Frac.add (a b : Frac) : Frac := ⟨a.n * b.d + b.n * a.d, a.d * b.d⟩
/-- The difference. -/
def Frac.sub (a b : Frac) : Frac := ⟨a.n * b.d - b.n * a.d, a.d * b.d⟩
/-- The product. -/
def Frac.mul (a b : Frac) : Frac := ⟨a.n * b.n, a.d * b.d⟩
/-- Is a at most b? -/
def Frac.le (a b : Frac) : Bool := decide (a.n * b.d ≤ b.n * a.d)
/-- The sum of a list. -/
def Frac.sum (l : List Frac) : Frac := l.foldl Frac.add (Frac.ofInt 0)

/-! ## Operating points -/

/-- The frequency of operating point k in units of 0.1 GHz (R500). -/
def opFreq (k : Nat) : Nat := 7 + k

/-- The voltage of operating point k in a die's table in effect, in mV (R501). -/
def State.opMv (s : State) (d k : Nat) : Nat :=
  bits (s.reg (PWR_TD_VTABLE d (k / 4))).toNat (16 * (k % 4) + 10) (16 * (k % 4))

/-- The point in effect on a die. -/
def State.opNow (s : State) (d : Nat) : Nat := s.fld (PWR_TD_STATUS d) F.PWR_TD_STATUS_OP

/-- The point a die moves to. -/
def State.opTarget (s : State) (d : Nat) : Nat := s.fld (PWR_TD_STATUS d) F.PWR_TD_STATUS_TARGET

/-- A die's clock runs at a point; one below OP9 marks the watch (R521). -/
def State.runAt (s : State) (d k : Nat) : State :=
  let s1 := s.putFld (PWR_TD_STATUS d) F.PWR_TD_STATUS_OP k
  if k < 9 then s1.setPwr { s1.pwr with below := true } else s1

/-- A die moves to a point: a falling frequency switches at once and the voltage follows; a rising one waits for the voltage (R503). -/
def State.movePoint (s : State) (d k : Nat) : State :=
  let s1 := s.putFld (PWR_TD_STATUS d) F.PWR_TD_STATUS_TARGET k
  if k = s.opNow d then s1
  else
    let s2 := s1.setPwr { s1.pwr with moving := enter d s1.pwr.moving }
    if k < s.opNow d then s2.runAt d k else s2

/-- A new target: one that arrives during a change takes effect when that change completes (R516). -/
def State.retarget (s : State) (d k : Nat) : State :=
  if s.pwr.moving.contains d then
    s.setPwr { s.pwr with next := if k = s.opTarget d then Table.del s.pwr.next d else Table.put s.pwr.next d k }
  else s.movePoint d k

/-- OP_CHANGE_DONE: a change completes, with the target's voltage applied and its clock running (R503, R516). -/
def execOpChangeDone (d : Nat) (s : State) : Out :=
  if s.pwr.moving.contains d then
    let k := s.opTarget d
    let s1 := s.setPwr { s.pwr with moving := s.pwr.moving.filter (· ≠ d), next := Table.del s.pwr.next d }
    let s2 := (s1.runAt d k).putFld (PWR_TD_STATUS d) F.PWR_TD_STATUS_MV (s.opMv d k)
    match Table.get? s.pwr.next d with
    | some t => .next (s2.movePoint d t)
    | none => .next s2
  else .next s

/-- The fast loop on one die: above OP9 it drops to OP9, clock first; a rising change is aborted (R510). -/
def State.fastDie (s : State) (d : Nat) : State :=
  let s1 := s.setPwr { s.pwr with next := Table.del s.pwr.next d }
  if 9 < s.opNow d then s1.movePoint d 9
  else if s.opNow d < s.opTarget d then
    (s1.setPwr { s1.pwr with moving := s1.pwr.moving.filter (· ≠ d) }).putFld (PWR_TD_STATUS d) F.PWR_TD_STATUS_TARGET (s.opNow d)
  else s1

/-- FAST_LIMIT: the fast loop acts on every die until a band that satisfies R507 (R510). -/
def execFastLimit (s : State) : Out :=
  if s.pwr.clocks then
    .next (((List.range 8).foldl (fun s d => s.fastDie d) s).setBit PWR_STATUS F.PWR_STATUS_FAST_CLAMP |>.alarmPwr F.PWR_ALARM_FAST_LIMIT)
  else .next s

/-! ## Modes and limits -/

/-- FIXED_OP of a mode word: 9 to 12, else 11 (R517). -/
def fixedOpOf (w : Word) : Nat :=
  let v := fget w F.PWR_MODE_FIXED_OP
  if 9 ≤ v ∧ v ≤ 12 then v else 11

/-- MODE_TAKES_EFFECT: a mode written in an earlier watch takes effect; 3 acts as 0 (R512, R534). -/
def execModeTakesEffect (s : State) : Out :=
  match s.pwr.modeWatch with
  | some w =>
    if w < s.watch then
      let m := s.fld PWR_MODE F.PWR_MODE_MODE
      .next ((s.setPwr { s.pwr with modeWatch := none, fixedOp := fixedOpOf (s.reg PWR_MODE) }).putFld PWR_STATUS F.PWR_STATUS_MODE
        (if m = 3 then 0 else m))
    else .next s
  | none => .next s

/-- The mode in effect. -/
def State.pwrMode (s : State) : Nat := s.fld PWR_STATUS F.PWR_STATUS_MODE

/-- The sum of SHARE_W over the Chart's partitions. -/
def Chart.shareSum (c : Chart) : Nat := c.parts.foldl (fun n d => n + d.shareW) 0

/-- The floor of the sustained limit (R534). -/
def Chart.capFloor (c : Chart) : Nat := max 3000 (ceilDiv ((c.shareSum + 1600) * 100) 93)

/-- The sustained limit in effect (R506, R534). -/
def State.capW (s : State) : Nat := max s.boot.chart.capFloor (min 4800 (s.fld PWR_CAP F.PWR_CAP_CAP_W))

/-- P_allow in W: the boost ceiling, or what the 4 s window leaves the next band, from measured powers 60 W up; bands before the
package had power count nothing (R505, R508). -/
def State.allow (s : State) (hist : List Nat) : Nat :=
  min 5600 (160000 * s.capW - (hist.take 159999).foldl (fun n p => n + p + 60) 0)

/-- MAX_OP in effect (R515, R534). -/
def State.maxOp (s : State) : Nat :=
  let v := fget s.pwr.tune F.PWR_X_TUNE_MAX_OP
  if v = 0 then 15 else max 9 v

/-! ## Predictions -/

/-- A die's energy of a band in uJ, from the domains' meters. -/
def dieEnergy (energies : List Nat) (d : Nat) : Nat := (List.range 6).foldl (fun n i => n + (energies[6 * d + i]?).getD 0) 0

/-- A die's predicted power at point k in W: the measured power scaled by (f_new / f_now) (V_new / V_now)^2 (R515). -/
def State.predict (s : State) (energies : List Nat) (d k : Nat) : Frac :=
  let e : Nat := dieEnergy energies d
  let fn := opFreq (s.opNow d)
  let vn := s.opMv d (s.opNow d)
  let vk := s.opMv d k
  if vn = 0 then ⟨e, 25⟩ else ⟨((e * opFreq k * vk * vk : Nat) : Int), 25 * fn * vn * vn⟩

/-- The package's predicted rail power with every die at a point: what the input gives the rails besides the dies, and the dies. -/
def State.railAt (s : State) (inputW : Nat) (energies : List Nat) (k : Nat) : Frac :=
  (List.range 8).foldl (fun x d => (x.add (s.predict energies d k)).sub ⟨(dieEnergy energies d : Nat), 25⟩)
    ⟨(((inputW + 60) * 93 : Nat) : Int), 100⟩

/-! ## Shares of the headroom -/

/-- The clusters that a partition holds on a die. -/
def PartDesc.clustersOn (p : PartDesc) (d : Nat) : Nat := popCount (p.clusters >>> (4 * d)) 4

/-- The BASIC weight of a die: the shares of the partitions that hold its clusters, split by cluster count (R512). -/
def State.basicWeight (s : State) (d : Nat) : Frac :=
  Frac.sum (s.boot.chart.parts.filterMap (fun p =>
    let n := popCount p.clusters 32
    if n = 0 then none else some ⟨((p.shareW * p.clustersOn d : Nat) : Int), n⟩))

/-- The phase in effect for a partition: bits [3:0] of its enabled phase buoy, 0 without one; a buoy of another partition is never
read (R513, R534). -/
def State.phase (s : State) (p : Nat) : Nat :=
  let b := s.fld (PWR_PHASE_BUOY p) F.PWR_PHASE_BUOY_BUOY
  if s.flag (PWR_PHASE_BUOY p) F.PWR_PHASE_BUOY_EN ∧ s.ownsBuoy p b then (s.buoy b).toNat % 16 else 0

/-- The key of an estimate E[p][k][d]. -/
def estKey (p k d : Nat) : Nat := (16 * p + k) * 8 + d

/-- An estimate with its samples. -/
def State.estimate (s : State) (p k d : Nat) : Nat × Nat := (Table.get? s.pwr.est (estKey p k d)).getD (0, 0)

/-- The weight w_d in effect: the estimates of the current phases, the die's BASIC weight in place of one with fewer than 8 samples; in
BASIC mode that weight (R514, R515). -/
def State.weight (s : State) (d : Nat) : Frac :=
  if s.pwrMode = 2 then
    Frac.sum (s.boot.chart.parts.map (fun p =>
      let e := s.estimate p.num (s.phase p.num) d
      if e.2 < 8 then s.basicWeight d else Frac.ofInt e.1))
  else s.basicWeight d

/-- A die's share of the headroom: w_d / sum of w, or an eighth where the sum is 0 (R515). -/
def State.shareOf (s : State) (d : Nat) : Frac :=
  let total := Frac.sum ((List.range 8).map s.weight)
  if total.n = 0 then ⟨1, 8⟩ else
    let w := s.weight d
    ⟨w.n * total.d, w.d * total.n.toNat⟩

/-- The highest point from a list whose predicted power fits an allowance, else OP9 (R504, R515). -/
def State.fits (s : State) (energies : List Nat) (d : Nat) (allowance : Frac) : List Nat → Nat
  | [] => 9
  | k :: ks => if (s.predict energies d k).le allowance then k else s.fits energies d allowance ks

/-- The points MAX_OP down to 10. -/
def State.boostPoints (s : State) : List Nat := (List.range (s.maxOp - 9)).map (fun i => s.maxOp - i)

/-! ## Thermal caps -/

/-- The level of a sensor (0 none, 1 warning, 2 emergency, 3 trip). -/
def State.levelOf (s : State) (source : Nat) : Nat := (Table.get? s.pwr.levels source).getD 0

/-- Is a sensor outside the tensor dies at a level or above? -/
def State.elsewhere (s : State) (level : Nat) : Bool := s.pwr.levels.any (fun e => decide (8 ≤ e.1) && decide (level ≤ e.2))

/-- The cap a warning puts on a die: max(OP9, FIXED_OP) (R521). -/
def State.warnCap (s : State) (d : Nat) : Nat := if 1 ≤ s.levelOf d ∨ s.elsewhere 1 then max 9 s.pwr.fixedOp else 15

/-- The emergency's cap on a die in the next band: one point lower while its sensor, or one outside the tensor dies, is at the
emergency threshold; one point higher once the emergency is over (R521, R522). -/
def State.capStep (s : State) (d : Nat) : State :=
  let old := Table.get? s.pwr.caps d
  if s.flag PWR_STATUS F.PWR_STATUS_EMERG then
    if 2 ≤ s.levelOf d ∨ s.elsewhere 2 then
      s.setPwr { s.pwr with caps := Table.put s.pwr.caps d (min (old.getD 15) (s.opNow d) - 1) }
    else s
  else match old with
    | some c => s.setPwr { s.pwr with caps := if 15 ≤ c + 1 then Table.del s.pwr.caps d else Table.put s.pwr.caps d (c + 1) }
    | none => s

/-! ## The band -/

/-- The fixed point after R518: with best-effort work held and too little power the dies go one point per band toward OP9, and back to
FIXED_OP once P_allow allows it. -/
def State.fixedStep (s : State) (held : Bool) (enough : Bool) : State :=
  let cur := s.pwr.lowered.getD s.pwr.fixedOp
  if s.pwrMode ≠ 0 ∨ enough then (s.setPwr { s.pwr with lowered := none }).clrBit PWR_STATUS F.PWR_STATUS_FIXED_LEFT
  else if held ∧ 9 < cur then
    let s1 := (s.setPwr { s.pwr with lowered := some (cur - 1) }).setBit PWR_STATUS F.PWR_STATUS_FIXED_LEFT
    if s.pwr.lowered.isNone then s1.alarmPwr F.PWR_ALARM_FIXED_LEFT else s1
  else s

/-- The point a die asks for: FIXED_OP, or the highest boost point. -/
def State.requested (s : State) : Nat := if s.pwrMode = 0 then s.pwr.fixedOp else s.maxOp

/-- The point that power allows a die. -/
def State.powerPoint (s : State) (energies : List Nat) (allowW : Nat) (rail9 : Frac) (d : Nat) : Nat :=
  if s.pwrMode = 0 then s.pwr.lowered.getD s.pwr.fixedOp
  else
    let head := (⟨((allowW * 93 : Nat) : Int), 100⟩ : Frac).sub rail9
    s.fits energies d ((s.predict energies d 9).add (head.mul (s.shareOf d))) s.boostPoints

/-- A die gets its point: the lowest of what power, the thermal caps and the fast loop allow (R515 to R517, R521). -/
def State.setDie (s : State) (point d : Nat) : State :=
  let clamp := if s.flag PWR_STATUS F.PWR_STATUS_FAST_CLAMP then 9 else 15
  let k := min (min point clamp) (min (s.warnCap d) ((Table.get? s.pwr.caps d).getD 15))
  let s1 := if k < s.requested then s.count (PWR_TD_CAPPED d) else s
  s1.retarget d k

/-- What the meters and the input monitor show of the last band: input power and its average, P_allow, voltage, current, each die's
energy. How the average and the current are rounded the spec leaves open. -/
def State.meters (s : State) (inputW vin : Nat) (energies : List Nat) (allowW : Nat) (hist : List Nat) : State :=
  let avg := (hist.foldl (· + ·) 0 + (if s.anyBool then 159999 else 0)) / 160000
  let iin := if vin = 0 then s.anyNat else (inputW * 1000 + (if s.anyBool then vin - 1 else 0)) / vin
  let s1 := ((s.putFld PWR_STATUS F.PWR_STATUS_INPUT_W inputW).putFld PWR_STATUS F.PWR_STATUS_AVG_W avg).putFld PWR_STATUS
    F.PWR_STATUS_ALLOW_W allowW
  let s2 := (s1.putFld PWR_INPUT F.PWR_INPUT_VIN vin).putFld PWR_INPUT F.PWR_INPUT_IIN iin
  let s3 := (List.range 8).foldl (fun s d => s.count (PWR_TD_ENERGY d) (dieEnergy energies d)) s2
  (s3.setPwr { s3.pwr with energy := (List.range 48).foldl (fun l i =>
    Table.put l i ((Table.get? l i).getD 0 + (energies[i]?).getD 0)) s3.pwr.energy }).tookFree

/-- The phases as they stand. -/
def State.phasesNow (s : State) : List (Nat × Nat) := s.boot.chart.parts.map (fun p => (p.num, s.phase p.num))

/-- The band's place in its watch: bands start at every 25,000 ticks, and the phases are taken at tick 125,000 (R513). -/
def State.bandTime (s : State) : State :=
  let b := s.pwr.band
  let s1 := s.toTick (25000 * min b 9)
  s1.setPwr { s1.pwr with band := b + 1, phases := if b = 5 then some s.phasesNow else s1.pwr.phases }

/-- Best-effort work is held while P_allow lies below the prediction at OP9, until it is 2 % above it, and during a thermal emergency
(R509, R521). -/
def State.holdStep (s : State) (allowW : Nat) (rail9 : Frac) : State :=
  let have93 : Frac := ⟨((allowW * 93 : Nat) : Int), 100⟩
  let hold := s.flag PWR_STATUS F.PWR_STATUS_EMERG || !rail9.le have93
    || (s.flag PWR_STATUS F.PWR_STATUS_HOLD && !(rail9.mul ⟨102, 100⟩).le have93)
  let s1 := s.putFld PWR_STATUS F.PWR_STATUS_HOLD hold.toNat
  if hold then s1.count PWR_HOLD_BANDS else s1

/-- SEXTANT_BAND: the start of a band: the meters of the last one, P_allow, the hold, and each die's point (R508, R509, R515 to R518,
R521). -/
def execSextantBand (inputW vin : Nat) (energies : List Nat) (s : State) : Out :=
  if ¬ s.boot.powered ∨ s.log.final then .next s
  else
    let hist := (inputW :: s.pwr.hist).take 160000
    let allowW := s.allow hist
    let rail9 := s.railAt inputW energies 9
    let s1 := (s.bandTime.meters inputW vin energies allowW hist)
    let s2 := s1.setPwr { s1.pwr with hist := hist }
    if ¬ s.pwr.clocks then .next s2
    else
      let above := (List.range 8).any (fun d => decide (s.pwr.fixedOp < s.opNow d))
      let s3 := if above then s2.count PWR_BOOST_BANDS else s2
      let s4 := if inputW + 60 ≤ 5600 then s3.clrBit PWR_STATUS F.PWR_STATUS_FAST_CLAMP else s3
      let s5 := s4.holdStep allowW rail9
      let enough := (s.railAt inputW energies s.pwr.fixedOp).le ⟨((allowW * 93 : Nat) : Int), 100⟩
      let s6 := s5.fixedStep (s.flag PWR_STATUS F.PWR_STATUS_HOLD) enough
      let s7 := (List.range 8).foldl (fun s d => s.capStep d) s6
      .next ((List.range 8).foldl (fun s d => s.setDie (s6.powerPoint energies allowW rail9 d) d) s7)

/-! ## Thermal control -/

/-- The warning, emergency and trip thresholds of a sensor's component in degrees (R519): die numbers, 32 + n for HBM stacks, 48 + n for
flash stacks. -/
def thresholds (source : Nat) : Option (Nat × Nat × Nat) :=
  if source < 16 then some (95, 105, 115) else if source < 19 then some (90, 100, 110)
  else if 32 ≤ source ∧ source < 48 then some (90, 95, 105) else if 48 ≤ source ∧ source < 64 then some (75, 80, 90) else none

/-- How much THERM_LOWER_C lowers the warning thresholds: as it stood at the watch's start (R536). -/
def State.lowerWarn (s : State) : Nat := fget s.pwr.tune F.PWR_X_TUNE_THERM_LOWER_C

/-- How much it lowers the emergency thresholds, under R26 (R536). -/
def State.lowerEmerg (s : State) : Nat := s.xfld PWR_X_TUNE F.PWR_X_TUNE_THERM_LOWER_C

/-- The level of a temperature. -/
def State.tempLevel (s : State) (t : Nat × Nat × Nat) (temp : Nat) : Nat :=
  if t.2.2 ≤ temp then 3 else if t.2.1 - s.lowerEmerg ≤ temp then 2 else if t.1 - s.lowerWarn ≤ temp then 1 else 0

/-- Is a sensor within 5 degrees of its emergency threshold (R522)? -/
def State.isHot (s : State) (source temp : Nat) : Bool :=
  match thresholds source with | some t => decide (t.2.1 - s.lowerEmerg < temp + 5) | none => false

/-- PWR_TD_STATUS of a tensor die shows its hottest sensor. -/
def State.showTemp (s : State) (source temp level : Nat) : State :=
  if source < 8 then
    let k := PWR_TD_STATUS source
    ((s.putFld k F.PWR_TD_STATUS_TEMP_C temp).putFld k F.PWR_TD_STATUS_WARN (decide (1 ≤ level)).toNat).putFld k F.PWR_TD_STATUS_EMERG
      (decide (2 ≤ level)).toNat
  else s

/-- A sensor reaches a level it was below: the record, and what the levels it passes do (R521, R523). -/
def State.reach (s : State) (source temp before level : Nat) : State :=
  if level ≤ before then s
  else
    let s1 := s.putReg PWR_THERM_LAST (fset (fset (fset (fset 0 F.PWR_THERM_LAST_SOURCE source) F.PWR_THERM_LAST_TEMP_C temp)
      F.PWR_THERM_LAST_LEVEL level) F.PWR_THERM_LAST_VALID 1)
    let s2 := if before < 1 then s1.alarmPwr F.PWR_ALARM_THERMAL_WARN else s1
    let s3 := if before < 2 ∧ 2 ≤ level then
        let a := ((s2.alarmPwr F.PWR_ALARM_THERMAL_EMERGENCY).setBit PWR_STATUS F.PWR_STATUS_EMERG).setBit PWR_STATUS F.PWR_STATUS_HOLD
        a.setPwr { a.pwr with cool := 0 }
      else s2
    if level = 3 then
      let s4 := s3.keepEvent (blockSource 3) 0xFF 0xB02 s3.watch s3.tick [source, temp]
      (s4.setBoot { s4.boot with tripped := true }).powerLoss 2
    else s3

/-- THERMAL_SAMPLE: the Sextant reads a sensor (R519, R521, R523). -/
def execThermalSample (source temp : Nat) (s : State) : Out :=
  match thresholds source with
  | none => .next s
  | some t =>
    if ¬ s.boot.powered ∨ s.log.final then .next s
    else
      let level := s.tempLevel t temp
      let s1 := s.setPwr { s.pwr with temps := Table.put s.pwr.temps source temp, levels := Table.put s.pwr.levels source level,
                                      hot := s.pwr.hot || s.isHot source temp }
      .next ((s1.showTemp source temp level).reach source temp (s.levelOf source) level)

/-- EMERGENCY_END: every sensor has stayed at least 5 degrees below its emergency threshold for 16 watches (R522). -/
def execEmergencyEnd (s : State) : Out :=
  if s.flag PWR_STATUS F.PWR_STATUS_EMERG ∧ 16 ≤ s.pwr.cool then .next (s.clrBit PWR_STATUS F.PWR_STATUS_EMERG) else .next s

/-! ## The end of a watch -/

/-- The energy that a partition drew from a die in the watch: its clusters' domains and the uncore in proportion to its clusters of the
die's four (R514); which way a fraction rounds the spec leaves open. -/
def State.drawn (s : State) (p : PartDesc) (d : Nat) : Nat :=
  let e (i : Nat) : Nat := (Table.get? s.pwr.energy (6 * d + i)).getD 0
  let own := (List.range 4).foldl (fun n i => if p.clusters.testBit (4 * d + i) then n + e i else n) 0
  own + (e 4 * p.clustersOn d + (if s.anyBool then 3 else 0)) / 4

/-- LEARN_SHIFT in effect (R514, R534). -/
def State.learnShift (s : State) : Nat :=
  let v := fget s.pwr.tune F.PWR_X_TUNE_LEARN_SHIFT
  if v = 0 then 3 else min v 8

/-- One estimate takes the watch's sample (R514); which way a fraction rounds the spec leaves open. -/
def State.learnOne (s : State) (p : PartDesc) (k d : Nat) : State :=
  let (e, n) := s.estimate p.num k d
  let up : Int := if s.tookFree.anyBool then 2 ^ s.learnShift - 1 else 0
  let e1 := ((e : Int) + ((s.drawn p d : Int) - e + up) / 2 ^ s.learnShift).toNat
  (s.setPwr { s.pwr with est := Table.put s.pwr.est (estKey p.num k d) (e1, min (n + 1) 65535) }).tookFree.tookFree

/-- At the end of each watch in LEARN mode the estimates of the partitions' phases follow what they drew (R513, R514). -/
def State.learn (s : State) : State :=
  let phases := s.pwr.phases.getD s.phasesNow
  if s.pwrMode = 2 then
    s.boot.chart.parts.foldl (fun s p => (List.range 8).foldl (fun s d => s.learnOne p ((Table.get? phases p.num).getD 0) d) s) s
  else s

/-- A watch in which any die ran below OP9 is counted, and the first of a run of them raises the alarm (R521). -/
def State.belowPromise (s : State) : State :=
  if s.pwr.below then
    let s1 := s.count PWR_BELOW_PROMISE
    if s.pwr.wasBelow then s1 else s1.alarmPwr F.PWR_ALARM_BELOW_PROMISE
  else s

/-- What the Sextant does as one watch ends and the next starts (R514, R521, R522, R536). -/
def State.pwrWatch (s : State) : State :=
  let s1 := s.learn.belowPromise
  let hot := s1.pwr.temps.any (fun e => s1.isHot e.1 e.2)
  s1.setPwr { s1.pwr with
    band := 0, phases := none, energy := [], tune := if s1.expertOn PWR_X_TUNE then s1.reg PWR_X_TUNE else 0
    cool := if s1.pwr.hot then 0 else s1.pwr.cool + 1, hot := hot
    wasBelow := s1.pwr.below, below := s1.pwr.clocks && (List.range 8).any (fun d => decide (s1.opNow d < 9)) }

end Sys2Proof.Machine
end

