-- ==== Sys2Proof/Machine/Chart.lean ====
section
/-! DEFINITION. The Chart image and its ten checks (R543 to R549), licences (R554, R555), the factory default Chart (R551), and a Chart taking
effect (R221, R499, R550). -/
namespace Sys2Proof.Machine

/-! ## The image -/

/-- LENGTH of an image. -/
def imageLength (b : List Byte) : Nat := leAt b 16 4

/-- The section of a type: offset and bytes, from its entry in the table (R543). -/
def imageSection (b : List Byte) (type : Nat) : Option (Nat × Nat) :=
  ((List.range 6).find? (fun i => leAt b (32 + 12 * i) 2 = type)).map (fun i => (leAt b (36 + 12 * i) 4, leAt b (40 + 12 * i) 4))

/-- The offset of a section, and its bytes. -/
def secAt (b : List Byte) (type : Nat) : Nat × Nat := (imageSection b type).getD (0, 0)

/-- A PARTITIONS entry at an offset (R546). -/
def partDescAt (b : List Byte) (o : Nat) : PartDesc :=
  { num := byteOf b o, service := bit (byteOf b (o + 1)) 0, headless := bit (byteOf b (o + 1)) 1, controller := leAt b (o + 2) 2
    clusters := leAt b (o + 4) 4, harts := leAt b (o + 8) 12, buoyFirst := leAt b (o + 20) 2, buoyCount := leAt b (o + 22) 2
    shareW := leAt b (o + 24) 4, groups := byteOf b (o + 28), flipSets := leAt b (o + 32) 8, routes := leAt b (o + 40) 32
    quotas := (List.range 5).map (fun i => leAt b (o + 72 + 4 * i) 4) }

/-- A record of the LINKS section at an offset (R547). -/
def linkRecAt (b : List Byte) (o : Nat) : LinkRec :=
  let k := byteOf b o
  if k = 1 then ⟨k, byteOf b (o + 1), leAt b (o + 2) 2, byteOf b (o + 4), 0, 0⟩
  else if k = 2 then ⟨k, leAt b (o + 2) 2, leAt b (o + 4) 4, 0, 0, 0⟩
  else if k = 3 then ⟨k, byteOf b (o + 1), byteOf b (o + 2), byteOf b (o + 3), leAt b (o + 4) 2, leAt b (o + 6) 2⟩
  else if k = 4 then ⟨k, byteOf b (o + 1), leAt b (o + 2) 2, leAt b (o + 4) 2, 0, 0⟩
  else if k = 5 then ⟨k, leAt b (o + 2) 2, byteOf b (o + 4), 0, 0, 0⟩
  else ⟨k, byteOf b (o + 1), leAt b (o + 2) 2, 0, 0, 0⟩

/-- The offsets of n-byte entries that fill a section from a start. -/
def entryOffsets (o bytes start n : Nat) : List Nat := (List.range ((bytes - start) / n)).map (fun i => o + start + n * i)

/-- The Chart an image holds. -/
def chartOf (b : List Byte) : Chart :=
  let (po, pb) := secAt b 1
  let (eo, eb) := secAt b 2
  let (lo, lb) := secAt b 3
  let (wo, wb) := secAt b 4
  let (ko, _) := secAt b 5
  let (fo, _) := secAt b 6
  { serial := leAt b 20 4, device := leAt b 8 8
    parts := (entryOffsets po pb 0 128).map (partDescAt b)
    engines := (entryOffsets eo eb 0 8).map (fun o => ⟨leAt b o 2, byteOf b (o + 2), leAt b (o + 4) 4⟩)
    pkg := leAt b lo 2, role := byteOf b (lo + 2), parent := byteOf b (lo + 3), ports := leAt b (lo + 4) 4, half := leAt b (lo + 8) 4
    eth := byteOf b (lo + 12), links := (entryOffsets lo lb 16 8).map (linkRecAt b)
    resv := (List.range 6).map (fun i => byteOf b (wo + i))
    windows := (entryOffsets wo wb 8 8).map (fun o => ⟨leAt b o 2, byteOf b (o + 2), byteOf b (o + 3), byteOf b (o + 4)⟩)
    mode := byteOf b ko, fixedOp := byteOf b (ko + 1), capW := leAt b (ko + 2) 2
    request := leAt b fo 8, expertBlocks := leAt b (fo + 8) 8 }

/-! ## The checks of R549 -/

/-- Check 1: LENGTH in its range, within the bytes given, and the check word (R544). -/
def checkWord (b : List Byte) : Bool :=
  let n := imageLength b
  decide (240 ≤ n) && decide (n ≤ 4194304) && decide (n % 8 = 0) && decide (n ≤ b.length)
    && decide (crc64 (b.take (n - 8)) = leAt b (n - 8) 8)

/-- The chart-signing key that KEY_INDEX names, where its slot is installed (R613). -/
def State.chartKeyOf (s : State) (index : Nat) : Option (List Byte) :=
  if index < 4 ∧ (s.fld KPR_ID_INFO F.KPR_ID_INFO_CHART_KEYS).testBit index then
    (Table.get? s.boot.keys index).map Config.chartKey
  else none

/-- Check 2: the signature over the bytes before it (R543). -/
def State.checkSignature (s : State) (b : List Byte) : Bool :=
  let n := imageLength b
  match s.chartKeyOf (byteOf b 6) with
  | some key => Config.ecdsaVerify key (b.take (n - 104)) ((b.drop (n - 104)).take 96)
  | none => false

/-- Does a section have a size its type allows, in its place between the header and the signature (R545)? -/
def sectionOk (b : List Byte) (type : Nat) : Bool :=
  match imageSection b type with
  | none => false
  | some (o, n) => decide (o % 8 = 0) && decide (128 ≤ o) && decide (o + n ≤ imageLength b - 104) &&
      (if type = 1 then decide (n % 128 = 0 ∧ 128 ≤ n ∧ n ≤ 4096) else if type = 2 then decide (n % 8 = 0)
       else if type = 3 then decide (n % 8 = 0 ∧ 16 ≤ n) else if type = 4 then decide (n % 8 = 0 ∧ 8 ≤ n)
       else if type = 5 then decide (n = 8) else decide (n = 16))

/-- Is every byte between the header and the signature that lies in no section zero? -/
def gapsZero (b : List Byte) : Bool :=
  (List.range (imageLength b - 232)).all (fun i =>
    (List.range 6).any (fun t => let (o, n) := secAt b (t + 1); decide (o ≤ 128 + i) && decide (128 + i < o + n)) || byteOf b (128 + i) = 0)

/-- Do two of the sections overlap? -/
def sectionsOverlap (b : List Byte) : Bool :=
  (List.range 6).any (fun i => (List.range i).any (fun j =>
    let x := secAt b (i + 1)
    let y := secAt b (j + 1)
    decide (0 < x.2) && decide (0 < y.2) && overlaps x y))

/-- The field ranges and reserved bytes of a PARTITIONS entry. -/
def partForm (b : List Byte) (o : Nat) : Bool :=
  let d := partDescAt b o
  decide (d.num < 32) && decide (byteOf b (o + 1) < 4) && decide (d.controller < 4096) && (d.headless || decide (d.controller = 0))
    && decide (d.buoyCount ≤ 16384) && decide (d.groups < 16) && zerosAt b (o + 29) 3 && zerosAt b (o + 92) 36

/-- The field ranges and reserved bytes of a LINKS record. -/
def linkForm (b : List Byte) (o : Nat) : Bool :=
  let r := linkRecAt b o
  if r.kind = 1 then decide (r.a < 32) && decide (r.b < 4096) && decide (r.c < 32) && zerosAt b (o + 5) 3
  else if r.kind = 2 then decide (r.a < 4096) && zerosAt b (o + 1) 1
  else if r.kind = 3 then decide (r.a < 4) && decide (r.b < 32) && decide (1 ≤ r.d) && decide (r.d ≤ 256) && decide (r.c < r.d) && decide (r.e < 512)
  else if r.kind = 4 then decide (r.a < 4) && decide (r.b < 256) && decide (r.c < 4096) && zerosAt b (o + 6) 2
  else if r.kind = 5 then decide (r.a < 4096) && decide (r.b < 32) && zerosAt b (o + 1) 1 && zerosAt b (o + 5) 3
  else if r.kind = 6 then decide (r.a < 32) && decide (r.b < 4096) && zerosAt b (o + 4) 4
  else false

/-- Check 3: MAGIC, VERSION, the section table, every field range, and zero in what is reserved (R543, R545 to R547). -/
def checkFormat (b : List Byte) : Bool :=
  let c := chartOf b
  let (po, pb) := secAt b 1
  let (eo, eb) := secAt b 2
  let (lo, lb) := secAt b 3
  let (wo, wb) := secAt b 4
  let (ko, _) := secAt b 5
  decide (leAt b 0 4 = 0x54524843) && decide (leAt b 4 2 = 1) && decide (byteOf b 6 < 4) && decide (byteOf b 7 = 6)
    && (List.range 6).all (fun i => decide (1 ≤ leAt b (32 + 12 * i) 2 ∧ leAt b (32 + 12 * i) 2 ≤ 6) && zerosAt b (34 + 12 * i) 2)
    && zerosAt b 104 24 && (List.range 6).all (fun t => sectionOk b (t + 1)) && !sectionsOverlap b && gapsZero b
    && (entryOffsets po pb 0 128).all (partForm b) && (entryOffsets eo eb 0 8).all (fun o => zerosAt b (o + 3) 1)
    && decide (c.pkg < 4096) && decide (c.role ≤ 2) && (decide (c.parent < 32) || decide (c.parent = 0xFF)) && zerosAt b (lo + 13) 3
    && (entryOffsets lo lb 16 8).all (linkForm b) && zerosAt b (wo + 6) 2 && (entryOffsets wo wb 8 8).all (fun o => zerosAt b (o + 5) 3)
    && zerosAt b (ko + 4) 4 && decide (c.request < 32) && decide (c.expertBlocks < 2 ^ 44)

/-- Check 4: DEVICE names this device, or any. -/
def State.checkDevice (s : State) (c : Chart) : Bool := decide (c.device = 0) || decide (c.device = (s.reg KPR_ID_DEVICE).toNat)

/-- The stored licences whose binding tags verify (R555). -/
def State.goodLicences (s : State) : List Licence :=
  if s.flag KPR_ID_INFO F.KPR_ID_INFO_PROVISIONED then s.boot.licences.filter (fun l => l.tag = Config.hmacTag s.boot.identity l.image) else []

/-- The features in effect: the OR of FEATURES over those licences (R554, R555). -/
def State.licensed (s : State) : Nat := s.goodLicences.foldl (fun v l => v ||| leAt l.image 16 8 % 32) 0

/-- The expert blocks permitted, only with EXPERT in effect (R555). -/
def State.licensedBlocks (s : State) : Nat :=
  if s.licensed.testBit 4 then s.goodLicences.foldl (fun v l => v ||| leAt l.image 24 8) 0 else 0

/-- Are the bits of a mask all set in another? -/
def covered (mask by' : Nat) : Bool := mask &&& by' = mask

/-- Check 5: the licences cover what the Chart asks for (R549, R555, R556). -/
def State.checkLicence (s : State) (c : Chart) : Bool :=
  let f := s.licensed
  covered c.request f && (decide (c.parts.length ≤ 8) || f.testBit 0) && (decide (c.eth = 0) || f.testBit 3)
    && (decide (c.expertBlocks = 0) || f.testBit 4) && covered c.expertBlocks s.licensedBlocks

/-- How many partitions have a bit set in a mask of theirs. -/
def holders (c : Chart) (f : PartDesc → Nat) (i : Nat) : Nat := (c.parts.filter (fun d => (f d).testBit i)).length

/-- Check 6: partition numbers, clusters and harts (R39), headless partitions (R40), one coupled service partition. -/
def checkStructure (c : Chart) : Bool :=
  decide ((c.parts.map (·.num)).eraseDups.length = c.parts.length)
    && (List.range 32).all (fun i => decide (holders c (·.clusters) i = 1)) && c.parts.all (fun d => decide (d.clusters ≠ 0))
    && (List.range 96).all (fun i => decide (holders c (·.harts) i ≤ 1))
    && decide ((c.parts.filter (·.headless)).length ≤ 4) && c.parts.all (fun d => d.headless == decide (d.harts = 0))
    && c.parts.all (fun d => !d.headless || decide (d.controller ≠ 0))
    && (match c.parts.filter (·.service) with | [d] => !d.headless | _ => false)

/-- Do any two elements of a list stand in a relation? -/
def anyPair {α : Type} (f : α → α → Bool) : List α → Bool
  | [] => false
  | x :: l => l.any (f x) || anyPair f l

/-- Does the Chart define a partition? -/
def Chart.defines (c : Chart) (p : Nat) : Bool := c.parts.any (fun d => d.num = p)

/-- Check 7: buoys, flip sets, routes, groups, engines and windows. -/
def checkResources (c : Chart) : Bool :=
  c.parts.all (fun d => decide (d.buoyFirst + d.buoyCount ≤ 16384))
    && !anyPair (fun (a b : PartDesc) => decide (0 < a.buoyCount) && decide (0 < b.buoyCount) && overlaps (a.buoyFirst, a.buoyCount) (b.buoyFirst, b.buoyCount)) c.parts
    && (List.range 64).all (fun i => decide (holders c (·.flipSets) i ≤ 1)) && (List.range 256).all (fun i => decide (holders c (·.routes) i ≤ 1))
    && (List.range 4).all (fun i => decide (holders c (·.groups) i ≤ 1))
    && decide ((c.engines.map (·.engine)).eraseDups.length = c.engines.length)
    && c.engines.all (fun e => eExists e.engine && !eInCluster e.engine && (decide (e.holder = 0xFF) || c.defines e.holder)
        && (setBits e.sharers 32).all c.defines && (decide (e.holder ≠ 0xFF) || decide (e.sharers ≠ 0)))
    && c.windows.all (fun w => decide (1 ≤ w.count) && decide (w.gran + w.count ≤ 250)
        && c.engines.any (fun e => decide (e.engine = w.engine) && decide (e.holder = 0xFF) && e.sharers.testBit w.part))
    && !anyPair (fun (a b : WindowRec) => decide (a.engine = b.engine) && overlaps (a.gran, a.count) (b.gran, b.count)) c.windows

/-- Check 8: shares, mode, fixed point and limit (R511, R534). -/
def checkPower (c : Chart) : Bool :=
  decide (c.shareSum ≤ 2864) && decide (c.mode ≤ 2) && decide (9 ≤ c.fixedOp) && decide (c.fixedOp ≤ 12) && decide (3000 ≤ c.capW)
    && decide (c.capW ≤ 4800) && decide (c.capFloor ≤ c.capW)

/-- The records of a kind. -/
def Chart.recs (c : Chart) (kind : Nat) : List LinkRec := c.links.filter (fun r => r.kind = kind)

/-- Check 9: the timing parent, PORT records, route masks and groups. -/
def checkLinks (c : Chart) : Bool :=
  (decide (c.role ≠ 1) || (decide (c.parent < 32) && c.ports.testBit c.parent))
    && (List.range 32).all (fun i =>
        let n := ((c.recs 1).filter (fun r => r.a = i)).length
        (!c.ports.testBit i || decide (n = 1)) && (!(decide (i < 8) && c.eth.testBit i) || decide (n = 0)))
    && (c.recs 2).all (fun r => covered r.b c.ports)
    && (c.recs 3).all (fun r =>
        let ranks := (c.recs 4).filter (fun x => x.a = r.a)
        c.parts.any (fun d => decide (d.num = r.b) && d.groups.testBit r.a)
          && (List.range r.d).all (fun k => decide ((ranks.filter (fun x => x.b = k)).length = 1))
          && ranks.any (fun x => decide (x.b = r.c) && decide (x.c = c.pkg)))

/-- Check 10: every reservable percentage between 50 and 95. -/
def checkWatch (c : Chart) : Bool := c.resv.all (fun v => decide (50 ≤ v) && decide (v ≤ 95))

/-- The first check that fails, in table order; 0 for none (R549). -/
def State.verifyChart (s : State) (b : List Byte) : Nat :=
  let c := chartOf b
  if ¬ checkWord b then 1 else if ¬ s.checkSignature b then 2 else if ¬ checkFormat b then 3 else if ¬ s.checkDevice c then 4
  else if ¬ s.checkLicence c then 5 else if ¬ checkStructure c then 6 else if ¬ checkResources c then 7 else if ¬ checkPower c then 8
  else if ¬ checkLinks c then 9 else if ¬ checkWatch c then 10 else 0

/-! ## The factory default Chart (R551) -/

/-- Every engine outside the clusters. -/
def outerEngines : List Nat :=
  ((List.range 19).map (fun d => ((List.range 12).map (fun k =>
    ((List.range 16).map (fun i => eId d (k + 2) i)).filter eExists)).flatten)).flatten

/-- The factory default Chart. -/
def defaultChart : Chart :=
  { parts := [{ num := 0, service := true, headless := false, controller := 0, clusters := 2 ^ 32 - 1, harts := 2 ^ 96 - 1, buoyFirst := 0
                buoyCount := 16384, shareW := 2864, groups := 15, flipSets := 2 ^ 64 - 1, routes := 2 ^ 256 - 1
                quotas := [0xFFFFFFFF, 0xFFFFFFFF, 0xFFFFFFFF, 0xFFFFFFFF, 0xFFFFFFFF] }]
    engines := outerEngines.map (fun e => ⟨e, 0, 0⟩), resv := [90, 90, 90, 90, 90, 90], mode := 0, fixedOp := 9, capW := 4800 }

/-! ## Taking effect -/

/-- A group takes the values of its GROUP record at once, else SIZE 1 and zeros (R221). -/
def State.applyGroup (s : State) (c : Chart) (g : Nat) : State :=
  let v : GroupSet := match (c.recs 3).find? (fun r => r.a = g) with
    | some r => { size := r.d, rank := r.c, x := r.e }
    | none => {}
  let w := fset (fset (fset 0 F.COL_GRP_CFG_SIZE v.size) F.COL_GRP_CFG_RANK v.rank) F.COL_GRP_CFG_X v.x
  ((s.putReg (COL_GRP_CFG g) w).putGroup g { s.group g with now := v }).showGroup g

/-- A partition's quotas and share (R309, R550). -/
def State.applyPart (s : State) (d : PartDesc) : State :=
  let s1 := (List.range 4).foldl (fun s i => s.putFld (TMV_QUOTA d.num i) F.TMV_QUOTA_GIB ((d.quotas[i]?).getD 0)) s
  ((s1.putFld (TMV_FW_QUOTA d.num) F.TMV_FW_QUOTA_GIB ((d.quotas[4]?).getD 0)).putFld (WCH_PART_STATUS d.num) F.WCH_PART_STATUS_SHARE_W
    d.shareW).tierLevels d.num

/-- The registers that carry Chart values for a port: its rate, and Ethernet mode. -/
def State.applyPort (s : State) (c : Chart) (oe : Nat) : State :=
  let half := c.half.testBit oe
  let s1 := (s.putPort oe { s.port oe with half := half }).putFld (portCtrl oe) F.LNK_PORT_CTRL_HALF half.toNat
  if oe < 8 ∧ c.eth.testBit oe then s1.setBit (portStatus oe) F.LNK_PORT_STATUS_ETH else s1

/-- A verified Chart takes effect (R221, R499, R550): the registers that carry its values, the expert enables, T3 frames of partitions it
does not define are freed. The mode it brings takes effect as a write of PWR_MODE does. -/
def State.applyChart (s : State) (c : Chart) (source fail : Nat) : State :=
  let s1 := s.setBoot { s.boot with chart := c }
  let s2 := (List.range 4).foldl (fun s n => s.putFld (LNK_PKG n) F.LNK_PKG_PKG c.pkg) s1
  let s3 := (List.range 32).foldl (fun s oe => s.applyPort c oe) s2
  let s4 := if c.parent < 32 ∧ c.role = 1 then
      (s3.putFld (LNK_TIME_STATUS (c.parent / 8)) F.LNK_TIME_STATUS_PARENT c.parent).setBit (LNK_TIME_STATUS (c.parent / 8)) F.LNK_TIME_STATUS_VALID
    else s3
  let s5 := (List.range 4).foldl (fun s g => s.applyGroup c g) s4
  let s6 := c.parts.foldl (fun s d => s.applyPart d)
    (s5.setTiers { s5.tiers with frames := s5.tiers.frames.filter (fun f => !inFlash f.1 || c.defines f.2.part) })
  let s7 := ((s6.putFld WCH_TB_CTRL F.WCH_TB_CTRL_ROLE c.role).putReg WCH_RESV_PCT (BitVec.ofNat 64 (leNat (c.resv.map (BitVec.ofNat 8))))).putReg
    PWR_MODE (fset (fset 0 F.PWR_MODE_MODE c.mode) F.PWR_MODE_FIXED_OP c.fixedOp)
  let s8 := ((s7.putFld PWR_CAP F.PWR_CAP_CAP_W c.capW).putFld CHT_FEATURES F.CHT_FEATURES_FEATURES s.licensed).putFld CHT_EXPERT_EN
    F.CHT_EXPERT_EN_EN c.expertBlocks
  let s9 := s8.setPwr { s8.pwr with modeWatch := some s8.watch, est := [] }
  ((s9.putFld CHT_STATUS F.CHT_STATUS_IN_EFFECT source).putFld CHT_STATUS F.CHT_STATUS_BOOT_FAIL fail).putFld CHT_STATUS F.CHT_STATUS_SERIAL
    (if source = 2 then 0 else c.serial)

end Sys2Proof.Machine
end

