-- ==== Sys2Proof/Machine/Hbm.lean ====
section
/-! DEFINITION. The HBM controllers: bands and classes (R345 to R349), errors, weak rows and the repair list (R352 to R358), refresh
and scrub (R356, R357). -/
namespace Sys2Proof.Machine

/-- A stack's controller. -/
def State.stack (s : State) (n : Nat) : HbmStack := (Table.get? s.hbm n).getD {}

/-- A stack's controller changed. -/
def State.putStack (s : State) (n : Nat) (x : HbmStack) : State := s.setHbm (Table.put s.hbm n x)

/-- The stack share S of a band in bytes: one sixteenth of WCH_CAP_MEM.HBM (R346). -/
def State.stackShare (s : State) : Nat := s.fld WCH_CAP_MEM F.WCH_CAP_MEM_HBM / 16 * 1024

/-- The LC budget of a stack per band in bytes, by the settings as they stand (R347, R362). -/
def State.lcBudget (s : State) (n : Nat) : Nat :=
  let x := s.xfld (HBM_X_TUNE n) F.HBM_X_TUNE_LC_PCT
  let l := if x = 0 then min 10 (s.fld (HBM_CFG n) F.HBM_CFG_LC_PCT) else min 97 x
  let p := s.reservable 0
  s.fld WCH_CAP_MEM F.WCH_CAP_MEM_HBM / 16 * min l (97 - p) / 100 * 1024

/-- HBM_BAND_START: each controller's counts begin anew, and the budget follows the settings (R346, R363). -/
def execHbmBandStart (n : Nat) (s : State) : Out :=
  if 16 ≤ n then .next s
  else .next (s.putStack n { s.stack n with maint := 0, lc := 0, gr := 0, be := 0, budget := s.lcBudget n })

/-- Bytes as the controller counts them: a narrow access transfers 32 (R346, R350). -/
def transferred (addr n : Nat) : Nat := if n ≤ 32 ∧ addr % 32 + n ≤ 32 then 32 else n

/-- HBM_QUEUE_ADMIT: a request of a class (0 MAINT, 1 LC, 2 GR, 3 BE) asks to be taken. MAINT and LC have their shares; LC beyond its
budget, and BE, are taken where the band's other traffic leaves room, which a free bit says beside the bytes counted here;
otherwise the requester waits (R346 to R348, log entry 30). -/
def execHbmQueueAdmit (n cls : Nat) (write : Bool) (addr bytes : Nat) (s : State) : Out :=
  if 16 ≤ n then .next s
  else
    let x := s.stack n
    let b := transferred addr bytes
    let room := decide (x.maint + x.lc + x.gr + x.be + b ≤ s.stackShare) && s.anyBool
    let y := { x with waiting := x.waiting.erase (cls, write, addr, bytes) }
    let held := { y with waiting := y.waiting ++ [(cls, write, addr, bytes)] }
    if cls = 0 then .next (s.putStack n (if x.maint + b ≤ s.stackShare * 3 / 100 then { y with maint := x.maint + b } else held))
    else if cls = 2 then .next (s.putStack n { y with gr := x.gr + b })
    else if cls = 1 ∧ x.lc + b ≤ x.budget then .next ((s.putStack n { y with lc := x.lc + b }).count (HBM_LC_BYTES n) b)
    else if room then .next (s.putStack n (if cls = 1 then { y with lc := x.lc + b } else { y with be := x.be + b })).tookFree
    else .next (s.putStack n held).tookFree

/-- HBM_REFRESH: the refresh rate follows the temperature the stack reports: doubled at 85 degrees and above, or while
REFRESH_2X is set (R356). -/
def execHbmRefresh (n temp : Nat) (s : State) : Out :=
  if 16 ≤ n then .next s
  else
    let twice := decide (85 ≤ temp) || decide (s.xfld (HBM_X_TUNE n) F.HBM_X_TUNE_REFRESH_2X = 1)
    .next ((s.putFld (HBM_STATUS n) F.HBM_STATUS_TEMP_C temp).putFld (HBM_STATUS n) F.HBM_STATUS_REFRESH_2X twice.toNat)

/-! ## Errors -/

/-- CE_THRESH in effect: 0 acts as 4 (R362). -/
def State.ceThresh (s : State) (n : Nat) : Nat := orElse (s.fld (HBM_CFG n) F.HBM_CFG_CE_THRESH) 4

/-- A weak row joins the repair list, which holds 1,024 rows; a row already on it is not added again (R358). -/
def State.weakRow (s : State) (n row : Nat) : State :=
  let x := s.stack n
  if x.repair.contains row then s
  else if 1024 ≤ x.repair.length then s.alarmHbm n F.HBM_ALARM_HBM_REPAIR_LIST_FULL
  else ((s.putStack n { x with repair := x.repair ++ [row] }).putFld (HBM_REPAIR n) F.HBM_REPAIR_PENDING (x.repair.length + 1)).alarmHbm n
    F.HBM_ALARM_HBM_ROW_WEAK

/-- The record of an error (R362): kinds 1 corrected on access, 2 uncorrectable, 3 corrected by scrub. -/
def hbmRecord (off kind die : Nat) : Word :=
  fset (fset (fset (fset (fset 0 F.HBM_ERR_LAST_OFFSET_LO (bits off 31 5)) F.HBM_ERR_LAST_OFFSET_HI (bits off 36 32))
    F.HBM_ERR_LAST_KIND kind) F.HBM_ERR_LAST_SOURCE_DIE die) F.HBM_ERR_LAST_VALID 1

/-- A corrected error of a granule: counted, recorded, logged, and written back; a row that gathers CE_THRESH of them within a
scrub period is weak (R352, R358). -/
def State.hbmCorrected (s : State) (n off kind die : Nat) : State :=
  let row := Config.hbmRow off
  let k := (Table.get? (s.stack n).rows row).getD 0 + 1
  let s1 := ((s.count (HBM_CE n)).putReg (HBM_ERR_LAST n) (hbmRecord off kind die)).count (HBM_WR_BYTES n) 32
  let s2 := if s1.flag (HBM_CFG n) F.HBM_CFG_ERR_EVENT then s1.blockEvent (14 + n) 0xFF 0x401 [hbmAddress n off, die, n] else s1
  let s3 := s2.putStack n { s2.stack n with rows := Table.put (s2.stack n).rows row k }
  if s.ceThresh n ≤ k then s3.weakRow n row else s3

/-- An error that cannot be corrected: the granule is written back poisoned, counted, recorded and logged, and its row is weak
(R353, R358). -/
def State.hbmUncorrectable (s : State) (n off die : Nat) : State :=
  let pa := hbmAddress n off
  let s1 := (s.setPoison (enter (pa - pa % 32) s.poison)).count (HBM_UE n)
  let s2 := ((s1.putReg (HBM_ERR_LAST n) (hbmRecord off 2 die)).alarmHbm n F.HBM_ALARM_HBM_UNCORRECTABLE).count (HBM_WR_BYTES n) 32
  (s2.blockEvent (14 + n) 0xFF 0x402 [pa, die, n]).weakRow n (Config.hbmRow off)

/-- The error, if any, that a read of a granule meets. -/
def State.hbmError (s : State) (n off kind die : Nat) (ecc : Ecc) : State :=
  match ecc with
  | .clean => s
  | .correctable => s.hbmCorrected n off kind die
  | .uncorrectable => s.hbmUncorrectable n off die

/-- The granules of a stack. -/
def stackGranules : Nat := hbmBytes / 16 / 32

/-- HBM_SCRUB: the patrol reads a granule as MAINT traffic; after the last one of a pass a new scrub period begins (R357). -/
def execHbmScrub (n off : Nat) (ecc : Ecc) (s : State) : Out :=
  if 16 ≤ n ∨ hbmBytes / 16 ≤ off then .next s
  else
    let x := s.stack n
    let pass := x.scrubbed + 1
    let s1 := (s.putStack n { x with maint := x.maint + 32, scrubbed := pass % stackGranules }).count (HBM_RD_BYTES n) 32
    let s2 := (s1.putFld (HBM_STATUS n) F.HBM_STATUS_SCRUB_PCT (pass * 100 / stackGranules)).hbmError n (off - off % 32) 3 18 ecc
    if pass = stackGranules then .next (s2.putStack n { s2.stack n with rows := [] }) else .next s2

end Sys2Proof.Machine
end

