-- ==== Sys2Proof/Machine/Boot.lean ====
section
/-! DEFINITION. Power-up, power-down and their failures (R525 to R533, R596, R599), the six boot stages (R537 to R541, R556 to R561), and the
package resets that restart them (R8, R605). -/
namespace Sys2Proof.Machine

/-! ## Power domains (R498) -/

/-- The domains that are on, as a mask. -/
def State.domains (s : State) : Nat := (s.reg PWR_DOM_ON0).toNat + s.fld PWR_DOM_ON1 F.PWR_DOM_ON1_ON * 2 ^ 64

/-- The domains that are on, set. -/
def State.setDomains (s : State) (mask : Nat) : State :=
  (s.putReg PWR_DOM_ON0 (BitVec.ofNat 64 mask)).putFld PWR_DOM_ON1 F.PWR_DOM_ON1_ON (mask / 2 ^ 64)

/-- A mask of domains from a list. -/
def domainMask (l : List Nat) : Nat := l.foldl (fun m i => m ||| 2 ^ i) 0

/-- Domains switched on, which ends their discharge. -/
def State.switchOn (s : State) (l : List Nat) : State :=
  (s.setBoot { s.boot with discharge := s.boot.discharge.filter (fun i => !l.contains i) }).setDomains (s.domains ||| domainMask l)

/-- Is a domain on? -/
def State.domainOn (s : State) (i : Nat) : Bool := s.domains.testBit i

/-- The domains that the power-up sequence switches on before the boot's later stages: Keeper, timebase, spine; uncores, SRAM retention,
link logic, intake and flash; HBM and DRAM PHYs (R527). -/
def upDomains : List Nat :=
  [92, 95, 93, 94] ++ (List.range 8).map (6 * · + 4) ++ (List.range 8).map (6 * · + 5) ++ [52, 58, 77, 79, 81, 83] ++ (List.range 8).map (84 + ·)
    ++ (List.range 16).map (60 + ·) ++ [53, 59]

/-- The optics groups of link dies on which the Chart names a port or an Ethernet engine (R499). -/
def State.opticsDomains (s : State) : List Nat :=
  ((List.range 4).filter (fun n => s.boot.chart.ports >>> (8 * n) % 256 ≠ 0 || (n = 0 && s.boot.chart.eth ≠ 0))).map (fun n => 76 + 2 * n)

/-- The host core groups with a hart in some partition (R499). -/
def State.hostDomains (s : State) : List Nat :=
  ((List.range 8).filter (fun g => s.boot.chart.parts.any (fun d => d.harts >>> (12 * g) % 4096 ≠ 0))).map (fun g => 48 + 6 * (g / 4) + g % 4)

/-- The cluster domains. -/
def clusterDomains : List Nat := (List.range 32).map (fun c => 6 * (c / 4) + c % 4)

/-- The die a rail feeds (R498); the spine's rails feed none, and a stack's rail its tensor die. -/
def railDie (r : Nat) : Option Nat :=
  if r < 48 then some (r / 6) else if r < 60 then some (8 + (r - 48) / 6) else if r < 76 then some ((r - 60) / 2)
  else if r < 84 then some (10 + (r - 76) / 2) else if r < 88 then some (14 + (r - 84) / 2) else if r < 92 then some (16 + (r - 88) / 2)
  else if r = 92 ∨ r = 95 then some 18 else none

/-! ## Saved settings (R540, R541) -/

/-- The settings records: ports by 2 x optical engine + rate, HBM stacks from 100, the die-to-die modules of a die from 200, host DRAM
channels from 300, root ports from 400. -/
def moduleKeys : List Nat := (List.range 19).map (200 + ·)

/-- The records of the dies and stacks that a rail feeds. -/
def railKeys (r : Nat) : List Nat :=
  if 60 ≤ r ∧ r < 76 then [40 + r]
  else match railDie r with
    | some d =>
      (200 + d) :: (if 8 ≤ d ∧ d < 10 then (List.range 8).map (fun c => 300 + 8 * (d - 8) + c) ++ (List.range 4).map (fun p => 400 + 4 * (d - 8) + p)
        else if 10 ≤ d ∧ d < 14 then (List.range 16).map (fun k => 16 * (d - 10) + k) else [])
    | none => []

/-- Components that train: in full where one has no valid record or FORCE_FULL holds; a record stands for each afterwards. -/
def State.trainAll (s : State) (keys : List Nat) : State × Bool :=
  (s.setBoot { s.boot with saved := keys.foldl (fun l k => enter k l) s.boot.saved },
   decide (s.boot.xboot % 2 = 1) || keys.any (fun k => !s.boot.saved.contains k))

/-! ## On and off -/

/-- The sequencer brings the package up from package reset (R8, R527). -/
def State.energize (s : State) (attempt : Nat) : State :=
  let s1 := s.packageReset
  (s1.setBoot { s1.boot with powered := true, attempt := attempt, discharge := [] }).setDomains (domainMask upDomains)

/-- Everything goes off but the domains kept: volatile content is lost, the other rails discharge (R528, R532). -/
def State.goDark (s : State) (keep : List Nat) : State :=
  let s1 := s.flashLoss.dropVolatile
  let s2 := s1.setBoot { s1.boot with powered := false, pwrOk := false, discharge := (List.range 96).filter (fun i => !keep.contains i) }
  (s2.setPwr {}).setDomains (domainMask keep)

/-- POWER_DOWN: 100 us after the warning the domains go off in reverse order. A loss of reference alone keeps 92 and 95 on (R528, R599). -/
def execPowerDown (s : State) : Out :=
  if s.boot.powered ∧ s.log.final then .next (s.goDark (if s.boot.refLost ∧ ¬ s.boot.inputLost then [92, 95] else []))
  else .next s

/-- INPUT_BELOW_DROPOUT: hardware discharges every rail by itself (R526). -/
def execInputBelowDropout (s : State) : Out :=
  let s1 := if s.boot.powered then s.goDark [] else s.setDomains 0
  .next (s1.setBoot { s1.boot with discharge := List.range 96, inputLost := true })

/-- What a rail fault leaves (R533): RAIL_FAULT in the Logbook, which R533 asks for whenever it occurs, PWR_RAIL_LAST, and the rail for
the next power-up. when: 1 power-up, 2 power-down, 3 running. -/
def State.railRecord (s : State) (rail when' : Nat) : State :=
  let final := s.log.final
  let s1 := (s.setLog { s.log with final := false }).keepEvent (blockSource 3) 0xFF 0xB01 s.watch s.tick [rail]
  let s2 := s1.setLog { s1.log with final := final }
  (s2.putReg PWR_RAIL_LAST (fset (fset (fset 0 F.PWR_RAIL_LAST_RAIL rail) F.PWR_RAIL_LAST_WHEN when') F.PWR_RAIL_LAST_VALID 1)).setBoot
    { s2.boot with rails := rail :: s2.boot.rails }

/-- KPR_BOOT_STATUS shows a failure (R538). -/
def State.showFailure (s : State) (die : Option Nat) (cause : Nat) : State :=
  let s1 := match die with | some d => s.putFld KPR_BOOT_STATUS F.KPR_BOOT_STATUS_FAIL_DIE d | none => s
  (s1.setBit KPR_BOOT_STATUS F.KPR_BOOT_STATUS_FAILED).putFld KPR_BOOT_STATUS F.KPR_BOOT_STATUS_FAIL_CAUSE cause

/-- A rail fails during power-up: power-down runs; one more attempt follows, and after the second the package stays off (R533). -/
def State.powerUpFailed (s : State) (rail : Nat) : State :=
  let s1 := ((s.railRecord rail 1).showFailure (railDie rail) 3).goDark []
  s1.setBoot { s1.boot with attempt := if s.boot.attempt = 2 then 3 else 1, endCause := 8 }

/-- POWER_UP: the input has stayed above 44 V for 10 ms (R525, R527). Without the reference the restart waits for it (R599). -/
def execPowerUp (fail : Option Nat) (s : State) : Out :=
  if s.boot.powered then .next s
  else
    let s1 := s.setBoot { s.boot with inputLost := false, attempt := 0 }
    if s1.boot.refLost then .next s1
    else match fail with
      | none => .next (s1.energize 0)
      | some rail => .next (s1.powerUpFailed rail)

/-- POWER_UP_RETRY: one second after a failed attempt the sequencer tries once more (R533). -/
def execPowerUpRetry (s : State) : Out :=
  if ¬ s.boot.powered ∧ s.boot.attempt = 1 ∧ ¬ s.boot.inputLost ∧ ¬ s.boot.refLost then .next (s.energize 2) else .next s

/-- Did the power-loss path bring the package down for a cause after which it comes up by itself: not a thermal trip (R523, R531)? -/
def State.restarts (s : State) : Bool :=
  !s.boot.powered && !s.boot.tripped && decide (s.boot.attempt = 0) && decide (1 ≤ s.boot.endCause) && decide (s.boot.endCause ≤ 5)

/-- POWER_RESTORE: the input has stayed above 44 V for 1 s after the path (R531, R599). -/
def execPowerRestore (s : State) : Out :=
  if s.restarts then
    let s1 := s.setBoot { s.boot with inputLost := false }
    if s.boot.refLost then .next s1 else .next (s1.energize 0)
  else .next s

/-- REFCLK_RESTORE: the reference has stayed within range for 1 s (R599). -/
def execRefclkRestore (s : State) : Out :=
  if s.boot.refLost then
    let s1 := s.setBoot { s.boot with refLost := false }
    if s.restarts ∧ ¬ s.boot.inputLost then .next (s1.energize 0) else .next s1
  else .next s

/-- Does a boot stand at a stage, free to run it? -/
def State.atStage (s : State) (n : Nat) : Bool :=
  s.boot.powered && !s.log.final && !s.boot.recovery && !s.boot.halted && !s.flag KPR_BOOT_STATUS F.KPR_BOOT_STATUS_FAILED
    && decide (s.fld KPR_BOOT_STATUS F.KPR_BOOT_STATUS_STAGE = n)

/-- RAIL_FAULT: a rail fails while the package boots, which is power-up, or during power-down, which goes on (R533). -/
def execRailFault (rail : Nat) (s : State) : Out :=
  if 96 ≤ rail then .next s
  else if (List.range 6).any (fun i => s.atStage (i + 1)) then .next (s.powerUpFailed rail)
  else if s.log.final ∨ (¬ s.boot.powered ∧ s.boot.discharge ≠ []) then .next (s.railRecord rail 2)
  else .next s

/-- RAIL_OUT_OF_WINDOW: a running rail leaves its window: RAIL_FAULT, and the power-loss path as if a warning had occurred (R533). -/
def execRailOutOfWindow (rail : Nat) (s : State) : Out :=
  if s.boot.powered ∧ ¬ s.log.final ∧ rail < 96 then .next ((s.railRecord rail 3).powerLoss 3) else .next s

/-- POWER_FAIL_WARNING: the input is below 42.0 V for 1 us (R529, R530). -/
def execPowerFailWarning (s : State) : Out :=
  let s1 := s.powerLoss 1
  .next (s1.setBoot { s1.boot with inputLost := true })

/-- OVER_VOLTAGE: the input stays above 58 V for 10 us: the path as if a warning had occurred (R596). -/
def execOverVoltage (s : State) : Out :=
  let s1 := s.powerLoss 4
  .next (s1.setBoot { s1.boot with inputLost := true })

/-- A Logbook record of the Keeper (class 13). -/
def State.keeperRecord (s : State) (code : Nat) (args : List Nat) : State := s.keepEvent (blockSource 0) 0xFF code s.watch s.tick args

/-- REFCLK_LOSS: the reference is gone: the path, and FAILED with cause 4 and a record, written before the path so that the FINAL record is
the last (R587, R599). A path that already runs is not run again. -/
def execRefclkLoss (s : State) : Out :=
  let s1 := s.setBoot { s.boot with refLost := true }
  if s.boot.powered ∧ ¬ s.log.final then .next (((s1.showFailure none 4).keeperRecord 0xD04 [4]).powerLoss 5) else .next s1

/-! ## Package reset with power present -/

/-- A package reset that power outlasts: accepted T3 writes become durable first (R329); the domains stay as they are until stage 2. -/
def State.warmReset (s : State) (cause : Nat) : State :=
  let s1 := (s.flashDurable).setBoot { s.boot with endCause := cause }
  (s1.packageReset).setDomains s.domains

/-- SYS_RESET: the board has held SYS_RESET_N low for 1 ms. The power-loss path takes precedence (R605). -/
def execSysReset (ms : Nat) (s : State) : Out :=
  if 1 ≤ ms ∧ s.boot.powered ∧ ¬ s.log.final then .next (s.warmReset 6) else .next s

/-! ## Boot stages -/

/-- The boot ends: FAILED with the die and the cause, a record, and every domain off but 92 and 95 (R538). -/
def State.bootFailed (s : State) (die cause : Nat) : State :=
  let s1 := ((s.showFailure (some die) cause).keeperRecord 0xD04 [cause]).setDomains (domainMask [92, 95])
  (s1.setBoot { s1.boot with pwrOk := false }).setPwr { s1.pwr with clocks := false }

/-- A stage is done: its time counts, and the next one runs unless STAGE_HOLD halts the boot here (R537, R563, R564). -/
def State.stageDone (s : State) (n ms : Nat) (full : Bool) : State :=
  let s1 := s.putFld KPR_BOOT_MS F.KPR_BOOT_MS_MS (s.fld KPR_BOOT_MS F.KPR_BOOT_MS_MS + ms)
  let s2 := if full then s1.setBit KPR_BOOT_STATUS F.KPR_BOOT_STATUS_FULL else s1
  let s3 := s2.putFld KPR_BOOT_STATUS F.KPR_BOOT_STATUS_STAGE (n + 1)
  if s.boot.xboot / 2 % 8 = n ∧ n < 6 then (s3.setBoot { s3.boot with halted := true }).keeperRecord 0xD03 [n] else s3

/-! ### Stage 1 -/

/-- The identity key, the flash keys and the binding tags are overwritten, and the flash layer discards every mapping and frees every T3
frame (R335, R560). -/
def State.eraseSecrets (s : State) : State :=
  let s1 := s.clrBit KPR_ID_INFO F.KPR_ID_INFO_PROVISIONED
  let s2 := s1.setBoot { s1.boot with licences := s1.boot.licences.map (fun l => { l with tag := [] }) }
  let s3 := (s2.setMem (s2.mem.filter (fun c => !inFlash c.1))).setPoison (s2.poison.filter (fun g => !inFlash g))
  let s4 := (s3.setTiers { s3.tiers with frames := s3.tiers.frames.filter (fun f => !inFlash f.1) }).setFlash
    { s3.flash with accepted := [], stripe := 0, full := 0, cache := 0, double := none, clean := [] }
  ((s4.setBit DFT_STATUS F.DFT_STATUS_NO_KEYS).putFld DFT_STATUS F.DFT_STATUS_USER_TIB 0).putFld DFT_STATUS F.DFT_STATUS_CACHE_MIB 0

/-- The erasure completes: DEBUG_OPENED in the Logbook, ERASE_PENDING clear, DEBUG_OPENED set (R560). -/
def State.eraseDone (s : State) : State :=
  ((s.eraseSecrets.keeperRecord 0xD01 [0]).clrBit KPR_ID_INFO F.KPR_ID_INFO_ERASE_PENDING).setBit KPR_ID_INFO F.KPR_ID_INFO_DEBUG_OPENED

/-- The check of a voltage table (R501). -/
def vtableOk (d : Nat) : Bool :=
  let e (k : Nat) : Nat := (Config.fuseVoltage d k).toNat
  decide (crc32c (((List.range 16).map (fun k => leBytes 2 (e k))).flatten) = (Config.fuseCheck d).toNat)
    && (List.range 16).all (fun k => decide (550 ≤ e k) && decide (e k ≤ 1100)) && (List.range 15).all (fun k => decide (e k ≤ e (k + 1)))

/-- A die's voltage table is loaded: its fuses', or the factory table with the alarm and the die's settings invalid (R501, R502, R541). -/
def State.loadVtable (s : State) (d : Nat) : State :=
  let ok := vtableOk d
  let v (k : Nat) : Nat := if ok then (Config.fuseVoltage d k).toNat else 640 + 27 * k
  let s1 := (List.range 4).foldl (fun s i => s.putReg (PWR_TD_VTABLE d i)
    (BitVec.ofNat 64 (v (4 * i) + v (4 * i + 1) * 2 ^ 16 + v (4 * i + 2) * 2 ^ 32 + v (4 * i + 3) * 2 ^ 48))) s
  if ok then s1
  else ((s1.setBoot { s1.boot with invalid := enter (200 + d) s1.boot.invalid }).setBit (PWR_TD_STATUS d) F.PWR_TD_STATUS_FALLBACK).alarmPwr
    F.PWR_ALARM_VTABLE_FALLBACK

/-- A logical matrix engine of a die stands on a physical one; a spare is one that the fuse map left unassigned. -/
def State.mapEngine (s : State) (d i phys : Nat) : State :=
  let k := if i < 8 then TD_ME_MAP0 d else TD_ME_MAP1 d
  let retired := decide ((s.unit (eId d 0 (32 + phys))).state = 2)
  let byte := phys + (if 16 ≤ phys then 64 else 0) + (if retired then 128 else 0)
  ((s.putFld (TD_ME_STATUS d i) F.TD_ME_STATUS_PHYS phys).putFld (TD_ME_STATUS d i) F.TD_ME_STATUS_RETIRED (if retired then 1 else 0)).putFld k
    ⟨8 * (i % 8) + 7, 8 * (i % 8)⟩ byte

/-- The spares of a die still unassigned: physical engines 16 and 17, not standing in and not defective (R557, R575). -/
def State.sparesLeft (s : State) (d : Nat) : List Nat :=
  [16, 17].filter (fun x => !s.boot.spares.any (fun a => decide (a.1 = d) && decide (a.2.2 = x)) && decide ((s.unit (eId d 0 (32 + x))).state < 2))

/-- The physical engine behind a logical one: the latest spare assignment, else the fuse map's. -/
def State.physOf (s : State) (d i : Nat) : Nat :=
  match s.boot.spares.find? (fun a => decide (a.1 = d) && decide (a.2.1 = i)) with | some a => a.2.2 | none => i

/-- The spare map of a die is applied over the fuse map; with a failed check word the fuse map stands alone, the states kept in the map are
lost, a record is written, and every engine of the die is due (R557). -/
def State.loadSpares (s : State) (ok : Bool) (d : Nat) : State :=
  let s1 := if ok then s else
    let a := s.setBoot { s.boot with spares := s.boot.spares.filter (fun a => a.1 ≠ d) }
    let due : List (Nat × FtUnit) := (List.range 18).map (fun i => (eId d 0 (32 + i), { due := true }))
    (a.setFt { a.ft with units := due.foldl (fun l u => Table.put l u.1 u.2) (a.ft.units.filter (fun u => !(decide (eDie u.1 = d) && decide (eKind u.1 = 0)))),
                         unavailable := a.ft.unavailable.filter (fun e => !(decide (eDie e = d) && decide (eKind e = 0))) }).keeperRecord 0xD02 [d]
  ((List.range 16).foldl (fun s i => s.mapEngine d i (s.physOf d i)) s1).putFld (TD_ME_SPARES d) F.TD_ME_SPARES_LEFT (s1.sparesLeft d).length

/-- Firmware's alarms of what ended the last time: a rail fault, a trip, a warning (R523, R531, R533). -/
def State.previousAlarms (s : State) : State :=
  let s1 := if s.boot.rails ≠ [] then s.alarmPwr F.PWR_ALARM_RAIL_FAULT_PREV else s
  let s2 := if s.boot.tripped then s1.alarmPwr F.PWR_ALARM_THERMAL_TRIP_PREV else s1
  if s.boot.endCause = 1 ∨ s.boot.endCause = 3 ∨ s.boot.endCause = 4 then s2.alarmPwr F.PWR_ALARM_POWER_FAIL_PREV else s2

/-- Invalidations of saved settings take effect at this boot (R541). -/
def State.dropSettings (s : State) : State :=
  let gone := (s.boot.rails.map railKeys).flatten ++ s.boot.invalid
  let keep := if s.boot.invalidAll ∨ s.boot.xboot % 2 = 1 then [] else s.boot.saved.filter (fun k => !gone.contains k)
  s.setBoot { s.boot with saved := keep, invalid := [], invalidAll := false }

/-- STAGE_KEEPER: an interrupted erasure first; BOOTS and the BOOT record; the firmware copy that verifies (bit 0 copy 1, bit 1 copy 2), or
recovery; settings, voltage tables, fuse and spare maps (bit d: die d's map verifies) (R537, R539, R541, R557, R561, R587). -/
def execStageKeeper (copies spareOk ms : Nat) (s : State) : Out :=
  if ¬ s.atStage 1 then .next s
  else
    let s0 := s.setLog { s.log with boots := s.log.boots + 1 }
    let s1 := if s.flag KPR_ID_INFO F.KPR_ID_INFO_ERASE_PENDING then s0.eraseDone else s0
    let s2 := s1.logRecord 7 0xFF (blockSource 0) 0 s1.watch s1.tick [s.boot.lastStatus, Config.endCode s.boot.endCause]
    if copies % 4 = 0 then .next (s2.setBoot { s2.boot with recovery := true })
    else
      let s3 := s2.dropSettings.previousAlarms
      let s4 := s3.setBoot { s3.boot with firmware := if copies % 2 = 1 then 1 else 2, rails := [], tripped := false, endCause := 0 }
      let s5 := (List.range 8).foldl (fun s d => (s.loadVtable d).loadSpares (spareOk.testBit d) d) s4
      .next ((s5.putFld CHT_STATUS F.CHT_STATUS_SELECTED s5.boot.selected).countUnits.stageDone 1 ms false)

/-! ### Stage 2 -/

/-- The image of a slot. -/
def State.slotImage (s : State) (slot : Nat) : List Byte := if slot = 0 then s.boot.slotA else s.boot.slotB

/-- The register of a slot. -/
def slotReg (slot : Nat) : Nat := if slot = 0 then CHT_SLOT_A else CHT_SLOT_B

/-- Is a slot PRESENT? -/
def State.slotPresent (s : State) (slot : Nat) : Bool := s.flag (slotReg slot) F.CHT_SLOT_A_PRESENT

/-- The domains of a Chart taking effect: host core groups that belong to no partition and optics groups it does not name go off, those of the
power-up sequence are on; optics and compute follow in stages 5 and 6 (R499, R527). -/
def State.chartDomains (s : State) : State :=
  let stay := upDomains ++ s.opticsDomains ++ s.hostDomains ++ clusterDomains
  s.setDomains ((s.domains &&& domainMask stay) ||| domainMask upDomains)

/-- STAGE_CHART: the Chart of the selected slot if it verifies; else the factory default Chart, with CHART_FALLBACK where a stored Chart
failed a check (R549, R550). -/
def execStageChart (ms : Nat) (s : State) : Out :=
  if ¬ s.atStage 2 then .next s
  else
    let slot := s.boot.selected
    let image := s.slotImage slot
    let s1 := if s.slotPresent slot then
        let f := s.verifyChart image
        let s0 := s.putFld (slotReg slot) F.CHT_SLOT_A_FAIL f
        if f = 0 then s0.applyChart (chartOf image) slot 0
        else (s0.applyChart defaultChart 2 f).alarmCht F.CHT_ALARM_CHART_FALLBACK
      else s.applyChart defaultChart 2 0
    .next (s1.chartDomains.stageDone 2 ms false)

/-! ### Stages 3 to 6 -/

/-- A tensor die's clocks start at the promise frequency (R500, R504). -/
def State.startDie (s : State) (d : Nat) : State :=
  ((s.putFld (PWR_TD_STATUS d) F.PWR_TD_STATUS_OP 9).putFld (PWR_TD_STATUS d) F.PWR_TD_STATUS_TARGET 9).putFld (PWR_TD_STATUS d)
    F.PWR_TD_STATUS_MV (s.opMv d 9)

/-- STAGE_CLOCKS_AND_NETWORK: the timebase and the clocks start, and the die-to-die modules train; a failure ends the boot (R537). -/
def execStageClocksAndNetwork (fail : Option Nat) (full : Bool) (ms : Nat) (s : State) : Out :=
  if ¬ s.atStage 3 then .next s
  else match fail with
    | some d => .next (s.bootFailed d 1)
    | none =>
      let (s1, forced) := s.trainAll moduleKeys
      let s2 := (List.range 8).foldl (fun s d => s.startDie d) s1
      .next ((s2.setPwr { s2.pwr with clocks := true }).stageDone 3 ms (full || forced))

/-- One weak row of a stack: repaired with a spare, if one is left and the spare verifies, which a free bit says; otherwise its frames are
retired (R359, R360). -/
def State.repairRow (s : State) (n row : Nat) : State :=
  let left := s.fld (HBM_REPAIR n) F.HBM_REPAIR_SPARES_LEFT
  if 0 < left ∧ s.anyBool then
    let s1 := s.putStack n { s.stack n with repair := (s.stack n).repair.filter (· ≠ row) }
    (s1.putFld (HBM_REPAIR n) F.HBM_REPAIR_SPARES_LEFT (left - 1)).tookFree
  else
    let frames := ((Config.rowFrames n row).map (0x10000 * ·)).filter (fun b => !s.tiers.retired.contains b)
    let s1 := s.setTiers { s.tiers with retired := frames.foldl (fun l b => enter b l) s.tiers.retired }
    ((s1.putFld (HBM_REPAIR n) F.HBM_REPAIR_RETIRED (s1.fld (HBM_REPAIR n) F.HBM_REPAIR_RETIRED + frames.length)).alarmHbm n
      F.HBM_ALARM_HBM_REPAIR_FAILED).tookFree

/-- Every row on a stack's repair list. -/
def State.repairRows (s : State) (n : Nat) : State :=
  let s1 := (s.stack n).repair.foldl (fun s row => s.repairRow n row) s
  s1.putFld (HBM_REPAIR n) F.HBM_REPAIR_PENDING (s1.stack n).repair.length

/-- Do the fitted DIMMs meet R390: 1 RDIMMs, 2 MRDIMMs? -/
def dimmOk (dimm gib mts : Nat) : Bool :=
  decide (16 ≤ gib) && decide (gib ≤ 256) && ((decide (dimm = 1) && decide (4800 ≤ mts) && decide (mts ≤ 6400))
    || (decide (dimm = 2) && decide (8000 ≤ mts) && decide (mts ≤ 8800)))

/-- Host DRAM: absent, in service, or refused (R390). -/
def State.trainDram (s : State) (dimm gib mts : Nat) : State :=
  if dimm = 0 then s.putReg HST_DRAM_STATUS 0
  else if dimmOk dimm gib mts then
    s.putReg HST_DRAM_STATUS (fset (fset (fset (fset 0 F.HST_DRAM_STATUS_STATE 2) F.HST_DRAM_STATUS_KIND dimm) F.HST_DRAM_STATUS_MTS mts)
      F.HST_DRAM_STATUS_GIB gib)
  else s.putReg HST_DRAM_STATUS (fset 0 F.HST_DRAM_STATUS_STATE 3)

/-- The record of an unclean power loss (R332); how the lost MiB round the spec leaves open. -/
def State.lossRecord (s : State) : State :=
  match s.flash.loss with
  | none => s
  | some (w, n) =>
    let mib := (n + (if s.anyBool then 2 ^ 20 - 1 else 0)) / 2 ^ 20
    let s1 := s.putReg DFT_PL_RECORD (fset (fset (fset 0 F.DFT_PL_RECORD_WATCH_LO w) F.DFT_PL_RECORD_LOST_MIB (min mib 4096)) F.DFT_PL_RECORD_VALID 1)
    ((s1.setFlash { s1.flash with loss := none }).alarmDft F.DFT_ALARM_FLASH_POWER_LOSS).tookFree

/-- The user capacity of the deep flash tier in TiB: 100, 16 without the licence, none without keys (R318, R335). -/
def State.userTib (s : State) : Nat :=
  if ¬ s.flag KPR_ID_INFO F.KPR_ID_INFO_PROVISIONED then 0 else if s.licensed.testBit 1 then 100 else 16

/-- The flash mapping is loaded: capacity, keys, lost stacks, the governor, the pattern library, whose verification a free bit decides
(R318, R332, R335, R341, R342, R568). -/
def State.loadFlash (s : State) : State :=
  let states := (List.range 16).map (fun f => s.fld (DFT_STACK f) F.DFT_STACK_STATE)
  let s1 := ((s.putFld DFT_STATUS F.DFT_STATUS_USER_TIB s.userTib).putFld DFT_STATUS F.DFT_STATUS_NO_KEYS
    (!s.flag KPR_ID_INFO F.KPR_ID_INFO_PROVISIONED).toNat).putFld DFT_STATUS F.DFT_STATUS_DEGRADED (states.contains 1).toNat
  let s2 := (s1.putFld DFT_STATUS F.DFT_STATUS_READ_ONLY (decide (2 ≤ (states.filter (· ≠ 0)).length) && states.contains 2).toNat).govern.lossRecord
  let s3 := (s2.putFld FTS_STATUS F.FTS_STATUS_LIB_OK s2.anyBool.toNat).tookFree
  if s3.flag FTS_STATUS F.FTS_STATUS_LIB_OK then s3
  else (s3.alarmFts F.FTS_ALARM_FT_LIBRARY).event 18 (blockSource 5) 0xFF 0xC06 []

/-- STAGE_MEMORIES: row repair, then training of HBM and host DRAM, and the flash mapping; a failed stack ends the boot (R537, R359 to R361,
R390, R332). -/
def execStageMemories (hbmFail : Option Nat) (dimm dimmGiB dimmMts : Nat) (full : Bool) (ms : Nat) (s : State) : Out :=
  if ¬ s.atStage 4 then .next s
  else
    let s1 := (List.range 16).foldl (fun s n => (s.repairRows n).putFld (HBM_STATUS n) F.HBM_STATUS_STATE (if hbmFail = some n then 3 else 2)) s
    match hbmFail with
    | some n => .next (s1.bootFailed (n / 2) 2)
    | none =>
      let channels := if dimmOk dimm dimmGiB dimmMts then (List.range 16).map (300 + ·) else []
      let (s2, forced) := s1.trainAll ((List.range 16).map (100 + ·) ++ channels)
      .next (((s2.trainDram dimm dimmGiB dimmMts).loadFlash).stageDone 4 ms (full || forced))

/-- A port that the Chart uses trains (R481, R537). -/
def State.startPort (s : State) (oe : Nat) : State :=
  if s.boot.chart.ports.testBit oe ∨ s.isEth oe then (s.showPort oe 3).autoTrain oe else s

/-- STAGE_LINKS: the optics groups the Chart names are on, its ports train, and the root ports are up as their links say: RATE, WIDTH and FLIT
of each in the layout of HST_PORT_STATUS (R527, R537). -/
def execStageLinks (pcie : List Nat) (full : Bool) (ms : Nat) (s : State) : Out :=
  if ¬ s.atStage 5 then .next s
  else
    let s1 := s.switchOn s.opticsDomains
    let s2 := (List.range 32).foldl (fun s oe => s.startPort oe) s1
    let s3 := (List.range 8).foldl (fun s p => s.putReg (HST_PORT_STATUS p) (BitVec.ofNat 64 (((pcie[p]?).getD 0) &&& 0x101F7))) s2
    let up := (List.range 8).filter (fun p => s3.fld (HST_PORT_STATUS p) F.HST_PORT_STATUS_RATE ≠ 0)
    let (s4, forced) := s3.trainAll (up.map (400 + ·))
    .next (s4.stageDone 5 ms (full || forced))

/-- STAGE_COMPUTE: the cluster domains and the host core groups with a partition are on, the engines stand reset, the timebase joins under the
Chart's role, the harts run, and PWR_OK is driven high (R499, R537, R604). -/
def execStageCompute (fail : Option Nat) (ms : Nat) (s : State) : Out :=
  if ¬ s.atStage 6 then .next s
  else match fail with
    | some d => .next (s.bootFailed d 5)
    | none =>
      let s1 := ((s.switchOn (clusterDomains ++ s.hostDomains)).joinAs (s.fld WCH_TB_CTRL F.WCH_TB_CTRL_ROLE)).stageDone 6 ms false
      .next (s1.setBoot { s1.boot with pwrOk := true, attempt := 0 })

end Sys2Proof.Machine
end

