-- ==== Sys2Proof/Machine/Coherence.lean ====
section
/-! DEFINITION. Coherence: the requests and states of R396, forwards (R397), timeouts (R398), errors of the media that a read meets
(R321, R352, R353, R392) and poison consumed by host cores (R399). -/
namespace Sys2Proof.Machine

/-! ## Lines -/

/-- The record of a line in the snoop filter. -/
def State.line (s : State) (a : Nat) : Line := (Table.get? s.coh a).getD {}

/-- A line's record changed; a line that is UNCACHED with nothing outstanding has none. -/
def State.putLine (s : State) (a : Nat) (l : Line) : State :=
  if l = {} then s.setCoh (Table.del s.coh a) else s.setCoh (Table.put s.coh a l)

/-- The bytes of a line in memory. -/
def State.memLine (s : State) (a : Nat) : List Byte := getBytes s.mem a 64

/-- The coherent bytes of a line. -/
def State.lineData (s : State) (a : Nat) : List Byte := (List.range 64).map (fun i => s.byteAt (a + i))

/-- Bytes laid over a line from an offset on. -/
def overlayAt (d : List Byte) (off : Nat) (bs : List Byte) : List Byte :=
  (List.range d.length).map (fun i => if off ≤ i ∧ i < off + bs.length then (bs[i - off]?).getD 0 else (d[i]?).getD 0)

/-- The die of an agent; one outside the package has the number of R28. -/
def agentDie : Agent → Nat
  | .hart h => 8 + h / 48
  | .dieCache d => d
  | .port _ | .remote => outsideDie

/-- Does the agent hold a coherent cache (R393)? -/
def caches : Agent → Bool
  | .hart _ | .dieCache _ => true
  | _ => false

/-- The number of an agent in a record: its hart within the host die, or 0xFF. -/
def agentNumber : Agent → Nat
  | .hart h => h % 48
  | _ => 0xFF

/-! ## What a read meets -/

/-- An uncorrectable line of host DRAM is stored poisoned (R392). -/
def State.hdramUncorrectable (s : State) (a die : Nat) : State :=
  ((s.setPoison (enter (a + 1) s.poison)).alarmCoh F.COH_ALARM_HDRAM_UNCORRECTABLE).blockEvent 31 0xFF 0x402 [a, die, hdramChannel a]

/-- A flash read of which two pages of a stripe fail returns poison; the sector stays poisoned (R321). -/
def State.flashUncorrectable (s : State) (a die : Nat) : State :=
  (((s.setPoison (enter a (enter (a + 32) s.poison))).count DFT_UNCORR).alarmDft F.DFT_ALARM_FLASH_UNCORRECTABLE).blockEvent 42 0xFF 0x402
    [a, die, 0]

/-- The error that a read of a line from its medium meets at an address within it. -/
def State.mediumError (s : State) (pa die : Nat) (ecc : Ecc) : State :=
  let a := pa - pa % 64
  match s.region pa, ecc with
  | .hbm, e => s.hbmError (hbmStack pa) (hbmOffset (pa - pa % 32)) 1 die e
  | .hdram, .uncorrectable => s.hdramUncorrectable a die
  | .flash, .correctable => s.count DFT_CORRECTED
  | .flash, .uncorrectable => s.flashUncorrectable a die
  | _, _ => s

/-- Poisoned data is consumed by a host core: recorded and logged (R399). -/
def State.consumedBy (s : State) (a : Agent) (pa : Nat) : State :=
  match a with
  | .hart h =>
    let last := fset (fset (fset 0 F.COH_POISON_LAST_DIE (8 + h / 48)) F.COH_POISON_LAST_AGENT (h % 48)) F.COH_POISON_LAST_VALID 1
    let at1 := fset (fset 0 F.COH_POISON_ADDR_ADDR_LO (bits pa 31 6)) F.COH_POISON_ADDR_ADDR_HI (bits pa 51 32)
    ((((s.count COH_POISON_USED).putReg COH_POISON_LAST last).putReg COH_POISON_ADDR at1).blockEvent 31 ((s.partOfHart h).getD 0xFF)
      0x404 [pa, 8 + h / 48])
  | _ => s

/-- Eight bytes of a line at an address within it, as the answer of a read. -/
def answer (d : List Byte) (pa : Nat) : Word := BitVec.ofNat 64 (leAt d (pa % 64 - pa % 8) 8)

/-- Data is answered to a requester: a poisoned line is consumed by a host core (R399). -/
def State.answered (s : State) (a : Agent) (pa : Nat) (d : List Byte) : State :=
  let s1 := s.setResp (answer d pa)
  if (s1.isPoisoned (pa - pa % 64) || s1.isPoisoned (pa - pa % 64 + 32)) then s1.consumedBy a pa else s1

/-- A request reaches the home of a line of memory. Elsewhere a read answers zeros and a write is ignored; an unmapped line counts as
a violation (R33, R394). -/
def State.atHome (s : State) (a : Agent) (pa : Nat) (write : Bool) (f : State → State) : State :=
  if (s.region pa).isMemory then f s
  else
    let s1 := if write then s else s.setResp 0
    let part := match a with | .hart h => s.partOfHart h | _ => none
    if s.region pa = .unmapped then s1.violation 7 (pa % 2 ^ 29) part false write (agentDie a) else s1

/-! ## Reads -/

/-- RD_SHARED: a cacheable read (R396). -/
def State.rdShared (s : State) (a : Agent) (pa : Nat) (ecc : Ecc) : State :=
  let at0 := pa - pa % 64
  let l := s.line at0
  match l.owner with
  | some o =>
    if o = a then s.answered a pa (s.lineData at0)
    else s.putLine at0 { l with forwards := l.forwards ++ [{ owner := o, requester := a, kind := .shared }] }
  | none =>
    let s1 := (s.mediumError pa (agentDie a) ecc).noteRead at0 64 none (agentDie a)
    let s2 := s1.answered a pa (s1.memLine at0)
    if ¬ caches a then s2
    else if l.sharers.isEmpty then s2.putLine at0 { l with owner := some a }
    else if l.sharers.contains a then s2
    else s2.putLine at0 { l with sharers := l.sharers ++ [a] }

/-- RD_SHARED. -/
def execRdShared (a : Agent) (pa : Nat) (ecc : Ecc) (s : State) : Out := .next (s.atHome a pa false (fun s => s.rdShared a pa ecc))

/-- RD_ONCE: an uncached read; no cache changes its state (R396). -/
def State.rdOnce (s : State) (a : Agent) (pa : Nat) (ecc : Ecc) : State :=
  let at0 := pa - pa % 64
  let l := s.line at0
  match l.owner with
  | some o => s.putLine at0 { l with forwards := l.forwards ++ [{ owner := o, requester := a, kind := .once }] }
  | none =>
    let s1 := (s.mediumError pa (agentDie a) ecc).noteRead at0 64 none (agentDie a)
    s1.answered a pa (s1.memLine at0)

/-- RD_ONCE. -/
def execRdOnce (a : Agent) (pa : Nat) (ecc : Ecc) (s : State) : Out := .next (s.atHome a pa false (fun s => s.rdOnce a pa ecc))

/-! ## Stores -/

/-- A store to a line gains it in M for its requester, who writes its bytes; a former owner is asked for its data, every other holder
is invalidated (R396). -/
def State.rdUnique (s : State) (a : Agent) (pa off : Nat) (bs : List Byte) : State :=
  let at0 := pa - pa % 64
  let l := s.line at0
  let data := overlayAt (s.lineData at0) off bs
  let mine : Line := { owner := some a, dirty := true, data := some data, sharers := [], forwards := l.forwards, silent := l.silent }
  match l.owner with
  | some o =>
    if o = a then s.putLine at0 mine
    else s.putLine at0 { mine with forwards := l.forwards ++ [{ owner := o, requester := a, kind := .unique, off := off, store := bs }] }
  | none => (s.noteRead at0 64 none (agentDie a)).putLine at0 mine

/-- A store of an agent: with a cache it gains the line; without one the home performs it and leaves the line UNCACHED (R396). -/
def State.storeLine (s : State) (a : Agent) (pa off : Nat) (bs : List Byte) : State :=
  let within := bs.take (64 - off)
  if caches a then ((s.tearHeld pa).rdUnique a pa off within).poisonWrite (pa - pa % 64 + off) within.length false
  else s.wrMem (pa - pa % 64 + off) within false none (agentDie a)

/-- RD_UNIQUE: a store or atomic miss (R396). -/
def execRdUnique (a : Agent) (pa : Nat) (data : List Byte) (off : Nat) (s : State) : Out :=
  .next (s.atHome a pa true (fun s => if 64 ≤ off then s else s.storeLine a pa off data))

/-- UPGRADE: a store to a line held in S or O; one that the agent has lost meanwhile is served as RD_UNIQUE (R396). -/
def execUpgrade (a : Agent) (pa : Nat) (data : List Byte) (off : Nat) (s : State) : Out :=
  .next (s.atHome a pa true (fun s => if 64 ≤ off then s else s.storeLine a pa off data))

/-- WR_LINE: an uncached write of a whole line; its holders are invalidated and an owner's data discarded (R396). -/
def State.wrLine (s : State) (a : Agent) (pa : Nat) (data : List Byte) (poisoned : Bool) : State :=
  let at0 := pa - pa % 64
  let owner := (s.line at0).owner
  let s1 := s.wrMem at0 (data.take 64) poisoned none (agentDie a)
  match owner with
  | some o =>
    let l := s1.line at0
    if o = a then s1 else s1.putLine at0 { l with forwards := l.forwards ++ [{ owner := o, requester := a, kind := .writeLine }] }
  | none => s1

/-- WR_LINE. -/
def execWrLine (a : Agent) (pa : Nat) (data : List Byte) (poisoned : Bool) (s : State) : Out :=
  .next (s.atHome a pa true (fun s => s.wrLine a pa data poisoned))

/-! ## Evictions -/

/-- A holder leaves a line, which becomes SHARED or UNCACHED (R396). -/
def Line.drop (l : Line) (a : Agent) : Line :=
  if l.owner = some a then { l with owner := none, dirty := false, data := none } else { l with sharers := l.sharers.filter (· ≠ a) }

/-- Memory takes a line from a cache: the sharers that remain keep it, and what was poisoned stays so. -/
def State.writeKept (s : State) (at0 : Nat) (bs : List Byte) (l : Line) : State :=
  let bad := s.poison.filter (fun g => g - g % 64 = at0)
  let s1 := s.wrMem at0 bs false none 18
  (s1.setPoison (bad.foldl (fun p g => enter g p) s1.poison)).putLine at0 { sharers := l.sharers, forwards := l.forwards, silent := l.silent }

/-- WRITEBACK: the owner's data goes to memory and the holder is removed; a silent agent's is discarded (R396 to R398). One from a
former owner to whom a forward is on its way writes memory, from which the forward is then served. -/
def State.writeback (s : State) (a : Agent) (pa : Nat) (data : List Byte) : State :=
  let at0 := pa - pa % 64
  let l := s.line at0
  if l.silent.contains a then s.putLine at0 { l with silent := l.silent.erase a }
  else if l.owner = some a then (s.putLine at0 (l.drop a)).writeKept at0 (data.take 64) l
  else if l.forwards.any (fun f => f.owner = a) then s.setMem (putBytes s.mem at0 (data.take 64))
  else s

/-- WRITEBACK. -/
def execWriteback (a : Agent) (pa : Nat) (data : List Byte) (s : State) : Out :=
  .next (s.atHome a pa true (fun s => s.writeback a pa data))

/-- EVICT: a clean holder leaves a line (R396). -/
def execEvict (a : Agent) (pa : Nat) (s : State) : Out :=
  let at0 := pa - pa % 64
  .next (s.putLine at0 ((s.line at0).drop a))

/-! ## Forwards -/

/-- The stores of forwards that will own the line, laid over data in order. -/
def storesOver (d : List Byte) (fs : List Forward) : List Byte :=
  fs.foldl (fun d f => if f.kind = .unique then overlayAt d f.off f.store else d) d

/-- An answer to the oldest forward of a line: data, or WRITTEN_BACK for memory's (R396, R397). -/
def State.forwardAnswered (s : State) (at0 : Nat) (l : Line) (f : Forward) (rest : List Forward) (data : Option (List Byte)) : State :=
  let d := data.getD (s.memLine at0)
  let l1 := { l with forwards := rest }
  let changed := decide (d ≠ s.memLine at0)
  match f.kind with
  | .shared =>
    let s1 := s.answered f.requester at0 d
    let more := if caches f.requester ∧ ¬ l.sharers.contains f.requester then l.sharers ++ [f.requester] else l.sharers
    if l.owner ≠ some f.owner then s1.putLine at0 { l1 with sharers := if l.owner.isNone then more else l.sharers }
    else if l.dirty ∨ changed then s1.putLine at0 { l1 with dirty := true, data := some d, sharers := more }
    else s1.putLine at0 { l1 with owner := none, data := none, sharers := f.owner :: more }
  | .once =>
    let s1 := s.answered f.requester at0 d
    if l.owner = some f.owner ∧ changed then s1.putLine at0 { l1 with dirty := true, data := some d } else s1.putLine at0 l1
  | .unique =>
    if l.owner.isSome then s.putLine at0 { l1 with data := some (storesOver d (f :: rest)) }
    else s.putLine at0 l1
  | .writeLine => s.putLine at0 l1

/-- FORWARD_ANSWER: an owner answers the oldest forward of the line; with none outstanding the answer is a silent agent's, and is
discarded (R397, R398). -/
def execForwardAnswer (addr : Nat) (data : Option (List Byte)) (s : State) : Out :=
  let at0 := addr - addr % 64
  let l := s.line at0
  match l.forwards with
  | f :: rest => .next (s.forwardAnswered at0 l f rest (data.map (fun d => (d ++ List.replicate 64 0).take 64)))
  | [] => .next (s.putLine at0 { l with silent := l.silent.drop 1 })

/-- COH_TIMEOUT: the owner asked first has not answered: the line is poisoned and UNCACHED, every waiting requester is answered with
poison, and the silent agent recorded (R398). -/
def execCohTimeout (addr : Nat) (s : State) : Out :=
  let at0 := addr - addr % 64
  let l := s.line at0
  match l.forwards with
  | [] => .next s
  | f :: _ =>
    let die := agentDie f.owner
    let s1 := (s.tearHeld at0).putLine at0 { silent := l.silent ++ [f.owner] }
    let s2 := s1.setPoison (enter (at0 + 1) s1.poison)
    let last := fset (fset (fset 0 F.COH_TO_LAST_DIE die) F.COH_TO_LAST_AGENT (agentNumber f.owner)) F.COH_TO_LAST_VALID 1
    let at1 := fset (fset 0 F.COH_TO_ADDR_ADDR_LO (bits at0 31 6)) F.COH_TO_ADDR_ADDR_HI (bits at0 51 32)
    let s3 := (((s2.count COH_TIMEOUTS).putReg COH_TO_LAST last).putReg COH_TO_ADDR at1).alarmCoh F.COH_ALARM_COH_TIMEOUT
    let s4 := s3.blockEvent 31 0xFF 0x403 [at0, die, if s.region at0 = .hbm then hbmStack at0 else if s.region at0 = .hdram then hdramChannel at0 else 0]
    .next (l.forwards.foldl (fun s f => if f.kind = .writeLine then s else s.consumedBy f.requester at0) s4)

end Sys2Proof.Machine
end

