-- ==== Sys2Proof/Machine/Rules.lean ====
section
/-! DEFINITION. The update rules as functions of a tensor's live state, gradient and parameters (R249 to R252, R258 to R262, R264):
what each work item stages. An item's inputs from earlier groups are computed anew from the same state, which R269 says they are a
function of (log entry 22). -/
namespace Sys2Proof.Machine

/-! ## Operands -/

/-- A tensor table entry (R251). -/
structure Tensor where
  id : Nat
  rule : Nat
  dims : Nat
  kblock : Nat
  set : Nat
  shape : List Nat
  master : Nat
  moments : Nat
  grad : Nat
  precond : Nat
  work : Nat
  lrMult : FV
  wd : FV
  oscale : FV
  period : Nat
  deriving DecidableEq, Repr

/-- The fields of an entry of 128 bytes. -/
def tensorOf (b : List Byte) : Tensor :=
  { id := leAt b 0 4, rule := byteOf b 4, dims := byteOf b 5, kblock := byteOf b 6, set := byteOf b 7
    shape := (List.range 4).map (fun i => leAt b (8 + 4 * i) 4), master := leAt b 24 8, moments := leAt b 32 8, grad := leAt b 40 8
    precond := leAt b 48 8, work := leAt b 56 8, lrMult := decode32 (leAt b 64 4), wd := decode32 (leAt b 68 4)
    oscale := decode32 (leAt b 72 4), period := leAt b 76 4 }

/-- An extent of a tensor. -/
def Tensor.ext (t : Tensor) (i : Nat) : Nat := (t.shape[i]?).getD 1
/-- The elements of a tensor. -/
def Tensor.size (t : Tensor) : Nat := t.shape.foldl (· * ·) 1
/-- The rows r of ORTHO's working orientation (R259). -/
def Tensor.r (t : Tensor) : Nat := min (t.ext 0) (t.ext 1)
/-- The columns c of ORTHO's working orientation. -/
def Tensor.c (t : Tensor) : Nat := max (t.ext 0) (t.ext 1)
/-- KRON's block size b. -/
def Tensor.b (t : Tensor) : Nat := 256 * 2 ^ t.kblock
/-- KRON's blocks in a row of blocks. -/
def Tensor.blockCols (t : Tensor) : Nat := ceilDiv (t.ext 1) t.b
/-- KRON's number of blocks. -/
def Tensor.blocks (t : Tensor) : Nat := ceilDiv (t.ext 0) t.b * t.blockCols

/-- The step parameters (R252), with the step, the seed and the rounding mode of a UAPPLY (R264). -/
structure Params where
  lr : FV
  b1 : FV
  b2 : FV
  eps : FV
  c1 : FV
  c2 : FV
  gscale : FV
  kiter : Nat
  step : Nat
  seed : Nat
  nearest : Bool
  deriving DecidableEq, Repr

/-- The live state and gradient of a tensor as read (R256): codes of gradient and master by element, the bytes of moments and of
the preconditioner. base: the first element that was read. -/
structure Live where
  base : Nat
  grad : List Nat
  master : List Nat
  moments : List Byte
  precond : List Byte

/-! ## Arithmetic of R258: each operator rounds once -/

/-- a + b. -/
def addR (a b : FV) : FV := (a.add b).round32
/-- a - b. -/
def subR (a b : FV) : FV := (a.add b.minus).round32
/-- a * b. -/
def mulR (a b : FV) : FV := (a.mul b).round32
/-- a * b + c, rounded once. -/
def fmaR (a b c : FV) : FV := ((a.mul b).add c).round32
/-- a / b. -/
def divR (a b : FV) : FV := (divOp a b).1
/-- sqrt of R150. -/
def sqrtR (a : FV) : FV := (tClass 0x26 a).1
/-- rsqrt of R150. -/
def rsqrtR (a : FV) : FV := (tClass 0x25 a).1
/-- bf16(): the cast of R107 with SAT 0. -/
def bf16 (a : FV) : FV := a.round8 8
/-- The value 1. -/
def one : FV := .fin false 1 0

/-- The value of a block-scaled E4M3 element as R136 reads it. -/
def momentValue (code scale : Nat) : FV := if scale = 0xFF then .nan else ((decodeElem 0 code).scale ((scale : Int) - 127)).round32

/-- The first moment (part 0) or second-moment root (part 1) of element i (R250); padding reads as zero. -/
def Live.moment (l : Live) (n part i : Nat) : FV :=
  if n ≤ i then FV.zero
  else
    let o := 2112 * ((i - l.base) / 1024)
    let e := i % 1024
    momentValue (byteOf l.moments (o + 1024 * part + e)) (byteOf l.moments (o + 2048 + 32 * part + e / 32))

/-- The gradient of element i times GSCALE. -/
def Live.g (l : Live) (p : Params) (i : Nat) : FV := mulR (decode16 ((l.grad[i - l.base]?).getD 0)) p.gscale
/-- The master of element i. -/
def Live.w (l : Live) (i : Nat) : FV := decode16 ((l.master[i - l.base]?).getD 0)

/-! ## Seeded rounding (R264) -/

/-- The random bits of an element. -/
def mix (seed step id i : Nat) : Nat :=
  let m := 2 ^ 64
  let z := seed ^^^ (step * 0xB4C92E715D03A6F5 % m)
  let z := (z ^^^ (id * 0x93D765C12A8FE04B % m)) ^^^ (i * 0xC2E15A973F06D8B3 % m)
  let z := (z ^^^ (z >>> 29)) * 0xE7A31D5B9C0462F9 % m
  let z := (z ^^^ (z >>> 32)) * 0xA9F36C25D18B4E07 % m
  z ^^^ (z >>> 29)

/-- The BF16 code of a new master value. -/
def roundMaster (p : Params) (id i : Nat) (w : FV) : Nat :=
  if p.nearest then castTo 3 w
  else match w with
    | .nan => 0x7FC0
    | .inf n => n.toNat * 32768 + 0x7F80
    | .fin .. =>
      let c := encode32 w
      let t := c % 2 ^ 31 + mix p.seed p.step id i % 65536
      let sign := c / 2 ^ 31 * 32768
      if 0x7F800000 ≤ t then sign + 0x7F80 else sign + t / 65536

/-! ## What an item stages -/

/-- The writes of an item by virtual address, and its non-finite staged values (R265). -/
structure Staged where
  writes : List (Nat × List Byte)
  bad : Nat

/-- Is a BF16 code infinite or NaN? -/
def badMaster (c : Nat) : Bool := nonFinite 3 c

/-- Masters of given elements (element, new value). -/
def stageMasters (t : Tensor) (p : Params) (ws : List (Nat × FV)) : Staged :=
  let cs := ws.map (fun x => (x.1, roundMaster p t.id x.1 x.2))
  { writes := cs.map (fun x => (t.master + 2 * x.1, leBytes 2 x.2)), bad := (cs.filter (fun x => badMaster x.2)).length }

/-- One 32-element block of moments, of the first moments or of the roots (R108, R250). -/
def stageBlock (t : Tensor) (part blk : Nat) (v : Nat → FV) : Staged :=
  let x := castBlock 0 ((List.range 32).map (fun k => if 32 * blk + k < t.size then v (32 * blk + k) else FV.zero))
  let o := t.moments + 2112 * (blk / 32)
  { writes := [(o + 1024 * part + 32 * (blk % 32), x.2.map (fun c => BitVec.ofNat 8 c.code)),
               (o + 2048 + 32 * part + blk % 32, leBytes 1 x.1)]
    bad := if x.1 = 0xFF then 1 else 0 }

/-- Two items' effects together. -/
def Staged.and (a b : Staged) : Staged := ⟨a.writes ++ b.writes, a.bad + b.bad⟩

/-- Nothing staged. -/
def Staged.none : Staged := ⟨[], 0⟩

/-- The first-moment blocks that an item of a two-dimensional rule writes: those whose first element (for padding, the tensor's
last element) is among the item's (log entry 22). -/
def stageMoments (t : Tensor) (mine : Nat → Bool) (v : Nat → FV) : Staged :=
  ((List.range (ceilDiv t.size 1024 * 32)).filter (fun blk => mine (min (32 * blk) (t.size - 1)))).foldl
    (fun a blk => a.and (stageBlock t 0 blk v)) Staged.none

/-! ## ELEMENT (R258) -/

/-- First moment, root and master of an element. -/
def elementRule (t : Tensor) (p : Params) (l : Live) (i : Nat) : FV × FV × FV :=
  let g := l.g p i
  let m := fmaR p.b1 (l.moment t.size 0 i) (mulR (subR one p.b1) g)
  let u0 := l.moment t.size 1 i
  let v := fmaR p.b2 (mulR u0 u0) (mulR (subR one p.b2) (mulR g g))
  let u := sqrtR v
  let d := divR (mulR m p.c1) (fmaR u p.c2 p.eps)
  (m, u, subR (l.w i) (mulR (mulR p.lr t.lrMult) (fmaR t.wd (l.w i) d)))

/-- Item k of an ELEMENT tensor: the group k of 1,024 elements. -/
def elementItem (t : Tensor) (p : Params) (l : Live) (k : Nat) : Staged :=
  let is := ((List.range 1024).map (1024 * k + ·)).filter (· < t.size)
  let a := stageMasters t p (is.map (fun i => (i, (elementRule t p l i).2.2)))
  (List.range 32).foldl (fun a j => (a.and (stageBlock t 0 (32 * k + j) (fun i => (elementRule t p l i).1))).and
    (stageBlock t 1 (32 * k + j) (fun i => (elementRule t p l i).2.1))) a

/-! ## Matrices (R261) -/

/-- A matrix by rows. -/
abbrev Mat := List (List FV)

/-- An element of a matrix; outside it, zero. -/
def Mat.at (m : Mat) (i j : Nat) : FV := (((m[i]?).getD [])[j]?).getD FV.zero

/-- The matrix of a function. -/
def Mat.ofFn (rows cols : Nat) (f : Nat → Nat → FV) : Mat := (List.range rows).map (fun i => (List.range cols).map (fun j => f i j))

/-- One k-tile of an output element: the ordered sum of R101 over its k, then the C operand. -/
def tileSum (a b : Mat) (i j k0 n : Nat) (c : Option FV) : FV :=
  let x := (List.range n).foldl (fun acc k => (acc.add ((a.at i (k0 + k)).mul (b.at (k0 + k) j))).round32) FV.zero
  match c with
  | some y => (x.add y).round32
  | none => x

/-- An output element: its k-tiles of 256 in ascending order, each with the previous partial sum as its C operand (R261). -/
def productAt (a b : Mat) (inner : Nat) (c : Option Mat) (i j : Nat) : FV :=
  ((List.range (ceilDiv inner 256)).foldl (fun (acc : Option FV) k =>
    some (tileSum a b i j (256 * k) (min 256 (inner - 256 * k)) acc)) (c.map (fun m => m.at i j))).getD FV.zero

/-- A product of matrices, in FP32. -/
def product' (a b : Mat) (rows inner cols : Nat) (c : Option Mat := .none) : Mat := Mat.ofFn rows cols (productAt a b inner c)

/-- A matrix cast to BF16. -/
def Mat.bf (m : Mat) : Mat := m.map (fun r => r.map bf16)
/-- The transpose of a matrix of given shape. -/
def Mat.tr (m : Mat) (rows cols : Nat) : Mat := Mat.ofFn cols rows (fun i j => m.at j i)

/-- frob_sq: the SUMSQ tree of R158 over each 256 x 256 tile, the tile results added in item order (R259). -/
def frobSq (m : Mat) (rows cols : Nat) : FV :=
  let tiles := positions (ceilDiv rows 256) (ceilDiv cols 256)
  (tiles.foldl (fun (acc : Option FV) t =>
    let es := (positions (min 256 (rows - 256 * t.1)) (min 256 (cols - 256 * t.2))).map (fun x =>
      (VVal.f (m.at (256 * t.1 + x.1) (256 * t.2 + x.2)), true))
    let q := match (reduce true 3 es).1 with | .f v => v | _ => FV.zero
    some (match acc with | some v => addR v q | none => q)) none).getD FV.zero

/-- Non-finite elements of a matrix. -/
def badIn (es : List FV) : Nat := (es.filter (fun v => v.isNan || v.isInf)).length

/-! ## ORTHO (R259) -/

/-- The row-major index in the stored orientation of element (i, j) of the working orientation. -/
def Tensor.flat (t : Tensor) (i j : Nat) : Nat := if t.ext 1 < t.ext 0 then j * t.ext 1 + i else i * t.ext 1 + j

/-- The place in the working orientation of a stored element. -/
def Tensor.place (t : Tensor) (k : Nat) : Nat × Nat :=
  if t.ext 1 < t.ext 0 then (k % t.ext 1, k / t.ext 1) else (k / t.ext 1, k % t.ext 1)

/-- The new first moment of a stored element. -/
def orthoMoment (t : Tensor) (p : Params) (l : Live) (k : Nat) : FV := fmaR p.b1 (l.moment t.size 0 k) (l.g p k)

/-- The matrix of new first moments in the working orientation. -/
def orthoM (t : Tensor) (p : Params) (l : Live) : Mat := Mat.ofFn t.r t.c (fun i j => orthoMoment t p l (t.flat i j))

/-- x before the iterations. -/
def orthoX0 (t : Tensor) (p : Params) (l : Live) : Mat :=
  let m := orthoM t p l
  let s := addR (sqrtR (frobSq m t.r t.c)) p.eps
  Mat.ofFn t.r t.c (fun i j => bf16 (divR (m.at i j) s))

/-- One iteration on x. -/
def orthoStep (t : Tensor) (x : Mat) : Mat :=
  let a := (product' x (x.tr t.r t.c) t.r t.c t.r).bf
  let b := (product' a a t.r t.r t.r).bf
  let q := Mat.ofFn t.r t.r (fun i j => bf16 (fmaR (.fin false 2 0) (b.at i j) (mulR (.fin true 75 (-4)) (a.at i j))))
  (product' q x t.r t.r t.c (some (Mat.ofFn t.r t.c (fun i j => mulR (.fin false 27 (-3)) (x.at i j))))).bf

/-- x after n iterations. -/
def orthoX (t : Tensor) (p : Params) (l : Live) : Nat → Mat
  | 0 => orthoX0 t p l
  | n + 1 => orthoStep t (orthoX t p l n)

/-- The elements of tile k of the working orientation, in row-major order. -/
def Tensor.tile (t : Tensor) (k : Nat) : List (Nat × Nat) :=
  let u := ceilDiv t.c 256
  let i0 := 256 * (k / u)
  let j0 := 256 * (k % u)
  (positions (min 256 (t.r - i0)) (min 256 (t.c - j0))).map (fun x => (i0 + x.1, j0 + x.2))

/-- The counts of ORTHO's groups (R262). -/
def orthoGroups (t : Tensor) : List Nat :=
  let tt := ceilDiv t.r 256
  let u := ceilDiv t.c 256
  [tt * u, 1] ++ ((List.range 5).map (fun _ => [tt * (tt + 1) / 2, tt * (tt + 1) / 2, tt * u])).flatten ++ [tt * u]

/-- What item k of an ORTHO group stages. -/
def orthoItem (t : Tensor) (p : Params) (l : Live) (grp k : Nat) : Staged :=
  if grp = 0 then
    let u := ceilDiv t.c 256
    stageMoments t (fun e => let x := t.place e; decide (x.1 / 256 = k / u) && decide (x.2 / 256 = k % u)) (orthoMoment t p l)
  else if grp = 1 then ⟨[], badIn (orthoX0 t p l).flatten⟩
  else if grp = 17 then
    let x := orthoX t p l 5
    stageMasters t p ((t.tile k).map (fun y =>
      let e := t.flat y.1 y.2
      (e, subR (l.w e) (mulR (mulR p.lr t.lrMult) (fmaR t.wd (l.w e) (mulR t.oscale (x.at y.1 y.2)))))))
  else if grp % 3 = 1 then
    let x := orthoX t p l ((grp - 4) / 3 + 1)
    ⟨[], badIn ((t.tile k).map (fun y => x.at y.1 y.2))⟩
  else Staged.none

/-! ## KRON (R260) -/

/-- Is the recomputation of roots due in this step? -/
def Tensor.due (t : Tensor) (p : Params) : Bool := p.step % t.period = 0

/-- The block of g, padded with zeros, cast to BF16 (R260, R261). -/
def kronG (t : Tensor) (p : Params) (l : Live) (j : Nat) : Mat :=
  Mat.ofFn t.b t.b (fun y x =>
    let i := j / t.blockCols * t.b + y
    let k := j % t.blockCols * t.b + x
    if i < t.ext 0 ∧ k < t.ext 1 then bf16 (l.g p (i * t.ext 1 + k)) else FV.zero)

/-- A matrix of the preconditioner of block j: FP32 at a byte offset, or BF16. -/
def kronOld (t : Tensor) (l : Live) (j off fmt : Nat) : Mat :=
  let w := fmtBytes fmt
  let rows := (l.precond.drop (12 * t.b * t.b * j + off)).take (t.b * t.b * w)
  let cs := rowCodes fmt (t.b * t.b) rows
  Mat.ofFn t.b t.b (fun y x => decodeElem fmt ((cs[y * t.b + x]?).getD 0))

/-- The new factor L (side 0) or R (side 1). -/
def kronFactor (t : Tensor) (p : Params) (l : Live) (j side : Nat) : Mat :=
  let g := kronG t p l j
  let gt := g.tr t.b t.b
  let q := if side = 0 then product' g gt t.b t.b t.b else product' gt g t.b t.b t.b
  let old := kronOld t l j (4 * t.b * t.b * side) 6
  Mat.ofFn t.b t.b (fun y x => fmaR p.b2 (old.at y x) (q.at y x))

/-- The identity's element. -/
def diag (y x : Nat) (v : FV) : FV := if y = x then v else FV.zero

/-- One iteration of root4 on (x, y). -/
def rootStep (b : Nat) (z : Mat × Mat) : Mat × Mat :=
  let t := Mat.ofFn b b (fun i j => bf16 (mulR (subR (diag i j (.fin false 5 0)) (z.2.at i j)) (.fin false 1 (-2))))
  let t2 := (product' t t b b b).bf
  ((product' z.1.bf t b b b).bf, (product' (product' t2 t2 b b b).bf z.2 b b b).bf)

/-- root4: the inverse fourth root by the coupled Newton iteration. -/
def root4 (b : Nat) (p : Params) (a : Mat) : Mat :=
  let s := addR (sqrtR (frobSq a b b)) p.eps
  let x := Mat.ofFn b b (fun i j => diag i j (rsqrtR (sqrtR s)))
  let y := Mat.ofFn b b (fun i j => bf16 (divR (addR (a.at i j) (diag i j p.eps)) s))
  ((List.range p.kiter).foldl (fun z _ => rootStep b z) (x, y)).1.bf

/-- The root in use: the new one where due, else the stored one. -/
def kronRoot (t : Tensor) (p : Params) (l : Live) (j side : Nat) : Mat :=
  if t.due p then root4 t.b p (kronFactor t p l j side) else kronOld t l j (8 * t.b * t.b + 2 * t.b * t.b * side) 3

/-- d of a block: the preconditioned gradient. -/
def kronD (t : Tensor) (p : Params) (l : Live) (j : Nat) : Mat :=
  (product' (product' (kronRoot t p l j 0) (kronG t p l j) t.b t.b t.b).bf (kronRoot t p l j 1) t.b t.b t.b).bf

/-- The counts of KRON's groups (R262). -/
def kronGroups (t : Tensor) (p : Params) : List Nat :=
  let n := t.blocks
  [2 * n] ++ (if t.due p then ((List.range p.kiter).map (fun _ => [4 * n, 2 * n, 2 * n])).flatten else []) ++ [n, n, n]

/-- A matrix staged in FP32 or BF16. -/
def stageMat (va fmt : Nat) (m : Mat) : Staged :=
  let cs := m.flatten.map (castTo fmt)
  { writes := [(va, rowBytes fmt cs)], bad := (cs.filter (nonFinite fmt)).length }

/-- The stored elements of block j. -/
def Tensor.blockElems (t : Tensor) (j : Nat) : List (Nat × Nat × Nat) :=
  let i0 := j / t.blockCols * t.b
  let k0 := j % t.blockCols * t.b
  (positions (min t.b (t.ext 0 - i0)) (min t.b (t.ext 1 - k0))).map (fun x => ((i0 + x.1) * t.ext 1 + k0 + x.2, x.1, x.2))

/-- The block that holds a stored element. -/
def Tensor.blockOf (t : Tensor) (e : Nat) : Nat := e / t.ext 1 / t.b * t.blockCols + e % t.ext 1 / t.b

/-- What item k of a KRON group stages: factors; roots, when the last iteration forms them, or, in a step in which they are not due,
the stored roots with the factors (log entry 22); first moments and masters. last: the number of the last group. -/
def kronItem (t : Tensor) (p : Params) (l : Live) (last grp k : Nat) : Staged :=
  let base (j : Nat) : Nat := t.precond + 12 * t.b * t.b * j
  let root (j side : Nat) : Nat := base j + 8 * t.b * t.b + 2 * t.b * t.b * side
  if grp = 0 then
    let f := stageMat (base (k / 2) + 4 * t.b * t.b * (k % 2)) 6 (kronFactor t p l (k / 2) (k % 2))
    if t.due p then f else f.and { stageMat (root (k / 2) (k % 2)) 3 (kronRoot t p l (k / 2) (k % 2)) with bad := 0 }
  else if grp = last then
    let d := kronD t p l k
    let m (e : Nat) : FV :=
      let j := t.blockOf e
      let dj := if j = k then d else kronD t p l j
      fmaR p.b1 (l.moment t.size 0 e) (dj.at (e / t.ext 1 % t.b) (e % t.ext 1 % t.b))
    (stageMoments t (fun e => decide (t.blockOf e = k)) m).and
      (stageMasters t p ((t.blockElems k).map (fun x =>
        (x.1, subR (l.w x.1) (mulR (mulR p.lr t.lrMult) (fmaR t.wd (l.w x.1) (m x.1)))))))
  else if t.due p ∧ grp = 3 * (p.kiter - 1) + 1 ∧ k % 2 = 0 then
    stageMat (root (k / 4) (k % 4 / 2)) 3 (kronRoot t p l (k / 4) (k % 4 / 2))
  else Staged.none

/-! ## Items -/

/-- The counts of a tensor's groups (R262). -/
def groupsOf (t : Tensor) (p : Params) : List Nat :=
  match t.rule with
  | 0 => [ceilDiv t.size 1024]
  | 1 => orthoGroups t
  | 2 => kronGroups t p
  | _ => []

/-- The group of an item and its number within the group. -/
def locate : List Nat → Nat → Nat → Nat × Nat
  | [], g, k => (g, k)
  | n :: l, g, k => if k < n then (g, k) else locate l (g + 1) (k - n)

/-- What a work item stages. -/
def itemOf (t : Tensor) (p : Params) (l : Live) (item : Nat) : Staged :=
  let x := locate (groupsOf t p) 0 item
  match t.rule with
  | 0 => elementItem t p l x.2
  | 1 => orthoItem t p l x.1 x.2
  | 2 => kronItem t p l ((groupsOf t p).length - 1) x.1 x.2
  | _ => Staged.none

end Sys2Proof.Machine
end

