-- ==== Sys2Proof/Machine/Exporter.lean ====
section
/-! DEFINITION. The snapshot exporters: streams, their shards and the exporter commands (R270 to R281). -/
namespace Sys2Proof.Machine

/-! ## Cutting a part into shards (R273) -/

/-- A shard of a part: start coordinates, extents, and the bytes before it within the part. -/
structure Shard where
  off : List Nat
  ext : List Nat
  skip : Nat
  deriving DecidableEq, Repr

/-- The shards of a row-major BF16 array of the given extents: whole slabs of dimension 0 while one fits, else each slab cut
along the next dimension. before: bytes before the array. -/
def cutArray (max : Nat) : List Nat → Nat → List Shard
  | [], before => [⟨[], [], before⟩]
  | n :: rest, before =>
    let slab := 2 * rest.foldl (· * ·) 1
    if max < slab ∧ ¬ rest.isEmpty then
      ((List.range n).map (fun i => (cutArray max rest (before + i * slab)).map (fun x => ⟨i :: x.off, 1 :: x.ext, x.skip⟩))).flatten
    else
      let per := Nat.max 1 (max / slab)
      (List.range (ceilDiv n per)).map (fun j =>
        ⟨j * per :: rest.map (fun _ => 0), min per (n - j * per) :: rest, before + j * per * slab⟩)

/-- The shards of a part that is cut at multiples of a unit of bytes: moments and preconditioner. -/
def cutUnits (max unit units : Nat) : List Shard :=
  let per := Nat.max 1 (max / unit)
  (List.range (ceilDiv units per)).map (fun j => ⟨[j * per * unit, 0, 0, 0], [min per (units - j * per) * unit, 1, 1, 1], j * per * unit⟩)

/-- A part of a tensor: its number, format byte, dimensions, shape, address and shards. -/
structure Part where
  part : Nat
  format : Nat
  dims : Nat
  shape : List Nat
  addr : Nat
  shards : List Shard
  deriving DecidableEq, Repr

/-- The bytes of a shard. -/
def Part.bytes (p : Part) (x : Shard) : Nat := x.ext.foldl (· * ·) 1 * (if p.part = 0 ∨ p.part = 3 then 2 else 1)

/-- The parts of a tensor that PARTS selects, in PART order. Only a KRON tensor has a preconditioner (R251). -/
def partsOf (t : Tensor) (parts max : Nat) : List Part :=
  let groups := ceilDiv t.size 1024
  (if parts.testBit 0 then [⟨0, 3, t.dims, t.shape, t.master, cutArray max t.shape 0⟩] else [])
  ++ (if parts.testBit 1 then [⟨1, 0x10, 1, [2112 * groups, 1, 1, 1], t.moments, cutUnits max 2112 groups⟩] else [])
  ++ (if parts.testBit 2 ∧ t.rule = 2 then
      [⟨2, 6, 1, [12 * t.b * t.b * t.blocks, 1, 1, 1], t.precond, cutUnits max (12 * t.b * t.b) t.blocks⟩] else [])
  ++ (if parts.testBit 3 then [⟨3, 3, t.dims, t.shape, t.grad, cutArray max t.shape 0⟩] else [])

/-- Four 32-bit fields. -/
def quad (l : List Nat) : List Byte := ((List.range 4).map (fun i => leBytes 4 ((l[i]?).getD 0))).flatten

/-- The 128-byte header of a shard (R272). -/
def shardHeader (t : Tensor) (p : Part) (x : Shard) (seq : Nat) (data : List Byte) : List Byte :=
  let b := leBytes 4 0x44485342 ++ leBytes 2 1 ++ leBytes 1 p.part ++ leBytes 1 p.format ++ leBytes 4 t.id ++ leBytes 1 p.dims
    ++ leBytes 1 t.rule ++ leBytes 2 0 ++ quad p.shape ++ quad x.off ++ quad x.ext ++ leBytes 8 data.length ++ leBytes 8 seq
    ++ leBytes 4 (crc32c data)
  b ++ leBytes 4 (crc32c b) ++ List.replicate 40 0

/-- Data padded with zero bytes to a multiple of 64 (R270). -/
def pad64 (bs : List Byte) : List Byte := bs ++ List.replicate ((64 - bs.length % 64) % 64) 0

/-- The 64-byte trailer (R274). -/
def Stream.trailer (st : Stream) (status : Nat) : List Byte :=
  leBytes 4 0x444E4542 ++ leBytes 1 status ++ leBytes 3 0 ++ leBytes 8 st.step ++ leBytes 8 st.shards ++ leBytes 8 st.pos
    ++ List.replicate 32 0

/-! ## Destinations -/

/-- A loaded handle that a partition may use for n bytes: valid, its own, not in error, its region long enough (R493). -/
def State.handleOk (s : State) (p h n : Nat) : Bool :=
  match Table.get? s.lnk.handles h with
  | some x => decide (h < 64) && bit (byteOf x.entry 0) 0 && decide (byteOf x.entry 2 = p) && decide (n ≤ leAt x.entry 48 8)
      && !(s.reg LNK0_ETH_HSTATUS).toNat.testBit h
  | none => false

/-- The path MTU of a handle (R491): MTU 3 to 5 for 1,024 to 4,096 bytes. -/
def Handle.mtu (x : Handle) : Nat := 128 * 2 ^ byteOf x.entry 3

/-- Bytes go to a handle's remote region from byte off on, by RDMA WRITEs of at most the path MTU (R490, R493). -/
def State.ethWrite (s : State) (h off : Nat) (bs : List Byte) : State :=
  match Table.get? s.lnk.handles h with
  | none => s
  | some x =>
    let n := ceilDiv bs.length x.mtu
    let new := (List.range n).map (fun i =>
      ((x.psn + i) % 2 ^ 24, leAt x.entry 32 8 + off + i * x.mtu, (bs.drop (i * x.mtu)).take x.mtu))
    s.setLnk { s.lnk with handles := Table.put s.lnk.handles h { x with psn := (x.psn + n) % 2 ^ 24, sent := x.sent ++ new } }

/-- Is a handle's priority paused on its Ethernet engine (R489)? -/
def State.ethPaused (s : State) (h : Nat) : Bool :=
  match Table.get? s.lnk.handles h with
  | some x => s.lnk.paused.contains (8 * byteOf x.entry 1 + bits (byteOf x.entry 44) 5 3)
  | none => false

/-- An exporter's open stream, by its engine. -/
def State.stream? (s : State) (e : Nat) : Option Stream := Table.get? s.exp (eDie e - 10)

/-- Stream bytes are appended to the open stream and counted; a paused priority holds them back (R489). -/
def State.emit (s : State) (a : Access) (bs : List Byte) : Except Trap State :=
  match s.stream? a.engine with
  | none => .ok s
  | some st =>
    match (if st.dest = 0 then (if s.ethPaused st.handle then .error .wait else .ok (s.ethWrite st.handle st.pos bs)) else s.vStore { a with acc := 1 } (st.base + st.pos) bs) with
    | .error t => .error t
    | .ok s1 =>
      let n := eDie a.engine - 10
      .ok ((s1.setExp (Table.mod s1.exp n (fun x => { x with pos := x.pos + bs.length }))).count (UPD_EXP_BYTES n) bs.length)

/-! ## The commands -/

/-- The CODEs of an ill-formed XOPEN (R275, R278, R279, R282, R493). -/
def State.openCodes (s : State) (e : Nat) (r : Run) (b : List Byte) : List Nat :=
  let dest := byteOf b 3
  let g := byteOf b 2
  errs [(decide (1 < dest) || (decide (dest = 0) && !s.handleOk r.part (leAt b 16 2) (leAt b 24 8)), 2),
    ((s.stream? e).isSome, 3),
    (decide (1 < byteOf b 1) || !zerosAt b 40 24 || decide (dest = 1 ∧ leAt b 16 8 % 64 ≠ 0) || (decide (dest = 0) && !zerosAt b 18 6), 4),
    (!(setBits (leAt b 32 8) 64).all (s.ownsSet r.part), 5), (decide (dest = 0) && !r.be, 7)]
  ++ (if g < 4 ∨ g = 0xFF then [] else [4, 6])

/-- The 64-byte stream header (R271). PARTS are those of later XSHARDs, which XOPEN does not know: a free byte. -/
def State.streamHeader (s : State) (r : Run) (b : List Byte) : List Byte :=
  let g := byteOf b 2
  let v := (s.group g).now
  leBytes 4 0x504E5342 ++ leBytes 2 1 ++ leBytes 1 (byteOf b 1 % 2) ++ leBytes 1 (s.anyNat % 16) ++ leBytes 8 (leAt b 8 8)
    ++ leBytes 4 (leAt b 4 4) ++ leBytes 2 (if g = 0xFF then 0xFFFF else v.rank) ++ leBytes 2 (if g = 0xFF then 0 else v.epoch)
    ++ leBytes 8 (s.reg (UPD_SEED r.part)).toNat ++ leBytes 8 (s.reg KPR_ID_DEVICE).toNat ++ List.replicate 24 0

/-- XOPEN opens a stream: the live side of every held set is recorded, and the stream header written (R275, R276). -/
def execXopen (e : Nat) (s : State) : Out :=
  .next (s.runCmd e (isOp 0x58) (fun r b s1 =>
    if s1.openCodes e r b ≠ [] then .ill (s1.openCodes e r b)
    else
      let n := eDie e - 10
      let limit := leAt b 24 8
      let st : Stream := { part := r.part, checkpoint := bit (byteOf b 1) 0, dest := byteOf b 3, base := leAt b 16 8, limit := limit
                           handle := leAt b 16 2, snapId := leAt b 4 4, step := leAt b 8 8, pos := 0, shards := 0, dataBytes := 0
                           sides := (setBits (leAt b 32 8) 64).map (fun x => (x, s1.liveSide x)), overflow := decide (limit < 128) }
      let s2 := (((s1.setExp (Table.put s1.exp n st)).setBit (UPD_EXP_STATUS n) F.UPD_EXP_STATUS_OPEN).clrBit (UPD_EXP_STATUS n)
        F.UPD_EXP_STATUS_TORN).putFld (UPD_EXP_STATUS n) F.UPD_EXP_STATUS_SNAP_ID st.snapId
      if limit < 128 then .done s2 else Res.ofStore (s2.emit (r.access e 1) (s1.streamHeader r b))))

/-- The CODEs of an ill-formed XSHARD (R275, R279, R282). -/
def State.shardCodes (s : State) (e : Nat) (r : Run) (b : List Byte) : List Nat :=
  errs [(match s.stream? e with | some st => st.closing || decide (st.part ≠ r.part) | none => true, 3),
    (!zerosAt b 1 1 || decide (15 < byteOf b 2) || !zerosAt b 16 48 || decide (leAt b 8 8 % 128 ≠ 0), 4),
    (decide (leAt b 4 4 = 0 ∨ 65536 < leAt b 4 4), 6)]

/-- One shard is appended, unless the stream is torn or has overflowed; one that would pass DEST_LIMIT - 64 stops the exporter
(R277, R278). -/
def State.putShard (s : State) (a : Access) (t : Tensor) (p : Part) (x : Shard) : Except Trap State :=
  match s.stream? a.engine with
  | none => .ok s
  | some st =>
    let n := eDie a.engine - 10
    if st.torn ∨ st.overflow then .ok s
    else if st.limit < st.pos + 128 + ceilDiv (p.bytes x) 64 * 64 + 64 then
      .ok (s.setExp (Table.mod s.exp n (fun y => { y with overflow := true })))
    else match s.vRead { a with sides := st.sides } (p.addr + x.skip) (p.bytes x) with
      | .error e => .error e
      | .ok (data, s1) =>
        match s1.emit a (pad64 (shardHeader t p x st.shards data ++ data)) with
        | .error e => .error e
        | .ok s2 => .ok (s2.setExp (Table.mod s2.exp n (fun y =>
            { y with shards := y.shards + 1, dataBytes := y.dataBytes + data.length })))

/-- Is a table entry in the form of R251, as far as the exporter uses it? -/
def entryForm (b : List Byte) (t : Tensor) : Bool :=
  decide (t.rule ≤ 3 ∧ t.dims ≠ 0 ∧ t.dims ≤ 4 ∧ t.kblock ≤ 2 ∧ t.set ≤ 63) && zerosAt b 80 48
    && (List.range 4).all (fun i => decide (i < t.dims) || decide (t.ext i = 1))
    && decide (t.master % 64 = 0 ∧ t.moments % 64 = 0 ∧ t.grad % 64 = 0 ∧ t.precond % 64 = 0 ∧ t.work % 4096 = 0)

/-- The entries of an XSHARD, in table order; none of the result where an entry breaks R251. -/
def State.shardEntries (s : State) (a : Access) (b : List Byte) : List Nat → Except Trap (Option State)
  | [] => .ok (some s)
  | i :: is =>
    match s.vRead a (leAt b 8 8 + 128 * i) 128 with
    | .error t => .error t
    | .ok (eb, s1) =>
      let t := tensorOf eb
      let max := (if byteOf b 3 = 0 then 16 else byteOf b 3) * 2 ^ 20
      if ¬ entryForm eb t then .ok none
      else match foldM (fun s px => s.putShard a t px.1 px.2)
          ((partsOf t (byteOf b 2) max).map (fun p => p.shards.map (fun x => (p, x)))).flatten s1 with
        | .error t => .error t
        | .ok s2 => s2.shardEntries a b is

/-- XSHARD appends the shards of COUNT consecutive entries; on a torn stream it completes at once (R273, R276, R277). -/
def execXshard (e : Nat) (s : State) : Out :=
  .next (s.runCmd e (isOp 0x59) (fun r b s1 =>
    if s1.shardCodes e r b ≠ [] then .ill (s1.shardCodes e r b)
    else if (match s1.stream? e with | some st => st.torn | none => false) then .done s1
    else match s1.shardEntries (r.access e 0) b (List.range (leAt b 4 4)) with
      | .error t => .trap t
      | .ok none => .ill [4]
      | .ok (some s2) => .done s2))

/-- The STATUS of the trailer: 2 TORN, 3 OVERFLOW, 1 COMPLETE; which of TORN and OVERFLOW where both hold the spec leaves open. -/
def State.trailerStatus (s : State) (st : Stream) : Nat :=
  if st.torn ∧ st.overflow then s.pick [2, 3] else if st.torn then 2 else if st.overflow then 3 else 1

/-- XCLOSE writes the trailer and waits until every stream byte is acknowledged (R274, R279). -/
def execXclose (e : Nat) (s : State) : Out :=
  .next (s.runCmd e (isOp 0x5A) (fun r b s1 =>
    let n := eDie e - 10
    match s1.stream? e with
    | none => .ill (3 :: errs [(!zerosAt b 1 63, 4)])
    | some st =>
      let codes := errs [(st.closing || decide (st.part ≠ r.part), 3), (!zerosAt b 1 63, 4)]
      if codes ≠ [] then .ill codes
      else match s1.emit (r.access e 1) (st.trailer (s1.trailerStatus st)) with
        | .error t => .trap t
        | .ok s2 => .stay (((s2.setExp (Table.mod s2.exp n (fun y => { y with closing := true }))).modRun e
            (fun r => { r with wait := .busy })).tookFree)))

/-- STREAM_CLOSE_COMPLETE: every stream byte is acknowledged; the close completes and the holds are released (R279). -/
def execStreamCloseComplete (e : Nat) (s : State) : Out :=
  match Table.get? s.eng.runs e, s.stream? e with
  | some r, some st =>
    let sent := match Table.get? s.lnk.handles st.handle with | some h => h.sent | none => []
    if eKind e ≠ 7 ∨ ¬ st.closing ∨ r.wait ≠ .busy ∨ (st.dest = 0 ∧ sent ≠ []) then .next s
    else .next ((s.endStream (eDie e - 10)).advance e 64)
  | _, _ => .next s

/-- The CODEs of an ill-formed XRELAY (R275, R278, R282, R493). -/
def State.relayCodes (s : State) (r : Run) (b : List Byte) : List Nat :=
  let dest := byteOf b 3
  errs [(decide (1 < dest) || (decide (dest = 0) && !s.handleOk r.part (leAt b 16 2) (leAt b 24 8)), 2),
    (!zerosAt b 1 2 || !zerosAt b 4 4 || !zerosAt b 32 32 || decide (leAt b 8 8 % 64 ≠ 0 ∨ (dest = 1 ∧ leAt b 16 8 % 64 ≠ 0))
      || (decide (dest = 0) && !zerosAt b 18 6), 4), (decide (dest = 0) && !r.be, 7)]
  ++ (if leAt b 24 8 % 64 = 0 then [] else [4, 6])

/-- Line i of a stored stream is copied to memory; poison goes with the bytes (R399). -/
def State.relayLine (s : State) (a : Access) (b : List Byte) (i : Nat) : Except Trap State :=
  match s.vRead { a with carry := true } (leAt b 8 8 + 64 * i) 64 with
  | .error t => .error t
  | .ok (bs, s2) => s2.vStore { a with acc := 1 } (leAt b 16 8 + 64 * i) bs
      ((s.vFlags a (pagePieces (leAt b 8 8 + 64 * i) 64)).any id)

/-- XRELAY copies a stored stream unchanged: to memory, or to a handle's region. One that would
pass DEST_LIMIT - 64 of the exporter's open stream stops the exporter (R278). -/
def execXrelay (e : Nat) (s : State) : Out :=
  .next (s.runCmd e (isOp 0x5B) (fun r b s1 =>
    let n := eDie e - 10
    let len := leAt b 24 8
    let a := r.access e 0
    if s1.relayCodes r b ≠ [] then .ill (s1.relayCodes r b)
    else if (match s1.stream? e with | some st => decide (st.limit < len + 64) | none => false) then
      .done (s1.setExp (Table.mod s1.exp n (fun y => { y with overflow := true })))
    else if byteOf b 3 = 0 ∧ s1.ethPaused (leAt b 16 2) then .trap .wait
    else if byteOf b 3 = 0 then
      match s1.vRead a (leAt b 8 8) len with
      | .error t => .trap t
      | .ok (bs, s2) => .done ((s2.ethWrite (leAt b 16 2) 0 bs).count (UPD_EXP_BYTES n) len)
    else
      match foldM (fun s i => s.relayLine a b i) (List.range (len / 64)) s1 with
      | .error t => .trap t
      | .ok s2 => .done (s2.count (UPD_EXP_BYTES n) len)))

end Sys2Proof.Machine
end

