-- ==== Sys2Proof/Machine/Ethernet.lean ====
section
/-! DEFINITION. Ethernet handles and the requester's side of RDMA (R489 to R493): loading the table, acknowledgements, retries, rates, and
queue pairs in error. -/
namespace Sys2Proof.Machine

/-- The entries of the handle table as handles, each queue pair at its START_PSN (R491, R492). -/
def handlesOf : Nat → Nat → List Byte → List (Nat × Handle)
  | 0, _, _ => []
  | n + 1, h, bs => (h, { entry := bs.take 64, psn := leAt bs 12 3 }) :: handlesOf n (h + 1) (bs.drop 64)

/-- The address of the handle table. -/
def State.handleBase (s : State) : Nat :=
  s.fld LNK0_ETH_QP_BASE F.LNK0_ETH_QP_BASE_BASE_LO * 4096 + s.fld LNK0_ETH_QP_BASE F.LNK0_ETH_QP_BASE_BASE_HI * 2 ^ 32

/-- Is the handle table in PINNED T1 frames of the service partition (R491)? -/
def State.handleTableOk (s : State) : Bool :=
  match s.service? with
  | some p => s.pinnedT1 p s.handleBase 4096
  | none => false

/-- LNK0_ETH_QP_BASE is written: with EN set the table is loaded and every queue pair starts anew; a table out of place and EN clear
leave no handle valid (R492, log entry 34). -/
def State.loadHandles (s : State) : State :=
  if s.flag LNK0_ETH_QP_BASE F.LNK0_ETH_QP_BASE_EN ∧ s.handleTableOk then
    let s1 := s.noteRead s.handleBase 4096 none 10
    s1.setLnk { s1.lnk with handles := handlesOf 64 0 (s.rdMem s.handleBase 4096).1 }
  else s.setLnk { s.lnk with handles := [] }

/-- A handle returns to its START_PSN (R492, R495). -/
def State.resetHandle (s : State) (h : Nat) : State :=
  s.setLnk { s.lnk with handles := Table.mod s.lnk.handles h (fun x => { x with psn := leAt x.entry 12 3, sent := [], retries := 0 }) }

/-- Handles whose error bits are cleared return to their START_PSN (R495). -/
def State.clearHandles (s : State) (mask : Nat) : State := (setBits mask 64).foldl (fun s h => s.resetHandle h) s

/-- The stream of exporter `j` ends without a trailer; a command that waited for the port completes. -/
def State.failStream (s : State) (j : Nat) : State :=
  match Table.get? s.eng.runs (eId (10 + j) 7 0) with
  | some r => if r.wait = .busy then (s.endStream j).advance (eId (10 + j) 7 0) 64 else s.endStream j
  | none => s.endStream j

/-- The retries of a write run out: the handle is in error, and a stream on it ends without a trailer (R493). The exporter's command
under way completes with nothing more to write (log entry 34). -/
def State.handleError (s : State) (h : Nat) : State :=
  let s1 := (s.putFld LNK0_ETH_HSTATUS ⟨h, h⟩ 1).alarmLnk 0 F.LNK_ALARM_ETH_QP_ERROR
  let s2 := s1.setLnk { s1.lnk with handles := Table.mod s1.lnk.handles h (fun x => { x with sent := [], retries := 0 }) }
  (s2.exp.filter (fun e => decide (e.2.dest = 0) && decide (e.2.handle = h))).foldl (fun s e => s.failStream e.1) s2

/-- ETH_QP_ERROR. -/
def execEthQpError (h : Nat) (s : State) : Out :=
  match Table.get? s.lnk.handles h with
  | some x => if h < 64 ∧ x.sent ≠ [] then .next (s.handleError h) else .next s
  | none => .next s

/-- ROCE_ACK_RECEIVE: an acknowledgement releases the writes up to its PSN; a NAK has the writes from its PSN on resent, and releases the
earlier ones (R490, R493). -/
def execRoceAckReceive (h psn : Nat) (nak : Bool) (s : State) : Out :=
  match Table.get? s.lnk.handles h with
  | none => .next s
  | some x => match x.sent.head? with
    | none => .next s
    | some (first, _) =>
      let n := (psn + 2 ^ 24 - first) % 2 ^ 24 + (if nak then 0 else 1)
      if n ≤ x.sent.length ∧ (s.reg LNK0_ETH_HSTATUS).toNat.testBit h = false then
        .next (s.setLnk { s.lnk with handles := Table.put s.lnk.handles h { x with sent := x.sent.drop n, retries := if n = 0 then x.retries else 0 } })
      else .next s

/-- LOCAL_ACK_TIMEOUT: the oldest write is sent again, 7 times at most; then the queue pair fails (R490, R493). -/
def execLocalAckTimeout (h : Nat) (s : State) : Out :=
  match Table.get? s.lnk.handles h with
  | none => .next s
  | some x =>
    if x.sent.isEmpty then .next s
    else if 7 ≤ x.retries then .next (s.handleError h)
    else .next (s.setLnk { s.lnk with handles := Table.put s.lnk.handles h { x with retries := x.retries + 1 } })

/-- CONGESTION_NOTIFICATION halves the rate of a handle (R490). -/
def execCongestionNotification (h : Nat) (s : State) : Out :=
  .next (s.setLnk { s.lnk with handles := Table.mod s.lnk.handles h (fun x => { x with rate := x.rate / 2 }) })

/-- RATE_RECOVERY: 5 % of the full rate comes back (R490). -/
def execRateRecovery (h : Nat) (s : State) : Out :=
  .next (s.setLnk { s.lnk with handles := Table.mod s.lnk.handles h (fun x => { x with rate := min 1000 (x.rate + 50) }) })

/-- PRIORITY_FLOW_CONTROL stops or restarts sending on a priority of an Ethernet engine (R489). -/
def execPriorityFlowControl (oe prio : Nat) (pause : Bool) (s : State) : Out :=
  let k := 8 * (oe % 8) + prio % 8
  let l := s.lnk.paused.filter (· ≠ k)
  .next (s.setLnk { s.lnk with paused := if pause then enter k l else l })

end Sys2Proof.Machine
end

