-- ==== Sys2Proof/Machine/Movers.lean ====
section
/-! DEFINITION. The tier movers at work: visiting the frames of a fetch, their moves, and the end of a fetch (R295, R298, R299). -/
namespace Sys2Proof.Machine

/-- The fetch that an engine runs. -/
def State.fetchOf (s : State) (e : Nat) : Option (Run × Fetch) :=
  match Table.get? s.eng.runs e with
  | some r => r.fetch.map (fun f => (r, f))
  | none => none

/-- An engine's fetch changed. -/
def State.putFetch (s : State) (e : Nat) (f : Option Fetch) : State := s.modRun e (fun r => { r with fetch := f })

/-- The moves of an engine in transit. -/
def State.movesOf (s : State) (e : Nat) : List Move := s.tiers.moves.filter (fun m => m.engine = some e)

/-- A frame of a fetch is left in place: NOROOM where no destination was available; a STATE fetch ends its slot as PLAN_ERROR
(R295, R298, R308, log entry 25). -/
def State.leftInPlace (s : State) (e : Nat) (r : Run) (f : Fetch) (noroom : Bool) : State :=
  let s1 := if noroom then s.setBit (TMV_PART_STATUS r.part) F.TMV_PART_STATUS_NOROOM else s
  let s2 := s1.putFetch e (some { f with missed := true })
  if f.cls = 1 then s2.planError e else s2

/-- The next frame of a fetch is visited: skipped where it lies in the tier or is gone, else moved or left in place (R295). -/
def State.visit (s : State) (e : Nat) (r : Run) (f : Fetch) (base : Nat) : State :=
  let s1 := s.putFetch e (some f)
  match Table.get? s.tiers.frames base with
  | none => s1
  | some x =>
    if x.zeroing ∨ x.part ≠ r.part ∨ (s.regionRaw base).tier = f.tier then s1
    else if s.lostAt base then s1.leftInPlace e r f false
    else match s1.startMove base f.tier x (some e) with
      | some s2 => s2
      | none => s1.leftInPlace e r f true

/-- Is the frame in transit? -/
def State.moving (s : State) (base : Nat) : Bool := match Table.get? s.tiers.frames base with | some x => x.transit | none => false

/-- The mover works on: up to 64 frames at once, in order, waiting for a frame that another move has in transit (R295, R296). -/
def State.pump (s : State) (e : Nat) : Nat → State
  | 0 => s
  | n + 1 => match s.fetchOf e with
    | none => s
    | some (r, f) => match f.todo with
      | [] => s
      | b :: rest =>
        let own := s.tiers.moves.any (fun m => decide (m.engine = some e) && inRun m.src m.bytes b)
        if 64 ≤ (s.movesOf e).length ∨ (s.moving b ∧ ¬ own) then s
        else if own then (s.putFetch e (some { f with todo := rest })).pump e n
        else (s.visit e r { f with todo := rest } b).pump e n

/-- A TMOVE completes: a fetch that reached its tier whole is a HIT and adds to its buoy, any other a MISS (R294, R299). -/
def State.fetchOver (s : State) (e : Nat) (r : Run) (f : Fetch) (hit : Bool) : State :=
  let s1 := s.routeOutcome e (if hit then 1 else 2)
  let s2 := if hit ∧ f.buoy ≠ 0xFFFF then s1.addOwnBuoy r.part f.buoy 1 else s1
  (s2.putFetch e none).advance e 64

/-- The mover goes on with its fetch, which completes when nothing is left to move. -/
def State.pumpFetch (s : State) (e : Nat) : State :=
  match s.fetchOf e with
  | none => s
  | some (_, f0) =>
    let s1 := s.pump e f0.todo.length
    match s1.fetchOf e with
    | none => s1
    | some (r, f) => if f.todo.isEmpty ∧ (s1.movesOf e).isEmpty then s1.fetchOver e r f (!f.missed) else s1

/-- Frames to be visited follow a move. -/
def Run.follow (m : Move) (r : Run) : Run :=
  { r with fetch := r.fetch.map (fun f => { f with todo := f.todo.map (fun b => if inRun m.src m.bytes b then b - m.src + m.dst else b) }) }

/-- Every engine's fetch follows a move. -/
def State.follow (s : State) (m : Move) : State :=
  let all (l : List (Nat × Run)) : List (Nat × Run) := l.map (fun x => (x.1, x.2.follow m))
  s.setEng { s.eng with runs := all s.eng.runs, banks := all s.eng.banks,
                        spilling := s.eng.spilling.map (fun x => (x.1, x.2.1, x.2.2.follow m)),
                        held := s.eng.held.map (fun h => (h.1, { h.2 with run := h.2.run.follow m })) }

/-- FRAME_MOVE_DONE: a frame's move ends (R296). Into T3 or over lost memory it ends without effect when its destination no longer
takes the frame; then the frame stays in place (R308, R312). The movers go on. -/
def execFrameMoveDone (base : Nat) (s : State) : Out :=
  match s.tiers.moves.find? (fun m => m.src = base) with
  | none => .next s
  | some m =>
    let p := s.movePart m
    let full := decide ((s.regionRaw m.dst).tier = 3) && (s.budgetSpent p || !s.flashWritable)
    let s1 :=
      if full || s.lostAt m.src || s.lostAt m.dst then
        let s2 := s.cancelMove m
        match m.engine with
        | some e => (match s2.fetchOf e with | some (r, f) => s2.leftInPlace e r f full | none => s2)
        | none => s2
      else (s.follow m).endMove m
    .next ((s1.eng.runs.filter (fun x => x.2.fetch.isSome)).foldl (fun s x => s.pumpFetch x.1) s1)

/-- STOP_POINT: an ACTIVATION or SAMPLE fetch stops: in a guaranteed slot 2 us before the end of its last granule, in a best-effort
slot at the start of its DEADLINE watch. Moves in transit are cancelled, and the fetch is a MISS (R299). In replay it ignores
the stop point (R305). -/
def execStopPoint (e : Nat) (s : State) : Out :=
  match s.fetchOf e with
  | none => .next s
  | some (r, f) =>
    if f.cls < 2 ∨ f.replay then .next s
    else if r.be ∧ s.watch < f.deadline then .next s
    else
      let stop := match Table.get? s.adm.plans r.plan with
        | some pl => (match pl.slots[r.slot]? with | some x => (x.gran + x.count) * 1000 - 2000 | none => 0)
        | none => 0
      let s1 := if r.be then s else s.toTick stop
      .next ((s1.cancelMoves e).fetchOver e r f false)

/-- TIER_LATE: the start of a STATE fetch's DEADLINE watch has passed with frames still unmoved (R298). -/
def execTierLate (e : Nat) (s : State) : Out :=
  match s.fetchOf e with
  | none => .next s
  | some (r, f) =>
    if f.cls ≠ 1 ∨ f.late ∨ s.watch < f.deadline then .next s
    else
      let s1 := ((s.putFetch e (some { f with late := true })).alarmTmv F.TMV_ALARM_TIER_LATE).count TMV_LATE
      .next (s1.engineEvent e r.part 0x602 [f.tag, f.step, s.tagOf r])

end Sys2Proof.Machine
end

