-- ==== Sys2Proof/Machine/Slots.lean ====
section
/-! DEFINITION. Slots: starts (R74, R79, R174, R180), the watchdog (R77), best-effort slots in the gaps (R76, R509, R571), and
slots restored from a spill slot (R379). -/
namespace Sys2Proof.Machine

/-- The CODEs of a broken segment header (R174, R180), none for a well-formed one: 5 header, 6 OPEN in a guaranteed slot. -/
def headerCodes (stream : Nat) (h : List Byte) (be : Bool) : List Nat :=
  let flags := byteOf h 2
  errs [(decide (leAt h 0 2 ≠ 1 ∨ 2 ≤ flags ∨ stream % 64 ≠ 0 ∨ 64 ≤ byteOf h 3 ∨ (flags = 0 ∧ byteOf h 3 ≠ 0)
      ∨ leAt h 4 4 % 64 ≠ 0 ∨ 67108864 < leAt h 4 4) || !zerosAt h 8 56, 5),
    (bit flags 0 && !be, 6)]

/-- Is the slot one that its die's sequencer or order generator drives (R253, R415)? -/
def Slot.isLent (x : Slot) : Bool := x.stream = 0 && (decide (eKind x.engine ≤ 1) || (decide (8 ≤ eKind x.engine) && decide (eKind x.engine ≤ 12)))

/-- The engine that drives a lent or feed slot. -/
def Slot.driver (x : Slot) : Nat := if eKind x.engine ≤ 1 then eId (eDie x.engine) 5 0 else eId (eDie x.engine) 13 0

/-- Is the slot that drives a lent slot over already, so that the lent slot ends too (R254, R416)? -/
def driverOver (slots : List Slot) (x : Slot) : Bool :=
  slots.any (fun y => decide (y.engine = x.driver) && decide (y.off = x.off) && decide (y.gran = x.gran)
    && decide (y.count = x.count) && y.state.isOver)

/-- A run placed on its engine. -/
def State.putRun (s : State) (e : Nat) (r : Run) : State :=
  ((s.setEng { s.eng with runs := Table.put s.eng.runs e r }).showEngine e 1).showPlanes e

/-- A slot begins on its engine with the empty state of R94 and R132. Its header is read through its Compass; a header that
breaks R174 makes its first command ill-formed, and a segment of length 0 finishes at its start (R176). A frame in transit
holds a best-effort start back. -/
def State.begin (s : State) (id idx : Nat) (pl : Plan) (x : Slot) : State :=
  let e := x.engine
  let s1 := (s.modPlan id (fun p => p.setSlot idx .running)).trace e 1 pl.part id idx
  let r : Run := { plan := id, slot := idx, part := pl.part, be := !pl.guaranteed, stream := x.stream }
  if x.isLent then
    let s2 := s1.putRun e { r with lent := true }
    if driverOver pl.slots x then (s2.stop e .finished).planEnd id else s2
  else
    let s2 := s1.putRun e r
    match s2.vRead (r.access e 3) x.stream 64 with
    | .error .wait => s
    | .error t => s2.trapped e r t
    | .ok (h, s3) =>
      if headerCodes x.stream h r.be ≠ [] then s3.tookFree.illCommon e r (s3.pick (headerCodes x.stream h r.be))
      else
        let s4 := s3.modRun e (fun r => { r with length := leAt h 4 4, opened := decide (byteOf h 2 = 1), doorbell := byteOf h 3 })
        if leAt h 4 4 = 0 then s4.finishSlot e else s4

/-- A guaranteed slot whose engine is unavailable does not start; its plan is broken (R79). -/
def State.notStarted (s : State) (id idx : Nat) (pl : Plan) (e : Nat) : State :=
  let s1 := s.modPlan id (fun p => p.setSlot idx .notStarted)
  (((s1.broken e pl.part true).failPlan id idx 4 e)).planEnd id

/-- SLOT_START: the first granule of the engine's next guaranteed slot of this watch (R74, R79). -/
def execSlotStart (e : Nat) (s : State) : Out :=
  match earliest (s.waitingSlots e s.watch) with
  | none => .next s
  | some (id, idx, x) =>
    match Table.get? s.adm.plans id with
    | none => .next s
    | some pl =>
      if (Table.get? s.eng.runs e).isSome then .next s
      else
        let s1 := (s.toTick (x.gran * 1000)).abortTest (s.engineSource e)
        if s.unavailable e then .next (s1.notStarted id idx pl e) else .next (s1.begin id idx pl x)

/-- SLOT_WATCHDOG: the end of the last granule of a guaranteed slot whose engine has not finished: the slot is terminated and
its promise broken (R77, R78). A lent or feed slot is bounded by its driver's (R254, R416). -/
def execSlotWatchdog (e : Nat) (s : State) : Out :=
  match Table.get? s.eng.runs e with
  | none => .next s
  | some r =>
    if r.be ∨ r.lent then .next s
    else match Table.get? s.adm.plans r.plan with
      | none => .next s
      | some pl =>
        let t := match pl.slots[r.slot]? with | some x => (x.gran + x.count) * 1000 | none => 0
        .next ((s.toTick t).terminate e 4).tookFree

/-! ## Best-effort slots -/

/-- The first waiting slot on an engine of each best-effort plan (R76). -/
def State.readySlots (s : State) (e : Nat) : List (Nat × Nat × Slot) :=
  s.adm.plans.filterMap (fun p =>
    if p.2.guaranteed then none
    else (p.2.slots.zipIdx.find? (fun x => decide (x.1.engine = e) && decide (x.1.state = .waiting))).map (fun x => (p.1, x.2, x.1)))

/-- Is the engine free for best-effort work: idle, with no slot suspended or being spilled, in a gap of its calendar, not held
by the Sextant, not in a reserved test window, not unavailable (R76, R376, R509, R573)? -/
def State.freeFor (s : State) (e : Nat) (resume : Bool) : Bool :=
  (Table.get? s.eng.runs e).isNone && ((Table.get? s.eng.banks e).isNone || resume) && s.eng.spilling.all (fun x => x.1 ≠ e)
  && s.gapBeyond e 10 && !s.flag PWR_STATUS F.PWR_STATUS_HOLD && !s.testReserved e && !s.unavailable e

/-- BE_SLOT_START: an engine starts a best-effort slot in a gap. A normal test segment is aborted first (R571). Which of several
plans goes first the spec leaves open (log entry 12). -/
def execBeSlotStart (e : Nat) (s : State) : Out :=
  let ready := s.readySlots e
  match ready[s.anyNat % ready.length]? with
  | none => .next s
  | some (id, idx, x) =>
    if ¬ s.freeFor e false then .next (s.abortTest (s.engineSource e))
    else match Table.get? s.adm.plans id with
      | none => .next s
      | some pl => .next ((s.abortTest (s.engineSource e)).tookFree.begin id idx pl x)

/-- Does a rule ask for the suspension of best-effort work on an engine: ten granules before its calendar's next entry, the
Sextant's hold, or a new mapping of its physical engine (R76, R509, R558)? -/
def State.mustSuspend (s : State) (e : Nat) : Bool :=
  !s.gapBeyond e 10 || s.flag PWR_STATUS F.PWR_STATUS_HOLD || s.ft.mapping.any (fun m => decide (m.1 = e))

/-- BE_SUSPEND: a running best-effort slot is suspended: the engine saves its whole state into its save bank (R76, R125, R169,
R200). -/
def execBeSuspend (e : Nat) (s : State) : Out :=
  match Table.get? s.eng.runs e with
  | none => .next s
  | some r =>
    if r.be ∧ s.mustSuspend e then
      let s1 := (s.modPlan r.plan (fun p => p.setSlot r.slot .suspended)).trace e 3 r.part r.plan r.slot
      .next ((s1.setEng { s1.eng with runs := Table.del s1.eng.runs e, deps := Table.del s1.eng.deps e
                                      banks := Table.put s1.eng.banks e r }).rest e)
    else .next s

/-- A saved run goes on where it stood. -/
def State.goOn (s : State) (e : Nat) (r : Run) : State :=
  (((s.modPlan r.plan (fun p => p.setSlot r.slot .running)).trace e 4 r.part r.plan r.slot).putRun e r).pumpFetch e

/-- BE_RESUME: a suspended best-effort slot resumes in the next gap, with the state it had (R76). -/
def execBeResume (e : Nat) (s : State) : Out :=
  match Table.get? s.eng.banks e with
  | none => .next s
  | some r =>
    if s.freeFor e true then
      let s1 := s.abortTest (s.engineSource e)
      .next ((s1.setEng { s1.eng with banks := Table.del s1.eng.banks e }).goOn e r)
    else .next s

/-- A lowered SLOTS that waited for a held slot takes effect once no slot beyond it is taken (R384). -/
def State.settleSpill (s : State) (p : Nat) : State :=
  let n := s.fld (MMU_SPILL_CTRL p) F.MMU_SPILL_CTRL_SLOTS
  if (List.range 64).any (fun k => decide (n ≤ k) && s.spillTaken p k) then s
  else s.setDeferred (s.deferred.filter (fun d => d.key ≠ MMU_SPILL_CTRL p))

/-- HELD_SLOT_RESTORE: a resumed held slot restores from its spill slot into a gap of its engine, and the spill slot is free
(R379). -/
def execHeldSlotRestore (p slot : Nat) (s : State) : Out :=
  match Table.get? s.eng.held (64 * p + slot) with
  | none => .next s
  | some h =>
    if h.resumed ∧ s.freeFor h.engine false then
      let s1 := s.abortTest (s.engineSource h.engine)
      .next (((s1.setEng { s1.eng with held := Table.del s1.eng.held (64 * p + slot) }).settleSpill p).goOn h.engine h.run)
    else .next s

/-! ## Cancelling -/

/-- A plan's held slots are aborted (R379). -/
def State.abortHeld (s : State) (id : Nat) : State :=
  let mine := (s.eng.held.map (fun h => h.2.run) ++ s.eng.spilling.map (fun x => x.2.2)).filter (fun r => r.plan = id)
  let s1 := mine.foldl (fun s r => s.modPlan id (fun p => p.setSlot r.slot .terminated)) s
  s1.setEng { s1.eng with held := s1.eng.held.filter (fun h => h.2.run.plan ≠ id),
                          spilling := s1.eng.spilling.filter (fun x => x.2.2.plan ≠ id) }

/-- A cancel of a plan of the partition: unstarted slots are cancelled, held slots aborted, and the plan ends CANCELLED once its
started slots have ended (R82, R379). -/
def State.cancelPlan (s : State) (p id : Nat) : State :=
  match Table.get? s.adm.plans id with
  | none => s
  | some pl =>
    if pl.part ≠ p then s
    else
      let s1 := s.modPlan id (fun pl => { pl.cancelWaiting with ending := if pl.ending = 0 then 5 else pl.ending })
      ((s1.abortHeld id).settleSpill p).planEnd id

end Sys2Proof.Machine
end

