-- ==== Sys2Proof/Machine/FieldTest.lean ====
section
/-! DEFINITION. Field test (R567 to R577, R590): patterns, segments, the results of a test, observation, retirement and spares. -/
namespace Sys2Proof.Machine

/-! ## When a unit's test is due -/

/-- Every unit (R567). -/
def allUnits : List Nat :=
  ((List.range 14).map (fun k =>
    let x := kindShape k
    ((List.range x.2.1).map (fun d => (List.range (if k = 0 then 18 else x.2.2)).map (fun i =>
      eId (x.1 + d) k (if k = 0 then 32 + i else i)))).flatten)).flatten

/-- INTERVAL in watches: 24 h, or the expert value (R570). -/
def State.testInterval (s : State) : Nat := watchesOfHours (orElse (s.xfld FTS_X_TUNE F.FTS_X_TUNE_INTERVAL_H) 24)

/-- OBS_INTERVAL in watches: 3 h, or the expert value (R575). -/
def State.obsInterval (s : State) : Nat := watchesOfHours (orElse (s.xfld FTS_X_TUNE F.FTS_X_TUNE_OBS_H) 3)

/-- The powered time of the package in watches. -/
def State.poweredTime (s : State) : Int := s.watch + s.ft.ahead

/-- Has the time of a NORMAL unit's test come, while FTS_CFG.EN lets normal tests run? -/
def State.intervalOver (s : State) (x : FtUnit) : Bool :=
  s.flag FTS_CFG F.FTS_CFG_EN && decide (x.state = 0) && decide (x.began + (s.testInterval : Int) ≤ s.poweredTime)

/-- A change to FTS_CFG or FTS_X_TUNE applies to tests that become due after it: the units whose tests are due by now stay due, under the
settings as they stood (R590). -/
def State.settleDue (s : State) : State :=
  allUnits.foldl (fun s u => if s.intervalOver (s.unit u) then s.markDue u else s) s

/-- Has a unit a test to run: one due, or one that has begun? -/
def State.testWanted (s : State) (u : Nat) : Bool :=
  let x := s.unit u
  decide (x.state < 2) && (x.due || decide (0 < x.segment) || s.intervalOver x)

/-- A unit's reserved windows from this watch on. -/
def State.windowsAhead (s : State) (u : Nat) : List FtWindow :=
  s.ft.windows.filter (fun x => decide (x.unit = u) && decide (s.watch ≤ x.watch))

/-- A unit's windows are released. -/
def State.releaseWindows (s : State) (u : Nat) : State :=
  s.setFt { s.ft with windows := s.ft.windows.filter (fun x => x.unit ≠ u) }

/-- FT_TEST_DUE: the next test of a SUSPECT unit, OBS_INTERVAL after its last, or of a starved one, gets its reserved windows, unless it
has some already (R572, R573, R575). -/
def execFtTestDue (u : Nat) (s : State) : Out :=
  let x := s.unit u
  let due := x.began + (s.obsInterval : Int)
  if ¬ unitExists u ∨ 2 ≤ x.state ∨ (s.underTest u).isSome ∨ s.windowsAhead u ≠ [] then .next s
  else if x.starved ∨ (x.state = 1 ∧ (x.due ∨ 0 < x.segment ∨ due ≤ s.poweredTime)) then .next (s.reserveTest u s.watch)
  else .next s

/-- FT_STARVED: 48 h of powered time have passed since a unit's last completed test began (R572). -/
def execFtStarved (u : Nat) (s : State) : Out :=
  let x := s.unit u
  if unitExists u ∧ x.state < 2 ∧ x.completed + (watchesOfHours 48 : Int) ≤ s.poweredTime then .next (s.starve u) else .next s

/-- FTS_RUN.GO: the unit's test is due at once and runs in reserved windows, which are placed at once; none for a RETIRED or DEFECTIVE
unit (R575, R589). -/
def State.ftsGo (s : State) (u : Nat) : State :=
  if ¬ unitExists u ∨ 2 ≤ (s.unit u).state ∨ s.windowsAhead u ≠ [] then s else s.reserveTest u s.watch

/-! ## Segments -/

/-- PATTERN_LOAD_DONE: a scan unit's next patterns are in its die's buffer; poisoned ones make the unit's current test a known-answer
test, from its first segment on (R568, R569). -/
def execPatternLoadDone (u : Nat) (poisoned : Bool) (s : State) : Out :=
  let x := s.unit u
  if ¬ unitExists u ∨ 2 ≤ x.state ∨ s.methodOf u = 1 ∨ (s.underTest u).isSome then .next s
  else if poisoned then
    let s1 := (s.setUnit u { x with method := 1, segment := 0, loaded := false }).alarmFts F.FTS_ALARM_FT_LIBRARY
    .next (s1.event (eDie u) u 0xFF 0xC06 [u, x.segment, x.passWatch])
  else .next (s.setUnit u { x with loaded := true })

/-- Is a best-effort slot ready for an engine? -/
def State.beReady (s : State) (e : Nat) : Bool :=
  decide (s.readySlots e ≠ []) || ((Table.get? s.eng.banks e).isSome && s.freeFor e true)
    || s.eng.held.any (fun h => decide (h.2.engine = e) && h.2.resumed)

/-- May a normal segment start on a unit now: no slot runs, none is ready, and its calendar is free for the next 60 granules (R570)? -/
def State.unitIdle (s : State) (u : Nat) : Bool :=
  match s.unitEngine u with
  | some e => (Table.get? s.eng.runs e).isNone && !s.beReady e && s.gapBeyond e 60
  | none => (s.windowsAhead u).all (fun w => decide (s.watch * 250 + s.granule + 60 < w.watch * 250 + w.gran))

/-- A segment starts: the engine has saved its state and is shown under test; a test's first segment is its beginning. -/
def State.startSegment (s : State) (u : Nat) (reserved : Bool) : State :=
  let s0 := s.markDue u
  let x := s0.unit u
  let x1 := if x.segment = 0 then { x with began := s.poweredTime, start := s.watchLo } else x
  let s1 := (s0.setUnit u x1).setFt { (s0.setUnit u x1).ft with running := Table.put s0.ft.running (eDie u) (u, reserved) }
  match s1.unitEngine u with
  | some e => (s1.showEngine e 3).trace e 5 0xFF 0 u
  | none => s1.trace u 5 0xFF 0 u

/-- FT_SEGMENT_START: the next segment of a unit's test, in its reserved window of this watch, or else, for a NORMAL unit that is not
starved, in a gap. Its patterns are loaded, and no other unit of the die is under test (R569, R570, R573). -/
def execFtSegmentStart (u : Nat) (s : State) : Out :=
  let x := s.unit u
  if ¬ unitExists u ∨ ¬ s.boot.powered ∨ ¬ s.testWanted u ∨ (Table.get? s.ft.running (eDie u)).isSome
      ∨ (s.methodOf u = 0 ∧ ¬ x.loaded) then .next s
  else
    let s1 := if s.methodOf u = x.method then s else s.setUnit u { x with method := s.methodOf u, segment := 0 }
    let busy := match s.unitEngine u with | some e => (Table.get? s.eng.runs e).isSome | none => false
    match s.ft.windows.find? (fun w => decide (w.unit = u) && decide (w.watch = s.watch) && decide (s.granule ≤ w.gran)) with
    | some w => if busy then .next s else .next ((s1.toTick (1000 * w.gran)).startSegment u true)
    | none => if x.state = 0 ∧ ¬ x.starved ∧ ¬ x.reserved ∧ s.unitIdle u then .next (s1.startSegment u false) else .next s

/-! ## Results -/

/-- A test is over: its windows are released, and it counts among the completed tests with the watch in which it began (R573, R589). -/
def State.testOver (s : State) (u : Nat) : State :=
  let x := s.unit u
  ((s.setUnit u { x with due := false, reserved := false, loaded := false, method := 0, segment := 0, starved := false, aborts := 0,
                         completed := x.began, testWatch := x.start }).releaseWindows u).count FTS_TESTS

/-- A test has passed (R575): with 8 consecutive passes a SUSPECT unit is NORMAL again. PASS_EVENT writes an event. -/
def State.testPassed (s : State) (u : Nat) : State :=
  let x := s.unit u
  let s1 := s.testOver u
  let y := { s1.unit u with passWatch := x.start }
  let z := if x.state = 1 then
      if 8 ≤ x.passes + 1 then { y with state := 0, fails := 0, passes := 8 } else { y with passes := x.passes + 1 }
    else y
  let s2 := (s1.setUnit u z).countUnits
  if x.passEvent then s2.event (eDie u) u 0xFF 0xC01 [u, x.segment, z.passWatch] else s2

/-- The spares of a die counted in TDn_ME_SPARES. -/
def State.showSpares (s : State) (d : Nat) : State := s.putFld (TD_ME_SPARES d) F.TD_ME_SPARES_LEFT (s.sparesLeft d).length

/-- The watch in which a new mapping takes effect: the next one where at least 10 granules of this one remain, else the one after
(R558). -/
def State.mappingWatch (s : State) : Nat := if 10000 ≤ 250000 - s.tick then s.watch + 1 else s.watch + 2

/-- A unit is retired (R558, R576): a matrix engine gives way to the lowest spare left, and any other unit, or one without a spare, becomes
unavailable at the start of the next watch. -/
def State.retire (s : State) (u segment : Nat) : State :=
  let x := s.unit u
  let args := [u, segment, x.passWatch]
  let s1 := (((s.setUnit u { x with state := 2 }).alarmFts F.FTS_ALARM_FT_RETIRED).event (eDie u) u 0xFF 0xC03 args)
  match s.unitEngine u with
  | none => s1
  | some e =>
    match (if eKind u = 0 then s1.sparesLeft (eDie u) else []) with
    | phys :: _ =>
      let s2 := s1.setBoot { s1.boot with spares := (eDie u, eIdx e, phys) :: s1.boot.spares }
      (s2.setFt { s2.ft with mapping := s2.ft.mapping ++ [(e, phys, s2.mappingWatch)] }).event (eDie u) u 0xFF 0xC04 args
    | [] => s1.setFt { s1.ft with leaving := s1.ft.leaving ++ [(e, s1.watch + 1)] }

/-- Does a matrix unit stand in for no engine? -/
def State.isSpare (s : State) (u : Nat) : Bool :=
  decide (eKind u = 0) && (s.unitEngine u).isNone && !s.boot.spares.any (fun a => decide (a.1 = eDie u) && decide (a.2.2 = eIdx u - 32))

/-- A test has failed at a segment (R574, R575): the alarm, the record, the count and the event; the unit is SUSPECT, or DEFECTIVE as a
spare, and is retired with its RETIRE_AFTERth failure. -/
def State.testFailed (s : State) (u : Nat) : State :=
  let x := s.unit u
  let method := s.methodOf u
  let fails := if x.state = 1 then x.fails + 1 else 1
  let spare := s.isSpare u
  let s1 := (s.testOver u).count FTS_FAILS
  let s2 := s1.setUnit u { s1.unit u with state := if spare then 3 else 1, fails := fails, passes := 0 }
  let rec0 := fset (fset (fset (fset (fset 0 F.FTS_FAIL_LAST_UNIT u) F.FTS_FAIL_LAST_SEGMENT x.segment) F.FTS_FAIL_LAST_FAILS fails)
    F.FTS_FAIL_LAST_METHOD method) F.FTS_FAIL_LAST_VALID 1
  let s3 := ((s2.putReg FTS_FAIL_LAST rec0).alarmFts F.FTS_ALARM_FT_FAIL).event (eDie u) u 0xFF 0xC02 [u, x.segment, x.passWatch]
  let s4 := if spare then s3.showSpares (eDie u)
    else if orElse (fget x.tune F.FTS_X_TUNE_RETIRE_AFTER) 3 ≤ fails then s3.retire u x.segment else s3
  s4.countUnits

/-- FT_SEGMENT_END: the segment under way on a unit ends, and its engine has its state back. A failed segment ends the test, and so does
the last one (R567, R574). -/
def execFtSegmentEnd (u : Nat) (pass : Bool) (s : State) : Out :=
  match s.underTest u with
  | none => .next s
  | some _ =>
    let x := s.unit u
    let s1 := s.setFt { s.ft with running := Table.del s.ft.running (eDie u),
                                  windows := s.ft.windows.filter (fun w => !(decide (w.unit = u) && decide (w.watch ≤ s.watch))) }
    let s2 := match s1.unitEngine u with
      | some e => (s1.trace e 6 0xFF 0 u).rest e
      | none => s1.trace u 6 0xFF 0 u
    if ¬ pass then .next (s2.testFailed u)
    else if s2.segmentsOf u ≤ x.segment + 1 then .next (s2.testPassed u)
    else .next (s2.setUnit u { x with segment := x.segment + 1, aborts := 0, loaded := false })

/-! ## Watch starts -/

/-- UNIT_UNAVAILABLE: at a watch start a retired unit without a spare becomes unavailable (R576). -/
def execUnitUnavailable (u : Nat) (s : State) : Out :=
  match s.ft.leaving.find? (fun x => decide (s.engineSource x.1 = u) && decide (x.2 ≤ s.watch)) with
  | none => .next s
  | some (e, _) =>
    let s1 := s.setFt { s.ft with leaving := s.ft.leaving.filter (fun x => x.1 ≠ e), unavailable := e :: s.ft.unavailable }
    .next (if eKind e = 0 then s1.mapEngine (eDie e) (eIdx e) (eIdx u - 32) else s1)

/-- SPARE_MAPPING_EFFECT: at a watch start the new mappings whose watch has come take effect (R558). -/
def execSpareMappingEffect (s : State) : Out :=
  let now := s.ft.mapping.filter (fun m => m.2.2 ≤ s.watch)
  let s1 := s.setFt { s.ft with mapping := s.ft.mapping.filter (fun m => s.watch < m.2.2) }
  .next (now.foldl (fun s m => (s.mapEngine (eDie m.1) (eIdx m.1) m.2.1).showSpares (eDie m.1)) s1)

/-! ## Registers -/

/-- FTS_UNIT for the selected unit (R589); zeros where the identifier names no unit. -/
def State.ftsUnit (s : State) : Word :=
  let u := s.fld FTS_UNIT_SEL F.FTS_UNIT_SEL_UNIT
  let x := s.unit u
  if unitExists u then
    fset (fset (fset (fset (fset (fset (fset 0 F.FTS_UNIT_STATE x.state) F.FTS_UNIT_STARVED (if x.starved then 1 else 0)) F.FTS_UNIT_METHOD (s.methodOf u))
      F.FTS_UNIT_FAILS x.fails) F.FTS_UNIT_PASSES x.passes) F.FTS_UNIT_ABORTS x.aborts) F.FTS_UNIT_SEGMENT x.segment
  else 0

/-- FTS_UNIT_LAST for the selected unit. -/
def State.ftsUnitLast (s : State) : Word :=
  let u := s.fld FTS_UNIT_SEL F.FTS_UNIT_SEL_UNIT
  let x := s.unit u
  if unitExists u then fset (fset 0 F.FTS_UNIT_LAST_TEST_LO x.testWatch) F.FTS_UNIT_LAST_PASS_LO x.passWatch else 0

end Sys2Proof.Machine
end

