-- ==== Sys2Proof/Machine/Jpeg.lean ====
section
/-! DEFINITION. What the feed engines compute (R434 to R440): the structure of a JPEG payload, steering, the resampler, range sweeps
and their bins. What ITU-T T.81 says of entropy decoding and the inverse transform is a constant of Config. -/
namespace Sys2Proof.Machine

/-! ## The structure of a JPEG image (R434) -/

/-- What the markers of an accepted image say: its size, components (1 or 3), luma sampling, restart interval in MCUs (0 for none)
and where its entropy-coded data begins. -/
structure Jpeg where
  w : Nat := 0
  h : Nat := 0
  comps : Nat := 0
  hs : Nat := 1
  vs : Nat := 1
  dri : Nat := 0
  scan : Nat := 0
  deriving DecidableEq, Repr

/-- A two-byte field of a marker segment, most significant byte first. -/
def be16 (bs : List Byte) (off : Nat) : Nat := byteOf bs off * 256 + byteOf bs (off + 1)

/-- A frame header (SOF0 or SOF1): the codes of what is wrong with it, or the image's size and sampling. seg: the segment after its
marker. -/
def jpegFrame (seg : List Byte) (j : Jpeg) : Except Nat Jpeg :=
  let n := byteOf seg 7
  let size (i : Nat) : Nat := byteOf seg (9 + 3 * i)
  if seg.length < be16 seg 0 ∨ be16 seg 0 ≠ 8 + 3 * n then .error 5
  else if byteOf seg 2 ≠ 8 then .error 4
  else if be16 seg 3 = 0 ∨ be16 seg 5 = 0 ∨ 16384 < be16 seg 3 ∨ 16384 < be16 seg 5 then .error 4
  else if n = 1 then .ok { j with h := be16 seg 3, w := be16 seg 5, comps := 1 }
  else if n = 3 ∧ size 1 = 0x11 ∧ size 2 = 0x11 ∧ (size 0 = 0x11 ∨ size 0 = 0x21 ∨ size 0 = 0x22) then
    .ok { j with h := be16 seg 3, w := be16 seg 5, comps := 3, hs := size 0 / 16, vs := size 0 % 16 }
  else .error 4

/-- The marker segments up to the scan. off: where the next marker is looked for; fuel bounds their number. -/
def jpegMarkers (bs : List Byte) : Nat → Nat → Jpeg → Except Nat Jpeg
  | 0, _, _ => .error 5
  | fuel + 1, off, j =>
    if bs.length ≤ off + 1 ∨ byteOf bs off ≠ 0xFF then .error 5
    else
      let m := byteOf bs (off + 1)
      let seg := bs.drop (off + 2)
      let next := off + 2 + be16 seg 0
      if m = 0xFF then jpegMarkers bs fuel (off + 1) j
      else if m = 0xC0 ∨ m = 0xC1 then
        if j.comps ≠ 0 then .error 5
        else match jpegFrame seg j with
          | .error c => .error c
          | .ok j1 => jpegMarkers bs fuel next j1
      else if m = 0xDA then
        if j.comps = 0 then .error 5
        else if byteOf seg 2 ≠ j.comps then .error 4
        else .ok { j with scan := next }
      else if m = 0xDD then jpegMarkers bs fuel next { j with dri := be16 seg 2 }
      else if m = 0xC4 ∨ m = 0xDB ∨ m = 0xFE ∨ (0xE0 ≤ m ∧ m < 0xF0) then jpegMarkers bs fuel next j
      else if (0xD0 ≤ m ∧ m ≤ 0xD9) ∨ m ≤ 1 then .error 5
      else .error 4

/-- The markers within the entropy-coded data, in order, up to the first that is not RSTm: the m of each, and the marker that ends
the scan with its offset (none where the payload ends first). -/
def scanMarkers : List Byte → Nat → List Nat × Option (Nat × Nat)
  | [], _ => ([], none)
  | [_], _ => ([], none)
  | a :: b :: rest, off =>
    if a = 0xFF#8 ∧ b ≠ 0#8 ∧ b ≠ 0xFF#8 then
      if 0xD0 ≤ b.toNat ∧ b.toNat ≤ 0xD7 then
        let r := scanMarkers (b :: rest) (off + 1)
        ((b.toNat - 0xD0) :: r.1, r.2)
      else ([], some (b.toNat, off))
    else scanMarkers (b :: rest) (off + 1)

/-- The MCUs of a row and of a column of the image. -/
def Jpeg.mcus (j : Jpeg) : Nat × Nat := (ceilDiv j.w (8 * j.hs), ceilDiv j.h (8 * j.vs))

/-- The restart intervals of an image; an image without DRI is one interval (log entry 32). -/
def Jpeg.intervals (j : Jpeg) : Nat := if j.dri = 0 then 1 else ceilDiv (j.mcus.1 * j.mcus.2) j.dri

/-- A JPEG payload's structure, or the bad code: 4 unsupported, 5 corrupt. -/
def jpegParse (bs : List Byte) : Except Nat Jpeg :=
  if be16 bs 0 ≠ 0xFFD8 then .error 5
  else match jpegMarkers bs bs.length 2 {} with
    | .error c => .error c
    | .ok j => match scanMarkers (bs.drop j.scan) j.scan with
      | (_, none) => .error 5
      | (rsts, some (m, off)) =>
        if m = 0xDC ∨ m = 0xDA then .error 4
        else if m ≠ 0xD9 ∨ rsts ≠ (List.range (j.intervals - 1)).map (· % 8) then .error 5
        else if off + 2 < bs.length ∧ Config.payloadOpen bs then .error 5
        else .ok j

/-! ## Steering (R439, R440) -/

/-- A rectangle of pixels [x0, x1) x [y0, y1). -/
structure Rect where
  x0 : Nat
  y0 : Nat
  x1 : Nat
  y1 : Nat
  deriving DecidableEq, Repr

/-- The rectangles of a steering entry. -/
def steerRects (entry : List Byte) : List Rect :=
  (List.range (byteOf entry 14)).map (fun i =>
    ⟨leAt entry (16 + 8 * i) 2, leAt entry (18 + 8 * i) 2, leAt entry (20 + 8 * i) 2, leAt entry (22 + 8 * i) 2⟩)

/-- Does a steering entry apply to a record's image (R439)? -/
def steerApplies (entry : List Byte) (seq sensor frame : Nat) (j : Jpeg) : Bool :=
  decide (byteOf entry 15 = 1) && decide (leAt entry 0 8 = seq) && decide (leAt entry 12 2 = sensor)
    && decide ((leAt entry 8 4 + 1) % 2 ^ 32 = frame) && decide (1 ≤ byteOf entry 14 ∧ byteOf entry 14 ≤ 6)
    && (steerRects entry).all (fun r => decide (r.x0 < r.x1 ∧ r.x1 ≤ j.w ∧ r.y0 < r.y1 ∧ r.y1 ≤ j.h)) && decide (j.dri ≠ 0)

/-- A rectangle expanded by a margin and clipped to the image. -/
def Rect.grow (r : Rect) (margin : Nat) (j : Jpeg) : Rect :=
  ⟨r.x0 - margin, r.y0 - margin, min (r.x1 + margin) j.w, min (r.y1 + margin) j.h⟩

/-- Does MCU m meet a rectangle? -/
def Jpeg.meets (j : Jpeg) (m : Nat) (r : Rect) : Bool :=
  let x := m % j.mcus.1 * 8 * j.hs
  let y := m / j.mcus.1 * 8 * j.vs
  decide (x < r.x1 ∧ r.x0 < x + 8 * j.hs ∧ y < r.y1 ∧ r.y0 < y + 8 * j.vs)

/-- The intervals a decode under rectangles decodes. -/
def Jpeg.chosen (j : Jpeg) (rects : List Rect) : List Nat :=
  (List.range j.intervals).filter (fun i =>
    (List.range j.dri).any (fun k => decide (i * j.dri + k < j.mcus.1 * j.mcus.2) && rects.any (j.meets (i * j.dri + k))))

/-- The component planes of a decode: the size of plane q, and its samples with skipped MCUs at Y 0 and Cb, Cr 128. -/
def Jpeg.plane (j : Jpeg) (q : Nat) : Nat × Nat := if q = 0 then (j.w, j.h) else (ceilDiv j.w j.hs, ceilDiv j.h j.vs)

/-- A sample of plane q. chosen: the intervals decoded (none for a full decode). -/
def Jpeg.sample (j : Jpeg) (bs : List Byte) (chosen : Option (List Nat)) (q x y : Nat) : Nat :=
  let px := if q = 0 then 8 * j.hs else 8
  let py := if q = 0 then 8 * j.vs else 8
  let m := y / py * j.mcus.1 + x / px
  match chosen with
  | none => (Config.jpegSample bs q x y).toNat
  | some l => if l.contains (m / j.dri) then (Config.jpegSample bs q x y).toNat else if q = 0 then 0 else 128

/-! ## The resampler (R436) -/

/-- A natural number as a value. -/
def FV.nat (n : Nat) : FV := .fin false n 0

/-- x rounded from a quotient of naturals (the divisor is not 0): round_fp32(a / b), to 24 bits and a sticky bit. -/
def quot32 (a b : Nat) : FV :=
  let q := a * 2 ^ 64 / b
  let sticky := if a * 2 ^ 64 % b = 0 then 0 else 1
  (FV.fin false (2 * q + sticky) (-65)).round32

/-- The floor of a value that is not negative. -/
def FV.floorNat : FV → Nat
  | .fin _ m e => if 0 ≤ e then m * 2 ^ e.toNat else m / 2 ^ (-e).toNat
  | _ => 0

/-- Where an output coordinate samples a plane of cw samples: x0, x1 and fx. -/
def tap (cw outW ox : Nat) : Nat × Nat × FV :=
  let k := quot32 cw outW
  let s1 := ((FV.fin false (2 * ox + 1) (-1)).mul k).round32
  let s2 := (s1.add (.fin true 1 (-1))).round32
  let top := FV.nat (cw - 1)
  let sx := if s2.lt .zero then .zero else if top.lt s2 then top else s2
  let x0 := sx.floorNat
  (x0, min (x0 + 1) (cw - 1), sx.add (FV.nat x0).minus)

/-- A fused multiply-add, rounded once. -/
def fma (a b c : FV) : FV := ((a.mul b).add c).round32

/-- A plane sampled at an output position. -/
def resample (cw ch outW outH : Nat) (q : Nat → Nat → Nat) (ox oy : Nat) : FV :=
  let (x0, x1, fx) := tap cw outW ox
  let (y0, y1, fy) := tap ch outH oy
  let at' (y x : Nat) : FV := FV.nat (q x y)
  let top := fma fx ((at' y0 x1).add (at' y0 x0).minus) (at' y0 x0)
  let bot := fma fx ((at' y1 x1).add (at' y1 x0).minus) (at' y1 x0)
  fma fy ((bot.add top.minus).round32) top

/-- The conversion of ITU-T T.871, in FP32, left to right. -/
def toRgb (y cb cr : FV) : List FV :=
  let off (c : FV) : FV := (c.add (FV.nat 128).minus).round32
  let times (k : Nat) (c : FV) : FV := ((decode32 k).mul (off c)).round32
  [(y.add (times 0x3FB374BC cr)).round32,
    (((y.add (times 0x3EB03298 cb).minus).round32).add (times 0x3F36D19E cr).minus).round32,
    (y.add (times 0x3FE2D0E5 cb)).round32]

/-- The cast of an image element to OUT_FMT: R107 with SAT 1; UINT8 rounds to nearest even and clamps to 0 to 255. -/
def imageCast (fmt : Nat) (x : FV) : Nat :=
  if fmt = 5 then
    match x with
    | .nan => Config.intakeNan 0 % 256
    | .inf n => if n then 0 else 255
    | .fin n m e => if n then 0 else min (roundAt m e 0) 255
  else (castElem fmt true x).code

/-- The three channels of an output pixel before the cast, from the samples of its planes. -/
def Jpeg.pixel (j : Jpeg) (outW outH : Nat) (sample : Nat → Nat → Nat → Nat) (entry : List Byte) (ox oy : Nat) : List Nat :=
  let v (q : Nat) : FV := resample (j.plane q).1 (j.plane q).2 outW outH (sample q) ox oy
  let rgb := if j.comps = 1 then [v 0, v 0, v 0] else toRgb (v 0) (v 1) (v 2)
  (rgb.zipIdx).map (fun x =>
    imageCast (byteOf entry 2) (fma x.1 (decode32 (leAt entry (16 + 4 * x.2) 4)) (decode32 (leAt entry (28 + 4 * x.2) 4))))

/-- The bytes of an image output, in HWC or CHW order. -/
def Jpeg.output (j : Jpeg) (bs : List Byte) (chosen : Option (List Nat)) (entry : List Byte) : List Byte :=
  let w := leAt entry 12 2
  let h := leAt entry 14 2
  let px := (List.range (w * h)).map (fun i => j.pixel w h (j.sample bs chosen) entry (i % w) (i / w))
  let codes := if bit (byteOf entry 1) 2 then ((List.range 3).map (fun c => px.map (fun l => (l[c]?).getD 0))).flatten else px.flatten
  rowBytes (byteOf entry 2) codes

/-! ## Range sweeps (R437, R438) -/

/-- sin and cos of 2 pi k / 65,536 for k up to 8,192, as integers in units of 2^-150, by their Taylor series. -/
def taylor (k : Nat) (odd : Bool) : Int :=
  let x := 4483830866258026290414848827874327273881010766 * k / 32768
  let one := 2 ^ 150
  let step (n : Nat) (t : Nat) : Nat := t * x / one * x / one / ((n + 1) * (n + 2))
  ((List.range 20).foldl (fun (acc : Int × Nat) i =>
    let n := 2 * i + (if odd then 1 else 0)
    (if i % 2 = 0 then acc.1 + acc.2 else acc.1 - acc.2, step n acc.2)) (0, if odd then x else one)).1

/-- The correctly rounded FP32 values of cos and sin of 2 pi az / 65,536. -/
def cosSin (az : Nat) : FV × FV :=
  let r := az % 16384
  let c := if r ≤ 8192 then taylor r false else taylor (16384 - r) true
  let n := if r ≤ 8192 then taylor r true else taylor (16384 - r) false
  let v (x : Int) : FV := (FV.ofInt x (-150) false).round32
  match az / 16384 % 4 with
  | 0 => (v c, v n)
  | 1 => (v (-n), v c)
  | 2 => (v (-c), v (-n))
  | _ => (v n, v (-c))

/-- A point of a sweep: x, y, z, r and the intensity. -/
structure Point where
  x : FV
  y : FV
  z : FV
  r : FV
  i : Byte
  deriving DecidableEq, Repr

/-- A sweep's POINTS and RINGS. -/
def sweepPoints (bs : List Byte) : Nat := leAt bs 0 4
/-- The RINGS of a sweep. -/
def sweepRings (bs : List Byte) : Nat := leAt bs 4 2

/-- Is a sweep bad with code 6 (R437)? Whether a RINGS outside 1 to 256 is an error of its own the spec leaves open. -/
def sweepBad (bs : List Byte) (maxPoints : Nat) : Bool :=
  let n := sweepPoints bs
  let k := sweepRings bs
  decide (maxPoints < n ∨ bs.length ≠ 16 + 8 * k + 8 * n) || (List.range n).any (fun i => decide (k ≤ byteOf bs (16 + 8 * k + 8 * i + 4)))
    || (decide (k = 0 ∨ 256 < k) && Config.payloadOpen bs)

/-- Point k of a sweep. -/
def sweepPoint (bs : List Byte) (k : Nat) : Point :=
  let at' := 16 + 8 * sweepRings bs + 8 * k
  let ring := byteOf bs (at' + 4)
  let flags := byteOf bs (at' + 6)
  let range := leAt bs at' 2
  let r := if bit flags 1 then .nan else if bit flags 0 ∨ range = 0 then .zero else ((FV.nat range).mul (decode32 (leAt bs 8 4))).round32
  let t := (r.mul (decode32 (leAt bs (16 + 8 * ring) 4))).round32
  let (c, n) := cosSin (leAt bs (at' + 2) 2)
  { x := (t.mul c).round32, y := (t.mul n).round32, z := (r.mul (decode32 (leAt bs (20 + 8 * ring) 4))).round32, r := r
    i := BitVec.ofNat 8 (byteOf bs (at' + 5)) }

/-- The floor of a value. -/
def FV.floor : FV → Option Int
  | .fin n m e =>
    let d : Int := 2 ^ (-e).toNat
    some ((scaled n m e (min e 0)) / (if e < 0 then d else 1))
  | _ => none

/-- The bin of a coordinate: floor(round_fp32((x - X0) x INV_CELL)), below g. -/
def binOf (x origin inv : FV) (g : Nat) : Option Nat :=
  match (((x.add origin.minus).mul inv).round32).floor with
  | some i => if 0 ≤ i ∧ i < g then some i.toNat else none
  | none => none

/-- The cell of a point, if the binner takes it (R438). -/
def cellOf (entry : List Byte) (p : Point) : Option Nat :=
  let f (off : Nat) : FV := decode32 (leAt entry off 4)
  if FV.lt .zero p.r ∧ ¬ p.r.isNan ∧ ¬ p.x.isNan ∧ ¬ p.x.isInf ∧ ¬ p.y.isNan ∧ ¬ p.y.isInf then
    match binOf p.x (f 40) (f 48) (leAt entry 52 2), binOf p.y (f 44) (f 48) (leAt entry 54 2) with
    | some i, some j => some (j * leAt entry 52 2 + i)
    | _, _ => none
  else none

/-- The larger of two values of z; a zero of either sign counts with +0 the larger. -/
def zmax (a b : FV) : FV := if a.isNan ∨ b.isNan then .nan else if a.lt b ∨ (a.isZero ∧ b.isZero ∧ a.neg) then b else a

/-- The bin planes of a sweep: COUNT, then ZMAX. -/
def binPlanes (entry : List Byte) (ps : List Point) : List Byte :=
  let cells := leAt entry 52 2 * leAt entry 54 2
  let found := ps.filterMap (fun p => (cellOf entry p).map (fun c => (c, p.z)))
  let acc := found.foldl (fun (l : List (Nat × Nat × FV)) x =>
    let old := (Table.get? l x.1).getD (0, .inf true)
    Table.put l x.1 (old.1 + 1, zmax old.2 x.2)) []
  let cell (c : Nat) : Nat × FV := (Table.get? acc c).getD (0, .inf true)
  let z (v : FV) : Nat := if v.isNan then Config.intakeNan 1 else encode32 v
  ((List.range cells).map (fun c => leBytes 4 (cell c).1)).flatten ++ ((List.range cells).map (fun c => leBytes 4 (z (cell c).2))).flatten

/-- The arrays of a sweep output: x, y, z, r and the intensities, zeros from POINTS on. -/
def sweepOutput (ps : List Point) (maxPoints : Nat) : List Byte :=
  let arr (f : Point → FV) : List Byte := (ps.map (fun p => leBytes 4 (encode32 (f p)))).flatten ++ List.replicate (4 * (maxPoints - ps.length)) 0
  arr (·.x) ++ arr (·.y) ++ arr (·.z) ++ arr (·.r) ++ ps.map (·.i) ++ List.replicate (maxPoints - ps.length) 0

end Sys2Proof.Machine
end

