-- ==== Sys2Proof/Machine/Tiers.lean ====
section
/-! DEFINITION. Memory tiers: allocation (R290), TMOVE and routes (R294, R297, R301 to R305), demotion (R311), lending (R307) and the
substitution log (R303). -/
namespace Sys2Proof.Machine

/-! ## Allocation -/

/-- GO in TMV_ALLOC captures the request, unless one already runs (R290). -/
def State.allocGo (s : State) (p : Nat) : State :=
  if (Table.get? s.tiers.allocs p).isSome then s
  else
    let k := TMV_ALLOC p
    let req : AllocReq := { tier := s.fld k F.TMV_ALLOC_TIER, lowest := s.fld k F.TMV_ALLOC_LOWEST, big := s.flag k F.TMV_ALLOC_SIZE
                            movable := s.flag k F.TMV_ALLOC_MOVABLE, count := s.fld k F.TMV_ALLOC_COUNT_M1 + 1
                            va := s.addr (TMV_ALLOC_VA p) F.TMV_ALLOC_VA_VA_LO F.TMV_ALLOC_VA_VA_HI }
    (s.setTiers { s.tiers with allocs := Table.put s.tiers.allocs p req }).setBit k F.TMV_ALLOC_GO

/-- The bytes of a frame of a request. -/
def AllocReq.size (q : AllocReq) : Nat := if q.big then 0x200000 else 0x10000

/-- Is a request well formed (R313)? -/
def AllocReq.ok (q : AllocReq) : Bool :=
  decide (1 ≤ q.tier ∧ q.tier ≤ 4 ∧ q.tier ≤ q.lowest ∧ q.lowest ≤ 4 ∧ q.va % q.size = 0)

/-- Do n bytes more stay within the partition's quota of a tier? -/
def State.fitsQuota (s : State) (p t n : Nat) : Bool :=
  match s.quota p t with | some q => decide (s.use p t + n / 0x10000 ≤ q) | none => true

/-- The tiers tried in spill order: the first that accepts, with its base, or whether a quota turned any away (R287, R290). -/
def State.tryTiers (s : State) (p n align first : Nat) : List Nat → Bool → Option (Nat × Nat) × Bool
  | [], quota => (none, quota)
  | t :: ts, quota =>
    if (s.tierRanges t).all (fun r => decide (r.2 = 0)) then s.tryTiers p n align first ts quota
    else if s.overQuota p t then (if t = first then (none, true) else s.tryTiers p n align first ts true)
    else if ¬ s.fitsQuota p t n then s.tryTiers p n align first ts true
    else match s.freeRun t n align with
      | some b => (some (t, b), quota)
      | none => s.tryTiers p n align first ts quota

/-- The result of an allocation. -/
def allocResult (tier status base : Nat) : Word := BitVec.ofNat 64 (tier + status * 16 + 128 + base / 0x10000 * 0x10000)

/-- ALLOC_COMPLETE: the run is given out in the first tier that accepts it, zeroed, or the result says OVER, FULL or bad request
(R290, R291). -/
def execAllocComplete (p : Nat) (s : State) : Out :=
  match Table.get? s.tiers.allocs p with
  | none => .next s
  | some q =>
    let s1 := (s.setTiers { s.tiers with allocs := Table.del s.tiers.allocs p }).clrBit (TMV_ALLOC p) F.TMV_ALLOC_GO
    let n := q.count * q.size
    if ¬ q.ok then .next (s1.putReg (TMV_ALLOC_RESULT p) (allocResult 0 4 0))
    else match s1.tryTiers p n q.size q.tier ((List.range (q.lowest + 1 - q.tier)).map (q.tier + ·)) false with
      | (none, quota) => .next (s1.putReg (TMV_ALLOC_RESULT p) (allocResult 0 (if quota then 2 else 3) 0))
      | (some (t, base), _) =>
        let frames := (List.range q.count).foldl (fun l i => Table.put l (base + i * q.size)
          { part := p, big := q.big, movable := q.movable, va := q.va + i * q.size, run := s.tiers.nextRun, stamp := s.watch }) s1.tiers.frames
        let s2 := s1.setTiers { s1.tiers with frames := frames, nextRun := s.tiers.nextRun + 1 }
        .next (((s2.zeroRange base n).putReg (TMV_ALLOC_RESULT p) (allocResult t 1 base)).tierLevels p).tookFree

/-! ## TMOVE -/

/-- The frames of a partition in a range of recorded addresses, in ascending order of address. -/
def State.framesAt (s : State) (p va n : Nat) : List (Nat × Frame) :=
  (s.tiers.frames.filter (fun e => decide (e.2.part = p) && !e.2.zeroing && decide (va ≤ e.2.va) && decide (e.2.va < va + n))).foldr
    (fun e l => l.takeWhile (fun x => decide (x.2.va < e.2.va)) ++ e :: l.dropWhile (fun x => decide (x.2.va < e.2.va))) []

/-- Is a range exactly the union of whole frames of the partition (R297)? -/
def State.wholeFrames (s : State) (p va n : Nat) : Bool :=
  let fs := s.tiers.frames.filter (fun e => decide (e.2.part = p) && !e.2.zeroing && decide (e.2.va < va + n) && decide (va < e.2.va + e.2.size))
  fs.all (fun e => decide (va ≤ e.2.va) && decide (e.2.va + e.2.size ≤ va + n))
    && (List.range (n / 0x10000)).all (fun i => fs.any (fun e =>
      decide (e.2.va ≤ va + i * 0x10000) && decide (va + i * 0x10000 < e.2.va + e.2.size)))

/-- The CODEs of an ill-formed TMOVE (R294, R297, R313), none for a well-formed one. -/
def State.moveCodes (s : State) (r : Run) (b : List Byte) : List Nat :=
  let tier := byteOf b 2
  let cls := byteOf b 3
  let route := leAt b 4 2
  let va := leAt b 8 8
  let len := leAt b 16 8
  let deadline := leAt b 24 8
  errs [(decide (tier = 0 ∨ 4 < tier ∨ 3 < cls ∨ (tier ≤ 2 ∧ cls = 0) ∨ (cls = 1 ∧ r.be)), 2),
    (!zerosAt b 1 1 || !zerosAt b 7 1 || !zerosAt b 58 6 || decide (va % 0x10000 ≠ 0 ∨ len % 0x10000 ≠ 0 ∨ 2 ^ 48 ≤ deadline)
      || (decide (cls ≠ 3) && !zerosAt b 48 8), 3),
    (!s.wholeFrames r.part va len, 4),
    (decide ((cls = 1 ∧ deadline < s.watch) ∨ (2 ≤ cls ∧ deadline ≤ s.watch)), 5),
    (decide (2 ≤ cls) && (decide (256 ≤ route) || !s.ownsRoute r.part route
      || (match Table.get? s.tiers.routes route with | some x => decide (x.deadline ≠ deadline) | none => false)), 6),
    (decide (byteOf b 6 ≠ 0xFF) && (decide (4 ≤ byteOf b 6) || !s.ownsGroup r.part (byteOf b 6)), 7),
    (decide (leAt b 56 2 ≠ 0xFFFF) && !s.ownsBuoy r.part (leAt b 56 2), 8)]
  ++ (if cls = 0 ∧ deadline ≠ 0 then [3, 5] else []) ++ (if cls < 2 ∧ route ≠ 0xFFFF then [3, 6] else [])

/-- The fetch of a TMOVE. -/
def fetchOf (b : List Byte) (todo : List Nat) : Fetch :=
  { tier := byteOf b 2, cls := byteOf b 3, route := leAt b 4 2, group := byteOf b 6, va := leAt b 8 8, len := leAt b 16 8
    deadline := leAt b 24 8, step := leAt b 32 8, tag := leAt b 40 8, alt := leAt b 48 8, buoy := leAt b 56 2, todo := todo
    missed := false, late := false, replay := false }

/-- A routed TMOVE arms its route (R301). -/
def State.armRoute (s : State) (e : Nat) (r : Run) (f : Fetch) : State :=
  let x : RouteFetch := ⟨e, f.step, f.tag, f.alt, f.cls, f.group, s.tagOf r, 0⟩
  let arm := (Table.get? s.tiers.routes f.route).getD ⟨f.deadline, r.part, []⟩
  s.setTiers { s.tiers with routes := Table.put s.tiers.routes f.route { arm with fetches := arm.fetches ++ [x] } }

/-- TMOVE starts: its route is armed and the mover visits the frames of its range. In replay a captured record of its STEP and TAG
makes it a MISS that moves nothing (R295, R301, R305). -/
def execTmove (e : Nat) (s : State) : Out :=
  .next (s.runCmd e (isOp 0x60) (fun r b s1 =>
    let codes := s1.moveCodes r b
    if codes ≠ [] then .ill codes
    else
      let f := fetchOf b ((s1.framesAt r.part (leAt b 8 8) (leAt b 16 8)).map (·.1))
      let routed := decide (2 ≤ f.cls)
      let s2 := if routed then s1.armRoute e r f else s1
      if routed ∧ f.group < 4 ∧ s2.capturing f.group f.step 2 then
        match s2.capSection (r.access e 0) f.group 32 with
        | .error t => .trap t
        | .ok rows =>
          if rows.any (fun x => decide (leAt x 0 8 = f.step) && decide (leAt x 8 8 = f.tag)) then .stay (s2.fetchOver e r f false)
          else .stay ((s2.modRun e (fun r => { r with wait := .busy, fetch := some { f with replay := true } })).pumpFetch e)
      else .stay ((s2.modRun e (fun r => { r with wait := .busy, fetch := some f })).pumpFetch e)))

/-! ## Routes -/

/-- The 32 bytes of a substitution record (R303). -/
def subBytes (x : RouteFetch) (deadline : Nat) : List Byte :=
  leBytes 8 x.step ++ leBytes 8 x.tag ++ leBytes 8 x.alt ++ leBytes 6 deadline ++ leBytes 1 x.cls ++ leBytes 1 x.group

/-- A record goes into a partition's circular log of 32-byte records: written at its head, lost where there is no log, where it
overwrites another, or where its write fails (R303, R444, log entry 26). -/
def State.circular (s : State) (p base log2 headKey lostKey : Nat) (bs : List Byte) : State :=
  if log2 < 4 ∨ 20 < log2 then s.count lostKey
  else
    let head := (s.reg headKey).toNat
    let s1 := s.count headKey
    match s1.pStore p (base + head % 2 ^ log2 * 32) bs with
    | none => s1.count lostKey
    | some s2 => if 2 ^ log2 ≤ head then s2.count lostKey else s2

/-- A substitution record is written (R302, R303). -/
def State.substitute (s : State) (p deadline : Nat) (x : RouteFetch) : State :=
  let s1 := (s.circular p (s.addr (TMV_SUB_ADDR p) F.TMV_SUB_ADDR_ADDR_LO F.TMV_SUB_ADDR_ADDR_HI) (s.fld (TMV_SUB_CTRL p) F.TMV_SUB_CTRL_LOG2)
    (TMV_SUB_HEAD p) (TMV_SUB_LOST p) (subBytes x deadline)).count TMV_MISSES
  if s1.flag TMV_CFG F.TMV_CFG_MISS_EVENT then s1.engineEvent x.engine p 0x601 [x.tag, x.step, x.planTag] else s1

/-- A route's selector set. -/
def State.setRoute (s : State) (route side : Nat) : State :=
  let w := (s.reg (TMV_ROUTE_SEL (route / 64))).toNat
  let b := 2 ^ (route % 64)
  let cleared := if w.testBit (route % 64) then w - b else w
  s.putReg (TMV_ROUTE_SEL (route / 64)) (BitVec.ofNat 64 (cleared + side * b))

/-- ROUTE_SETTLE: at the start of its deadline watch an armed route settles: side 1 after any MISS, else side 0; every MISS leaves
its record; the route is disarmed (R301, R302). -/
def execRouteSettle (route : Nat) (s : State) : Out :=
  match Table.get? s.tiers.routes route with
  | none => .next s
  | some arm =>
    if s.watch < arm.deadline then .next s
    else
      let misses := arm.fetches.filter (fun x => x.outcome ≠ 1)
      let s1 := (s.setRoute route (!misses.isEmpty).toNat).setTiers { s.tiers with routes := Table.del s.tiers.routes route }
      .next (misses.foldl (fun s x => s.substitute arm.part arm.deadline x) s1)

/-! ## Quotas and demotion -/

/-- GO in TMV_FW_RESET sets a partition's T3 writes to zero (R312, R313). -/
def State.fwReset (s : State) (p : Nat) : State := (s.putReg (TMV_FW_USED p) 0).tierLevels p

/-- The bytes demoted at most per partition and watch (R311, R313). -/
def State.demoteRate (s : State) : Nat :=
  let mib := s.xfld TMV_X_TUNE F.TMV_X_TUNE_DEMOTE_MIB
  if mib = 0 then orElse (fget (s.inEffect TMV_CFG) F.TMV_CFG_DEMOTE_RATE) 2 * 2 ^ 30 else mib * 2 ^ 20

/-- The least recently touched frame of a list, the lower address first among equals (R311). -/
def oldest (l : List (Nat × Frame)) : Option (Nat × Frame) :=
  l.foldl (fun best e => match best with
    | some b => if e.2.stamp < b.2.stamp then some e else best
    | none => some e) none

/-- The first tier below that takes a frame: a free run there, and the partition not over quota (R311). -/
def State.demoteTo (s : State) (p base : Nat) (f : Frame) : List Nat → Option State
  | [] => none
  | t :: ts => if s.overQuota p t then s.demoteTo p base f ts
    else match s.startMove base t f none with
      | some s1 => some s1
      | none => s.demoteTo p base f ts

/-- DEMOTION: the least recently touched MOVABLE frame of an over-quota tier starts to move down, within the watch's rate; with no
such frame left, or no room below, DEMOTE_BLOCKED is set (R311, log entry 27). -/
def execDemotion (p tier : Nat) (s : State) : Out :=
  if tier = 0 ∨ 4 < tier ∨ ¬ s.overQuota p tier then .next s
  else
    let movable := s.tiers.frames.filter (fun e => decide (e.2.part = p) && e.2.movable && !e.2.zeroing
      && decide ((s.regionRaw e.1).tier = tier))
    if movable.isEmpty then .next (s.setBit (TMV_PART_STATUS p) F.TMV_PART_STATUS_DEMOTE_BLOCKED)
    else match oldest (movable.filter (fun e => !e.2.transit)) with
      | none => .next s
      | some (base, f) =>
        let n := (s.moveUnit base f).2
        let done := (Table.get? s.tiers.demoted p).getD 0
        if s.demoteRate < done + n then .next s
        else match s.demoteTo p base f ((List.range (4 - tier)).map (tier + 1 + ·)) with
          | none => .next (s.setBit (TMV_PART_STATUS p) F.TMV_PART_STATUS_DEMOTE_BLOCKED)
          | some s1 => .next (s1.setTiers { s1.tiers with demoted := Table.put s1.tiers.demoted p (done + n) })

/-! ## Lending -/

/-- The first n bytes of lent ranges. -/
def keepRanges : List (Nat × Nat × Nat) → Nat → List (Nat × Nat × Nat)
  | [], _ => []
  | (j, b, m) :: rest, n => if n = 0 then [] else (j, b, min m n) :: keepRanges rest (n - min m n)

/-- The bytes of lent ranges. -/
def lentBytes (l : List (Nat × Nat × Nat)) : Nat := l.foldl (fun n r => n + r.2.2) 0

/-- Lending j shrinks to n bytes: the last frames lent return to the pool as zeros. -/
def State.shrinkLent (s : State) (j n : Nat) : State :=
  let mine := s.tiers.lent.filter (fun r => r.1 = j)
  let keep := keepRanges mine n
  let s1 := mine.foldl (fun s r =>
    match keep.find? (fun k => k.2.1 = r.2.1) with
    | some k => s.zeroRange (r.2.1 + k.2.2) (r.2.2 - k.2.2)
    | none => s.zeroRange r.2.1 r.2.2) s
  s1.setTiers { s1.tiers with lent := s.tiers.lent.filter (fun r => r.1 ≠ j) ++ keep }

/-- Lending j grows to n bytes of a tier's free frames; none where the pool lacks them. -/
def State.growLent (s : State) (j tier n : Nat) : Option State :=
  let have' := lentBytes (s.tiers.lent.filter (fun r => r.1 = j))
  let gaps := s.freeGaps tier
  let k := s.anyNat % gaps.length
  (takeFrames (gaps.drop k ++ gaps.take k) (n - have')).map (fun l =>
    (s.setTiers { s.tiers with lent := s.tiers.lent ++ l.map (fun r => (j, r.1, r.2)) }).tookFree)

/-- A refused lend: the register keeps its value and the alarm is set (R307). -/
def State.lendRefused (s : State) : State := s.alarmTmv F.TMV_ALARM_LEND_REFUSED

/-- A write to TMV_LEND j lends, resizes or withdraws memory, or is refused (R307). The borrower's allocated use, which no message
tells the lender, is a free number of GiB (log entry 28). -/
def State.lend (s0 : State) (j : Nat) (w : Word) : State :=
  let s := s0.tookFree
  let old := s.reg (TMV_LEND j)
  let on := fget old F.TMV_LEND_EN = 1
  let used := if on then s0.anyNat % (fget old F.TMV_LEND_SIZE + 1) else 0
  let size := fget w F.TMV_LEND_SIZE
  let tier := fget w F.TMV_LEND_TIER
  let same := fget old F.TMV_LEND_TIER = tier ∧ fget old F.TMV_LEND_BORROWER = fget w F.TMV_LEND_BORROWER
  if fget w F.TMV_LEND_EN = 0 then
    if used = 0 then (s.shrinkLent j 0).putReg (TMV_LEND j) w else s.lendRefused
  else if tier = 0 ∨ 2 < tier ∨ size < used ∨ (¬ same ∧ used ≠ 0) then s.lendRefused
  else
    let base := s.shrinkLent j (if same then size * 2 ^ 30 else 0)
    match base.growLent j tier (size * 2 ^ 30) with
    | some s1 => s1.putReg (TMV_LEND j) w
    | none => s.lendRefused

end Sys2Proof.Machine
end

