-- ==== Sys2Proof/Machine/Samples.lean ====
section
/-! DEFINITION. Samples: the order of a draw (R430), finding a sample in its container (R418 to R422, R433), and making the outputs of
its records (R434 to R440, R443). -/
namespace Sys2Proof.Machine

/-! ## Order (R430) -/

/-- mix of R430, on 64-bit values. -/
def orderMix (z : Nat) : Nat :=
  let z1 := (z ^^^ (z >>> 30)) * 0xC7B14E926A3DF05B % 2 ^ 64
  let z2 := (z1 ^^^ (z1 >>> 27)) * 0x9D2F83A615C4E7B9 % 2 ^ 64
  z2 ^^^ (z2 >>> 31)

/-- ceil(log2(n)) for n of 1 or more. -/
def clog2 (n : Nat) : Nat := if n ≤ 1 then 0 else Nat.log2 (n - 1) + 1

/-- One Feistel pass of perm over 2h bits. -/
def orderPass (seed epoch h x : Nat) : Nat :=
  let mask := 2 ^ h - 1
  let (l, r) := (List.range 8).foldl (fun (a : Nat × Nat) k =>
    let f := orderMix (seed ^^^ (epoch * 0x8F3A61C52B9D07E3 % 2 ^ 64) ^^^ (k * 0x5C17E9A43D60B2F1 % 2 ^ 64) ^^^ a.2) &&& mask
    (a.2, a.1 ^^^ f)) (x >>> h, x &&& mask)
  (l <<< h) ||| r

/-- The cycle walk: passes until the value is below n. -/
def orderWalk (seed epoch n h : Nat) : Nat → Nat → Nat
  | 0, x => x
  | fuel + 1, x => let y := orderPass seed epoch h x; if y < n then y else orderWalk seed epoch n h fuel y

/-- perm of R430: the pass is a bijection on 2h bits, so the walk from a position below n comes back below n within 2^(2h) passes. -/
def orderPerm (seed epoch n p : Nat) : Nat :=
  let h := ceilDiv (clog2 (max n 4)) 2
  orderWalk seed epoch n h (2 ^ (2 * h)) p

/-- The sample at a position of a draw (R430, R431). -/
def Draw.sampleAt (d : Draw) (i : Nat) : Nat :=
  if d.mode = 0 then orderPerm d.seed d.epoch d.n (d.pos + i) else d.pos + i

/-! ## Containers -/

/-- Where a sample's block body is read from: memory, or what a decompressor made of it. -/
inductive Body where
  | mem (va : Nat)
  | raw (bs : List Byte)
  deriving DecidableEq, Repr

/-- Bytes of a body. -/
def State.bodyRead (s : State) (a : Access) (b : Body) (off n : Nat) : Except Trap (List Byte × State) :=
  match b with
  | .mem va => s.vRead a (va + off) n
  | .raw bs => .ok ((bs.drop off).take n, s)

/-- What is found out about a sample: where its block's body is (with its size and the sample's index in it), or a bad code. -/
structure Found where
  body : Body
  raw : Nat
  idx : Nat
  samples : Nat
  stored : Nat
  deriving DecidableEq, Repr

/-- The entries of a block index between lo and hi (exclusive), halved until one is left: the last whose FIRST is not above the
sample (R419). -/
def State.findBlock (s : State) (a : Access) (index local' : Nat) : Nat → Nat → Nat → Except Trap (Nat × State)
  | 0, lo, _ => .ok (lo, s)
  | fuel + 1, lo, hi =>
    if hi ≤ lo + 1 then .ok (lo, s)
    else
      let mid := (lo + hi) / 2
      match s.vRead a (index + 16 * mid) 16 with
      | .error t => .error t
      | .ok (e, s1) => if leAt e 8 8 ≤ local' then s1.findBlock a index local' fuel mid hi else s1.findBlock a index local' fuel lo mid

/-- Are the checks of a file header met (R418, R443): magic, CRC, K, bounds, and that the container holds the source's samples? need: the
samples the source takes from it. -/
def fileOk (h : List Byte) (k bytes need : Nat) : Bool :=
  decide (leAt h 0 4 = 0x46435342 ∧ leAt h 60 4 = crc32c (h.take 60) ∧ byteOf h 6 = k ∧ 1 ≤ leAt h 8 8 ∧ need ≤ leAt h 8 8
    ∧ 1 ≤ leAt h 16 4 ∧ leAt h 20 4 ≤ 8388608 ∧ leAt h 24 8 % 16 = 0 ∧ leAt h 24 8 + 16 * leAt h 16 4 ≤ bytes)

/-- Are the checks of a block header met (R420, R443)? room: the container's bytes after the header. -/
def blockOk (b : List Byte) (first local' rawMax room : Nat) : Bool :=
  decide (leAt b 0 4 = 0x4B4C4253 ∧ leAt b 28 4 = crc32c (b.take 28) ∧ byteOf b 4 ≤ 1 ∧ leAt b 8 8 = first ∧ 1 ≤ leAt b 16 4
    ∧ local' < first + leAt b 16 4 ∧ leAt b 20 4 ≤ room ∧ leAt b 24 4 ≤ rawMax ∧ (byteOf b 4 = 0 → leAt b 20 4 = leAt b 24 4))

/-- The body of a block whose header stands at hdr: in memory, or decompressed (R433). -/
def State.openBlock (s : State) (a : Access) (hdr first local' : Nat) (b : List Byte) : Except Trap (Except Nat Found × State) :=
  if byteOf b 4 = 0 then .ok (.ok ⟨.mem (hdr + 32), leAt b 24 4, local' - first, leAt b 16 4, 0⟩, s)
  else match s.vRead a (hdr + 32) (leAt b 20 4) with
    | .error t => .error t
    | .ok (st, s1) => match Config.zstd st with
      | none => .ok (.error 3, s1)
      | some raw => if raw.length ≠ leAt b 24 4 then .ok (.error 3, s1)
        else .ok (.ok ⟨.raw raw, raw.length, local' - first, leAt b 16 4, leAt b 20 4⟩, s1)

/-- The block that holds a sample of a container (R418 to R420). -/
def State.findSample (s : State) (a : Access) (base bytes k need local' : Nat) : Except Trap (Except Nat Found × State) :=
  if bytes < 64 then .ok (.error 2, s)
  else match s.vRead a base 64 with
    | .error t => .error t
    | .ok (h, s1) =>
      if ¬ fileOk h k bytes need ∨ leAt h 8 8 ≤ local' then .ok (.error 2, s1)
      else match s1.findBlock a (base + leAt h 24 8) local' 33 0 (leAt h 16 4) with
        | .error t => .error t
        | .ok (i, s2) => match s2.vRead a (base + leAt h 24 8 + 16 * i) 16 with
          | .error t => .error t
          | .ok (e, s3) =>
            let off := leAt e 0 8
            let first := leAt e 8 8
            if off % 32 ≠ 0 ∨ bytes < off + 32 ∨ local' < first ∨ (i = 0 ∧ first ≠ 0) then .ok (.error 2, s3)
            else match s3.vRead a (base + off) 32 with
              | .error t => .error t
              | .ok (b, s4) =>
                if ¬ blockOk b first local' (leAt h 20 4) (bytes - off - 32) then .ok (.error 2, s4)
                else s4.openBlock a (base + off) first local' b

/-! ## Records -/

/-- What the records of a sample come to: the bad codes found, each with the kind of engine that found it; outputs by slot offset; the
SEQUENCE, FRAME and SENSOR of record 0; POINTS of the first sweep; intervals decoded and present; steered records; body bytes read. -/
structure Made where
  bad : List (Nat × Nat) := []
  outs : List (Nat × List Byte) := []
  ident : Option (Nat × Nat × Nat) := none
  points : Option Nat := none
  decoded : Nat := 0
  intervals : Nat := 0
  steered : Nat := 0
  bytes : Nat := 0
  deriving DecidableEq, Repr

/-- A JPEG record: its structure, the steering entry where it applies, and the output. rects: the applied entry's expanded
rectangles. -/
def Made.image (m : Made) (entry payload : List Byte) (j : Jpeg) (rects : Option (List Rect)) : Made :=
  let chosen := rects.map j.chosen
  let which := chosen.getD (List.range j.intervals)
  { m with bad := if which.any (Config.jpegError payload) then m.bad ++ [(5, 10)] else m.bad
           outs := m.outs ++ [(leAt entry 4 4, j.output payload chosen entry)]
           decoded := m.decoded + which.length, intervals := m.intervals + j.intervals, steered := m.steered + rects.isSome.toNat }

/-- A range sweep. -/
def Made.sweep (m : Made) (entry payload : List Byte) : Made :=
  let maxPoints := leAt entry 8 4
  let m1 := if m.points.isNone then { m with points := some (sweepPoints payload) } else m
  if sweepBad payload maxPoints then { m1 with bad := m1.bad ++ [(6, 12)] }
  else
    let ps := (List.range (sweepPoints payload)).map (sweepPoint payload)
    let bins := if bit (byteOf entry 1) 1 then [(leAt entry 56 4, binPlanes entry ps)] else []
    { m1 with outs := m1.outs ++ [(leAt entry 4 4, sweepOutput ps maxPoints)] ++ bins }

/-- A raw tensor. -/
def Made.tensor (m : Made) (entry payload : List Byte) : Made :=
  let max := leAt entry 8 4
  if max < payload.length then { m with bad := m.bad ++ [(6, 8)] }
  else { m with outs := m.outs ++ [(leAt entry 4 4, payload ++ List.replicate (max - payload.length) 0)] }

/-- Is steering off: STEER_OFF set in the expert register (R450)? -/
def State.steerOff (s : State) (n : Nat) : Bool := decide (s.xfld (INT_X_TUNE n) F.INT_X_TUNE_STEER_OFF = 1)

/-- One record's payload is decoded as its profile entry says. -/
def State.decodeRecord (s : State) (a : Access) (d : Draw) (entry head payload : List Byte) (m : Made) : Except Trap (Made × State) :=
  if byteOf entry 0 = 2 then .ok (m.sweep entry payload, s)
  else if byteOf entry 0 = 3 then .ok (m.tensor entry payload, s)
  else match jpegParse payload with
    | .error c => .ok ({ m with bad := m.bad ++ [(c, 10)] }, s)
    | .ok j =>
      if bit d.flags 0 ∧ bit (byteOf entry 1) 0 ∧ ¬ s.steerOff (eDie a.engine - 14) then
        match s.vRead a (d.steer + 64 * ((leAt head 8 8 ^^^ leAt head 6 2) % 2 ^ d.steerLog)) 64 with
        | .error t => .error t
        | .ok (e, s1) =>
          let on := steerApplies e (leAt head 8 8) (leAt head 6 2) (leAt head 16 4) j
          .ok (m.image entry payload j (if on then some ((steerRects e).map (fun r => r.grow d.margin j)) else none), s1)
      else .ok (m.image entry payload j none, s)

/-- The records of a sample in turn (R421, R443). One that runs past its block's raw body is bad; which code of the table it gets the
spec leaves open: 1, 2 or 6. -/
def State.records (s : State) (a : Access) (d : Draw) (f : Found) : List (List Byte) → Nat → Made → Except Trap (Made × State)
  | [], _, m => .ok (m, s)
  | entry :: rest, off, m =>
    let outside : Made := { m with bad := m.bad ++ [(1, 8), (2, 8), (6, 8)] }
    if f.raw < off + 28 then .ok (outside, s)
    else match s.bodyRead a f.body off 24 with
      | .error t => .error t
      | .ok (head, s1) =>
        let n := leAt head 0 4
        let size := (28 + n + 7) / 8 * 8
        if f.raw < off + size then .ok (outside, s1)
        else match s1.bodyRead a f.body (off + 24) (n + 4) with
          | .error t => .error t
          | .ok (bs, s2) =>
            let payload := bs.take n
            let id := (leAt head 8 8, leAt head 16 4, leAt head 6 2)
            let m1 := { m with ident := some (m.ident.getD id), bytes := m.bytes + size }
            if leAt bs n 4 ≠ crc32c (head ++ payload) then s2.records a d f rest (off + size) { m1 with bad := m1.bad ++ [(1, 8)] }
            else
              let wrong := byteOf head 4 ≠ byteOf entry 0 ∨ id ≠ m1.ident.getD id
              let m2 := if wrong then { m1 with bad := m1.bad ++ [(7, 8)] } else m1
              if byteOf head 4 ≠ byteOf entry 0 then s2.records a d f rest (off + size) m2
              else match s2.decodeRecord a d entry head payload m2 with
                | .error t => .error t
                | .ok (m3, s3) => s3.records a d f rest (off + size) m3

/-- A sample of a draw is read and decoded. -/
def State.makeSample (s : State) (a : Access) (d : Draw) (n : Nat) : Except Trap (Made × State) :=
  match (d.containers.zip (d.containers.drop 1 ++ [(0, 0, d.n)])).filter (fun c => decide (c.1.2.2 ≤ n)) |>.getLast? with
  | none => .ok ({ bad := [(2, 8)] }, s)
  | some (c, next) =>
    if d.n ≤ n then .ok ({ bad := [(2, 8)] }, s)
    else match s.findSample a c.1 c.2.1 d.k (next.2.2 - c.2.2) (n - c.2.2) with
      | .error t => .error t
      | .ok (.error code, s1) => .ok ({ bad := [(code, if code = 3 then 9 else 8)] }, s1)
      | .ok (.ok f, s1) =>
        if f.raw < 4 * f.samples then .ok ({ bad := [(1, 8), (2, 8), (6, 8)] }, s1)
        else match s1.bodyRead a f.body (4 * f.idx) 4 with
          | .error t => .error t
          | .ok (o, s2) =>
            if leNat o % 8 ≠ 0 then .ok ({ bad := [(1, 8), (2, 8), (6, 8)] }, s2)
            else match s2.records a d f d.profile (leNat o) { bytes := if f.stored = 0 then 4 else f.stored } with
              | .error t => .error t
              | .ok (m, s3) => .ok (if f.stored = 0 then m else { m with bytes := f.stored }, s3)

/-! ## Profiles (R423) -/

/-- The output fields of a profile entry: offsets and bytes in the slot. -/
def entryOutputs (e : List Byte) : List (Nat × Nat) :=
  let off := leAt e 4 4
  if byteOf e 0 = 1 then [(off, 3 * leAt e 12 2 * leAt e 14 2 * elemBits (byteOf e 2) / 8)]
  else if byteOf e 0 = 2 then
    (off, 17 * leAt e 8 4) :: (if bit (byteOf e 1) 1 then [(leAt e 56 4, 8 * leAt e 52 2 * leAt e 54 2)] else [])
  else [(off, leAt e 8 4)]

/-- Does a profile entry keep R423? -/
def entryOk (e : List Byte) : Bool :=
  let type := byteOf e 0
  let size (n : Nat) : Bool := decide (1 ≤ n ∧ n ≤ 16384)
  decide (1 ≤ type ∧ type ≤ 3) && (entryOutputs e).all (fun o => decide (o.1 % 64 = 0 ∧ 64 ≤ o.1))
    && (if type = 1 then (decide (byteOf e 2 = 0) || decide (byteOf e 2 = 3) || decide (byteOf e 2 = 5) || decide (byteOf e 2 = 6))
          && size (leAt e 12 2) && size (leAt e 14 2)
        else if type = 2 then decide (leAt e 8 4 % 64 = 0) && (!bit (byteOf e 1) 1
          || decide (1 ≤ leAt e 52 2 ∧ leAt e 52 2 ≤ 4096 ∧ 1 ≤ leAt e 54 2 ∧ leAt e 54 2 ≤ 4096))
        else true)

/-- Do the output fields of a profile lie within a slot, without overlap (R429)? -/
def layoutOk (profile : List (List Byte)) (slotBytes : Nat) : Bool :=
  let outs := (profile.map entryOutputs).flatten
  outs.all (fun o => decide (o.1 + o.2 ≤ slotBytes))
    && (List.range outs.length).all (fun i => (List.range i).all (fun k =>
      match outs[i]?, outs[k]? with
      | some x, some y => decide (x.1 + x.2 ≤ y.1 ∨ y.1 + y.2 ≤ x.1)
      | _, _ => true))

end Sys2Proof.Machine
end

