-- ==== Sys2Proof/Machine/Intake.lean ====
section
/-! DEFINITION. The intake commands and the work of a draw (R415, R424 to R431, R442 to R446). -/
namespace Sys2Proof.Machine

/-! ## Contexts -/

/-- The key of context c of an order generator. -/
def drawKey (e c : Nat) : Nat := 4 * (eDie e - 14) + c

/-- The draw in a context. -/
def State.draw (s : State) (e c : Nat) : Option Draw := Table.get? s.draws (drawKey e c)

/-- A context takes a draw, and its register shows it (R449); RUNNING is shown from the engines' runs. -/
def State.putDraw (s : State) (e c : Nat) (d : Draw) : State :=
  (s.setDraws (Table.put s.draws (drawKey e c) d)).putReg (INT_CTX_STATUS (eDie e - 14) c)
    (fset (fset (fset 0 F.INT_CTX_STATUS_STATE (if d.finished.length = d.count then 2 else 1)) F.INT_CTX_STATUS_PARTITION d.part)
      F.INT_CTX_STATUS_FINISHED d.finished.length)

/-- A context becomes FREE. -/
def State.freeDraw (s : State) (e c : Nat) : State :=
  (s.setDraws (Table.del s.draws (drawKey e c))).putReg (INT_CTX_STATUS (eDie e - 14) c) 0

/-- Every context is freed, as when a Chart takes effect (R428). -/
def State.freeDraws (s : State) : State :=
  (List.range 8).foldl (fun s k => s.freeDraw (eId (14 + k / 4) 13 0) (k % 4)) s

/-- Does an IRUN run on context c of an intake die? -/
def State.drawRunning (s : State) (n c : Nat) : Bool :=
  match Table.get? s.eng.runs (eId (14 + n) 13 0) with
  | some r => decide (r.wait = .busy) && decide (r.ctx = c)
  | none => false

/-! ## Ill-formed commands (R429, R449) -/

/-- The kinds of engines that feed an order generator's slot (R415). -/
def State.feeds (s : State) (e : Nat) (r : Run) : List Nat :=
  match Table.get? s.adm.plans r.plan with
  | none => []
  | some pl => match pl.slots[r.slot]? with
    | none => []
    | some x => (pl.slots.filter (fun y => decide (y.stream = 0) && decide (eDie y.engine = eDie e) && decide (y.off = x.off)
        && decide (y.gran = x.gran) && decide (y.count = x.count))).map (fun y => eKind y.engine)

/-- Do the feed slots lack an engine that a profile needs? -/
def State.lacksFeed (s : State) (e : Nat) (r : Run) (profile : List (List Byte)) : Bool :=
  let ks := s.feeds e r
  !([8, 9, 10, 11].all (fun k => ks.contains k))
    || (profile.any (fun p => decide (byteOf p 0 = 2) && bit (byteOf p 1) 1) && !ks.contains 12)

/-- The CODEs of an IOPEN's own fields: 2 context state, 3 alignment or reserved field, 5 range, 7 group or buoy. -/
def State.iopenCodes (s : State) (e : Nat) (r : Run) (b : List Byte) : List Nat :=
  let flags := byteOf b 3
  let steer := bit flags 0
  errs [(decide (byteOf b 2 < 4) && (s.draw e (byteOf b 2)).isSome, 2),
    (decide (4 ≤ flags ∨ leAt b 32 8 % 64 ≠ 0 ∨ leAt b 40 8 % 64 ≠ 0 ∨ leAt b 48 8 % 4096 ≠ 0 ∨ leAt b 56 8 % 64 ≠ 0)
      || !zerosAt b 68 60, 3),
    (decide (3 ≤ byteOf b 1 ∨ 4 ≤ byteOf b 2 ∨ leAt b 20 4 = 0 ∨ 65536 < leAt b 20 4 ∨ 268435456 < leAt b 28 4 ∨ 1024 < leAt b 64 2)
      || (if steer then decide (byteOf b 5 < 4 ∨ 16 < byteOf b 5) else decide (byteOf b 5 ≠ 0)), 5),
    (decide (byteOf b 4 < 4) && !s.ownsGroup r.part (byteOf b 4), 7),
    (decide (leAt b 6 2 ≠ 0xFFFF) && !s.ownsBuoy r.part (leAt b 6 2), 7)]
  ++ (if byteOf b 4 < 4 ∨ byteOf b 4 = 0xFF then [] else [5, 7])
  ++ (if leAt b 28 4 % 4096 = 0 then [] else [3, 5])
  ++ (if steer ∨ leAt b 56 8 = 0 then [] else [3, 5])

/-- The container entries of a source table. -/
def containersOf : Nat → List Byte → List (Nat × Nat × Nat)
  | 0, _ => []
  | n + 1, bs => (leAt bs 0 8, leAt bs 8 8, leAt bs 16 8) :: containersOf n (bs.drop 32)

/-- Does a source table keep R422? -/
def drawSourceOk (n k : Nat) (cs : List (Nat × Nat × Nat)) : Bool :=
  decide (1 ≤ n ∧ n < 2 ^ 32 ∧ 1 ≤ k ∧ k ≤ 8) && cs.all (fun c => decide (c.1 % 64 = 0))
    && decide (cs.head?.map (·.2.2) = some 0) && (cs.zip (cs.drop 1)).all (fun p => decide (p.1.2.2 < p.2.2.2))

/-- The entries of a profile. -/
def profileOf : Nat → List Byte → List (List Byte)
  | 0, _ => []
  | n + 1, bs => bs.take 64 :: profileOf n (bs.drop 64)

/-- The draw of an IOPEN. -/
def drawOf (r : Run) (b : List Byte) (seed n k : Nat) (cs : List (Nat × Nat × Nat)) (profile : List (List Byte)) : Draw :=
  { part := r.part, mode := byteOf b 1, flags := byteOf b 3, group := byteOf b 4, steerLog := byteOf b 5, buoy := leAt b 6 2
    step := leAt b 8 8, epoch := leAt b 16 4, count := leAt b 20 4, pos := leAt b 24 4, slotBytes := leAt b 28 4, dest := leAt b 48 8
    steer := leAt b 56 8, margin := leAt b 64 2, tag := leAt b 66 2, seed := seed, n := n, k := k, containers := cs, profile := profile }

/-- IOPEN: the source table and the profile are copied into the context with the partition's seed, and the context is OPEN. Its own
fields are checked before the tables are read (R425, R429, log entry 33). -/
def execIopen (e : Nat) (s : State) : Out :=
  .next (s.runCmd e (isOp 0x70) (fun r b s1 =>
    let a := r.access e 0
    if s1.iopenCodes e r b ≠ [] then .ill (s1.iopenCodes e r b)
    else match s1.vRead a (leAt b 32 8) 64 with
      | .error t => .trap t
      | .ok (h, s2) =>
        let k := byteOf h 8
        let count := leAt h 12 4
        if count = 0 ∨ 4096 < count ∨ k = 0 ∨ 8 < k then .ill [4]
        else match s2.vRead a (leAt b 32 8 + 64) (32 * count) with
          | .error t => .trap t
          | .ok (ct, s3) => match s3.vRead a (leAt b 40 8) (64 * k) with
            | .error t => .trap t
            | .ok (pt, s4) =>
              let d := drawOf r b (s.reg (UPD_SEED r.part)).toNat (leAt h 0 8) k (containersOf count ct) (profileOf k pt)
              let codes := errs [(!drawSourceOk d.n k d.containers || !d.profile.all entryOk || !layoutOk d.profile d.slotBytes, 4),
                (decide (d.n < d.pos + d.count), 5), (s4.lacksFeed e r d.profile, 6)]
              if codes ≠ [] then .ill codes else .done (s4.putDraw e (byteOf b 2) d)))

/-- The CODEs of an ill-formed IRUN or ICLOSE. reserved: no byte that must be zero is set. -/
def State.drawCodes (s : State) (e : Nat) (r : Run) (c : Nat) (reserved : Bool) : List Nat :=
  errs [(!reserved, 3), (decide (4 ≤ c), 5)]
    ++ (if 4 ≤ c then [] else match s.draw e c with
      | none => [2]
      | some d => errs [(decide (d.part ≠ r.part), 2), (s.lacksFeed e r d.profile, 6)])

/-- A running IRUN completes. -/
def State.irunOver (s : State) (e : Nat) : State := s.advance e 64

/-- IRUN: the draw of a context runs; on a DONE context it completes at once (R426). -/
def execIrun (e : Nat) (s : State) : Out :=
  .next (s.runCmd e (isOp 0x71) (fun r b s1 =>
    let c := byteOf b 2
    let codes := s1.drawCodes e r c (zerosAt b 1 1 && zerosAt b 3 1 && zerosAt b 8 56)
      ++ errs [(decide (leAt b 4 4 < 10000 ∨ 250000 < leAt b 4 4), 5)]
    if codes ≠ [] then .ill codes
    else match s1.draw e c with
      | none => .ill [2]
      | some d => if d.finished.length = d.count then .done s1
        else .stay (s1.modRun e (fun r => { r with wait := .busy, ctx := c }))))

/-- IRUN_BUDGET_EXPIRE: BUDGET_NS passes; the feed engines save their state and the IRUN completes (R426). -/
def execIrunBudgetExpire (e : Nat) (s : State) : Out :=
  match Table.get? s.eng.runs e with
  | some r => if eKind e = 13 ∧ r.wait = .busy then .next (s.irunOver e) else .next s
  | none => .next s

/-- ICLOSE frees its context and abandons an unfinished draw (R428). -/
def execIclose (e : Nat) (s : State) : Out :=
  .next (s.runCmd e (isOp 0x72) (fun r b s1 =>
    let codes := s1.drawCodes e r (byteOf b 2) (zerosAt b 1 1 && zerosAt b 3 61)
    if codes ≠ [] then .ill codes else .done (s1.freeDraw e (byteOf b 2))))

/-! ## Samples -/

/-- What a slot is filled with: sample, identifier, position, and in replay the captured record's FLAGS. -/
structure Pick where
  n : Nat
  id : Nat
  pos : Nat
  flags : Option Nat
  deriving DecidableEq, Repr

/-- Is the draw's group in replay for its step (R446)? -/
def State.drawReplay (s : State) (d : Draw) : Bool := decide (d.group < 4) && s.capturing d.group d.step 2

/-- The samples of an ANY draw not yet taken. -/
def Draw.left (d : Draw) : List Nat := ((List.range d.count).map (d.pos + ·)).filter (fun n => !d.taken.contains n)

/-- The sample that finishes in a slot: by the captured record in replay (none where no record matches), in ANY mode one of those left,
which the spec leaves open, else the draw's order (R430, R431, R446). -/
def State.pickSample (s : State) (a : Access) (d : Draw) (slot : Nat) : Except Trap (Option Pick) :=
  if s.drawReplay d then
    match s.capSection a d.group 24 with
    | .error t => .error t
    | .ok rows => .ok ((rows.find? (fun x => decide (leAt x 0 8 = d.step ∧ leAt x 20 2 = d.tag ∧ leAt x 22 2 = slot))).map (fun x =>
        ⟨leAt x 8 4, leAt x 8 8, leAt x 16 4, some (byteOf x 24)⟩))
  else
    let n := if d.mode = 2 then (d.left[s.anyNat % d.left.length]?).getD d.pos else d.sampleAt slot
    .ok (some ⟨n, d.epoch * 2 ^ 32 + n, if d.mode = 2 then n else d.pos + slot, none⟩)

/-- May this slot finish next: not finished yet, and in ANY mode outside replay the lowest slot not taken (R431)? -/
def State.slotDue (s : State) (d : Draw) (slot : Nat) : Bool :=
  decide (slot < d.count) && !d.finished.contains slot
    && (decide (d.mode ≠ 2) || s.drawReplay d || (List.range slot).all (fun k => d.finished.contains k))

/-- The 64-byte header of a sample slot (R442). What the spec does not say of a bad sample's header is free. -/
def State.slotHeader (s : State) (d : Draw) (x : Pick) (m : Made) (code : Nat) (steered : Bool) : List Byte :=
  let any (k : Nat) : Nat := Config.freeNat (s.free + k)
  let ident := m.ident.getD (any 3, any 4, any 5)
  let num (k v : Nat) : Nat := if code = 0 then v else any k
  leBytes 8 x.id ++ leBytes 8 ident.1 ++ leBytes 4 ident.2.1 ++ leBytes 1 (if code = 0 then 1 else 2) ++ leBytes 1 code
    ++ leBytes 1 ((bit d.flags 1).toNat + 2 * steered.toNat) ++ leBytes 1 0 ++ leBytes 2 ident.2.2 ++ leBytes 2 0
    ++ leBytes 4 (num 6 (m.points.getD 0)) ++ leBytes 4 (num 7 m.decoded) ++ leBytes 4 (num 8 m.intervals) ++ leBytes 8 d.step
    ++ leBytes 4 x.pos ++ leBytes 12 0

/-- The 32-byte record of a finished sample (R444). -/
def idBytes (d : Draw) (x : Pick) (slot : Nat) (bad steered : Bool) : List Byte :=
  leBytes 8 d.step ++ leBytes 8 x.id ++ leBytes 4 x.pos ++ leBytes 2 d.tag ++ leBytes 2 slot
    ++ leBytes 1 (bad.toNat + 2 * (bit d.flags 1).toNat + 4 * steered.toNat + 8 * (decide (d.mode = 2)).toNat)
    ++ leBytes 1 d.group ++ leBytes 6 0

/-- The output bytes of a slot: what was made, or zeros in every output field of a bad sample (R443). -/
def slotOutputs (d : Draw) (m : Made) (bad : Bool) : List (Nat × List Byte) :=
  if bad then ((d.profile.map entryOutputs).flatten).map (fun o => (o.1, List.replicate o.2 0)) else m.outs

/-- A bad sample is counted and recorded, with an event where BAD_EVENT is set (R443, R449). The index of the engine among its kind
the spec leaves open. -/
def State.badSample (s : State) (e : Nat) (d : Draw) (x : Pick) (code kind : Nat) : State :=
  let n := eDie e - 14
  let count := match kindShape kind with | (_, _, m) => m
  let engine := eId (eDie e) kind (s.anyNat % count)
  let last := fset (fset (fset 0 F.INT_BAD_LAST_CODE code) F.INT_BAD_LAST_ENGINE engine) F.INT_BAD_LAST_SAMPLE x.n
  let s1 := ((s.tookFree).count (INT_BAD n)).putReg (INT_BAD_LAST n) last
  if s1.flag (INT_CFG n) F.INT_CFG_BAD_EVENT then s1.engineEvent engine d.part (0x700 + code) [x.n, d.tag] else s1

/-- What follows the writes of a sample: the counters, the identifier list, and the end of the draw (R426, R444, R449). -/
def State.sampleDone (s : State) (e c : Nat) (d : Draw) (x : Pick) (slot code kind steered bytes : Nat) : State :=
  let n := eDie e - 14
  let s1 := ((s.count (INT_SAMPLES n)).count (INT_STEERED n) steered).count (INT_BYTES_IN n) bytes
  let s2 := if code = 0 then s1 else s1.badSample e d x code kind
  let s3 := s2.circular d.part (s2.addr (INT0_IDL_ADDR d.part) F.INT0_IDL_ADDR_ADDR_LO F.INT0_IDL_ADDR_ADDR_HI)
    (s2.fld (INT0_IDL_CTRL d.part) F.INT0_IDL_CTRL_LOG2) (INT0_IDL_HEAD d.part) (INT0_IDL_LOST d.part)
    (idBytes d x slot (decide (code ≠ 0)) (decide (steered ≠ 0)))
  let d1 := { d with finished := slot :: d.finished, taken := x.n :: d.taken }
  let s4 := s3.putDraw e c d1
  if d1.finished.length = d1.count then
    (if d.buoy ≠ 0xFFFF then s4.addOwnBuoy d.part d.buoy 1 else s4).irunOver e
  else s4

/-- In replay, a steering decision that differs from the captured one sets DIVERGED (R446). -/
def State.checkSteered (s : State) (d : Draw) (x : Pick) (steered : Bool) : State :=
  match x.flags with
  | some f => if bit f 2 = steered then s else s.capStatus d.group F.COL_CAP_STATUS_DIVERGED d.tag
  | none => s

/-- A sample is written into its slot, the header last, and finished. -/
def State.writeSample (s : State) (e c : Nat) (r : Run) (d : Draw) (x : Pick) (slot : Nat) (m : Made) : State :=
  let a := r.access e 1
  let base := d.dest + slot * d.slotBytes
  let which := (m.bad[s.anyNat % m.bad.length]?).getD (0, 8)
  let bad := which.1 ≠ 0
  let steered := if bad then (if m.ident.isSome ∧ bit d.flags 0 then (Config.freeBool (s.free + 1)).toNat else 0) else m.steered
  let kind := if which.1 = 6 ∧ which.2 = 12 ∧ Config.freeBool (s.free + 2) then 8 else which.2
  match foldM (fun s o => s.vStore a (base + o.1) o.2) (slotOutputs d m bad) s with
  | .error t => s.trapped e r t
  | .ok s1 => match s1.vStore a base (s1.slotHeader d x m which.1 (decide (steered ≠ 0))) with
    | .error t => s.trapped e r t
    | .ok s2 =>
      (s2.checkSteered d x (decide (steered ≠ 0))).tookFree.sampleDone e c d x slot which.1 kind steered m.bytes

/-- SAMPLE_FINISH: the sample of a slot of the running draw is read, decoded and written, and finishes (R427). All of a slot is
written in this step (log entry 33). -/
def execSampleFinish (e slot : Nat) (s : State) : Out :=
  match Table.get? s.eng.runs e with
  | none => .next s
  | some r =>
    if eKind e ≠ 13 ∨ r.wait ≠ .busy then .next s
    else match s.draw e r.ctx with
      | none => .next s
      | some d =>
        if ¬ s.slotDue d slot then .next s
        else match s.pickSample (r.access e 0) d slot with
          | .error t => .next (s.trapped e r t)
          | .ok none =>
            .next ((s.capStatus d.group F.COL_CAP_STATUS_NO_MATCH d.tag).tookFree.writeSample e r.ctx r d
              ⟨Config.freeNat (s.free + 9) % 2 ^ 32, Config.freeNat (s.free + 10), Config.freeNat (s.free + 11), none⟩ slot { bad := [(8, 13)] })
          | .ok (some x) =>
            match s.tookFree.makeSample (r.access e 0) d x.n with
            | .error t => .next (s.trapped e r t)
            | .ok (m, s1) => .next (s1.writeSample e r.ctx r d x slot m)

end Sys2Proof.Machine
end

