-- ==== Sys2Proof/Machine/Keeper.lean ====
section
/-! DEFINITION. The Keeper: Chart, licence and reset commands (R552 to R555, R566), messages of partitions and of the management sideband (R562,
R602 to R604), debug access (R559 to R561), and provisioning (R613). -/
namespace Sys2Proof.Machine

/-! ## CHT commands (R566) -/

/-- The address in CHT_IMG_ADDR. -/
def State.imageAddr (s : State) : Nat := s.fld CHT_IMG_ADDR F.CHT_IMG_ADDR_ADDR_LO * 8 + s.fld CHT_IMG_ADDR F.CHT_IMG_ADDR_ADDR_HI * 2 ^ 32

/-- Do n bytes lie within PINNED T1 frames of the service partition? -/
def State.servicePinned (s : State) (a n : Nat) : Bool := match s.service? with | some p => s.pinnedT1 p a n | none => false

/-- Is a licence acceptable (R555)? -/
def State.licenceOk (s : State) (b : List Byte) : Bool :=
  decide (leAt b 0 4 = 0x43494C42) && decide (leAt b 4 2 = 1) && Config.ecdsaVerify (Config.romKey 0) (b.take 64) ((b.drop 64).take 96)
    && decide (leAt b 8 8 = (s.reg KPR_ID_DEVICE).toNat) && s.flag KPR_ID_INFO F.KPR_ID_INFO_PROVISIONED

/-- The licences without the one of a serial number. -/
def State.otherLicences (s : State) (serial : Nat) : List Licence := s.boot.licences.filter (fun l => leAt l.image 32 4 ≠ serial)

/-- The code a command will end with (0 for success), from what it finds as it starts: 11 address, 12 slot in effect, 1 to 10 checks, 13
slot not valid, 14 licence refused, 15 store full. -/
def State.chtCode (s : State) (op : ChtOp) (slot : Nat) (image : List Byte) : Nat :=
  match op with
  | .write =>
    if ¬ s.servicePinned s.imageAddr (s.fld CHT_IMG_LEN F.CHT_IMG_LEN_BYTES) then 11
    else if s.fld CHT_STATUS F.CHT_STATUS_IN_EFFECT = slot then 12 else s.verifyChart image
  | .select => if s.slotPresent slot ∧ s.fld (slotReg slot) F.CHT_SLOT_A_FAIL = 0 then 0 else 13
  | .install =>
    if ¬ s.servicePinned s.imageAddr 160 then 11 else if ¬ s.licenceOk image then 14
    else if 16 ≤ (s.otherLicences (leAt image 32 4)).length then 15 else 0
  | .invalidate => 0
  | .reset => 0

/-- The bit of a command in CHT_CTRL. -/
def ChtOp.bit : ChtOp → Fld
  | .write => F.CHT_CTRL_WRITE
  | .select => F.CHT_CTRL_SELECT
  | .install => F.CHT_CTRL_LIC_INSTALL
  | .invalidate => F.CHT_CTRL_INV_SETTINGS
  | .reset => F.CHT_CTRL_RESET

/-- A command starts with SLOT, CHT_IMG_ADDR and CHT_IMG_LEN as they stand; a WRITE that will pass clears the slot's PRESENT bit first
(R553, R566). -/
def State.chtStart (s : State) (op : ChtOp) : State :=
  let slot := s.fld CHT_CTRL F.CHT_CTRL_SLOT
  let n := if op = .write then s.fld CHT_IMG_LEN F.CHT_IMG_LEN_BYTES else if op = .install then 160 else 0
  let inside := s.servicePinned s.imageAddr n
  let image := if inside then (s.rdMem s.imageAddr n).1 else []
  let s1 := if inside then s.noteRead s.imageAddr n none 18 else s
  let f := s1.chtCode op slot image
  let s2 := (s1.setBoot { s1.boot with chtRun := some (op, slot, f, image) }).putFld CHT_STATUS F.CHT_STATUS_OP_STATUS 1
  if op = .write ∧ f = 0 then s2.clrBit (slotReg slot) F.CHT_SLOT_A_PRESENT else s2

/-- A command bit is written: its command starts, or waits behind those before it; a bit that already reads 1 adds nothing (R566). -/
def State.chtRequest (s : State) (op : ChtOp) : State :=
  if s.flag CHT_CTRL op.bit then s
  else
    let s1 := s.setBit CHT_CTRL op.bit
    if s.boot.chtRun.isSome then s1.setBoot { s1.boot with chtQueue := s1.boot.chtQueue ++ [op] } else s1.chtStart op

/-- What a command that succeeds does (R541, R552, R553, R555). -/
def State.chtEffect (s : State) (op : ChtOp) (slot : Nat) (image : List Byte) : State :=
  match op with
  | .write =>
    let b := if slot = 0 then { s.boot with slotA := image } else { s.boot with slotB := image }
    (s.setBoot b).putReg (slotReg slot) (fset (fset 0 F.CHT_SLOT_A_SERIAL (leAt image 20 4)) F.CHT_SLOT_A_PRESENT 1)
  | .select => (s.setBoot { s.boot with selected := slot }).putFld CHT_STATUS F.CHT_STATUS_SELECTED slot
  | .install =>
    s.setBoot { s.boot with licences := s.otherLicences (leAt image 32 4) ++ [⟨image, Config.hmacTag s.boot.identity image⟩] }
  | .invalidate => s.setBoot { s.boot with invalidAll := true }
  | .reset => s.warmReset 7

/-- CHT_COMMAND_END: the running command ends and shows how; the next one starts. RESET resets the package (R552, R566). -/
def execChtCommandEnd (s : State) : Out :=
  match s.boot.chtRun with
  | none => .next s
  | some (op, slot, f, image) =>
    let s1 := s.setBoot { s.boot with chtRun := none }
    if op = .reset then .next (s1.chtEffect .reset 0 [])
    else
      let s2 := if f = 0 then s1.chtEffect op slot image else s1
      let s3 := ((s2.clrBit CHT_CTRL op.bit).putFld CHT_STATUS F.CHT_STATUS_OP_STATUS (if f = 0 then 2 else 3)).putFld CHT_STATUS F.CHT_STATUS_OP_FAIL f
      match s3.boot.chtQueue with
      | [] => .next s3
      | o :: rest => .next ((s3.setBoot { s3.boot with chtQueue := rest }).chtStart o)

/-! ## Messages (R562, R602, R603) -/

/-- Does the Keeper run: domain 92 is on (R604)? -/
def State.keeperOn (s : State) : Bool := s.domainOn 92

/-- A reply word: OP, TAG, STATUS, VALUE. -/
def replyWord (entry status value : Nat) : Word :=
  BitVec.ofNat 64 (entry % 65536 + status % 256 * 65536 + value % 2 ^ 40 * 2 ^ 24)

/-- Has a partition's K2H mailbox room? -/
def State.k2hRoom (s : State) (p : Nat) : Bool := !(s.mbox (3 * p + 2)).resetting && decide ((s.mbox (3 * p + 2)).entries.length < 64)

/-- The Keeper answers: into K2H, or the reply waits for room; to the sideband, in order (R562, R602). -/
def State.answer (s : State) (m : KeeperSource) (w : Word) : State :=
  match m with
  | .mailbox p =>
    if s.k2hRoom p then s.putMbox (3 * p + 2) { s.mbox (3 * p + 2) with entries := (s.mbox (3 * p + 2)).entries ++ [w] }
    else s.setBoot { s.boot with replies := s.boot.replies ++ [(p, w)] }
  | .sideband _ => s.setBoot { s.boot with sideband := s.boot.sideband ++ [w] }

/-- KEEPER_REPLY: a reply that waits goes into its partition's K2H mailbox once that has room (R562). -/
def execKeeperReply (p : Nat) (s : State) : Out :=
  match s.boot.replies.find? (fun r => r.1 = p) with
  | none => .next s
  | some r =>
    if s.k2hRoom p then .next ((s.setBoot { s.boot with replies := s.boot.replies.erase r }).answer (.mailbox p) r.2) else .next s

/-- The message that a source offers: the front of a partition's H2K mailbox, which the Keeper takes up only once it has answered the one
before and not in recovery; or the sideband's entry. -/
def State.offered (s : State) (m : KeeperSource) : Option Nat :=
  if ¬ s.keeperOn then none
  else match m with
    | .mailbox p =>
      if s.boot.recovery ∨ s.boot.replies.any (fun r => r.1 = p) ∨ (s.mbox (3 * p + 1)).resetting then none
      else (s.mbox (3 * p + 1)).entries.head?.map BitVec.toNat
    | .sideband e => if s.boot.block.isSome then none else some (e % 2 ^ 64)

/-- A message taken. -/
def State.takeMessage (s : State) (m : KeeperSource) : State :=
  match m with
  | .mailbox p => s.putMbox (3 * p + 1) { s.mbox (3 * p + 1) with entries := (s.mbox (3 * p + 1)).entries.drop 1 }
  | .sideband _ => s

/-- The OPs a source knows. -/
def knownOps : KeeperSource → List Nat
  | .mailbox _ => [1, 2, 3]
  | .sideband _ => [1, 2, 3, 0x10, 0x11, 0x20]

/-- The Keeper handles a message with an OP: another known OP is not this one, an unknown one is answered with status 4. VALUE is free
where the spec gives none. -/
def State.handle (s : State) (m : KeeperSource) (op : Nat) (body : Nat → State → State) : State :=
  (s.offered m).elim s (fun e =>
    if e % 256 = op then body e (s.takeMessage m)
    else if (knownOps m).contains (e % 256) then s
    else (((s.takeMessage m).answer m (replyWord e 4 s.anyNat))).tookFree)

/-- The sender of a message: the sideband has the rights of the service partition (R602). -/
def State.sender (s : State) : KeeperSource → Option Nat
  | .mailbox p => some p
  | .sideband _ => s.service?

/-- The physical address in a message. -/
def messageAddr (e : Nat) : Nat := e / 65536 * 64

/-- Do n bytes at a message's address lie in PINNED T1 frames of its sender? -/
def State.senderPinned (s : State) (m : KeeperSource) (a n : Nat) : Bool := match s.sender m with | some p => s.pinnedT1 p a n | none => false

/-- PING (R562). -/
def execPing (m : KeeperSource) (s : State) : Out :=
  .next (s.handle m 1 (fun e s1 => s1.answer m (replyWord e 0 (e / 65536 % 2 ^ 40))))

/-- IDENTITY: 128 bytes with the device's number, KPR_ID_INFO and the public key; the last fifteen are free. Status 2 for an address out
of place, 5 without an identity key (R562). -/
def execIdentity (m : KeeperSource) (s : State) : Out :=
  if s.boot.recovery then .next s
  else .next (s.handle m 2 (fun e s1 =>
    let a := messageAddr e
    let codes := (if s1.senderPinned m a 128 then [] else [2]) ++ (if s1.flag KPR_ID_INFO F.KPR_ID_INFO_PROVISIONED then [] else [5])
    let s2 := s1.tookFree
    if codes ≠ [] then (s2.answer m (replyWord e ((codes[s1.anyNat % codes.length]?).getD 2) s2.anyNat)).tookFree
    else
      let bytes := leBytes 8 (s1.reg KPR_ID_DEVICE).toNat ++ leBytes 8 (s1.reg KPR_ID_INFO).toNat ++ (Config.identityPoint s1.boot.identity).take 97
      let rest := (List.range (128 - bytes.length)).map (fun i => Config.freeByte (s1.free + i))
      ((s2.wrMem a (bytes ++ rest) false none 18).answer m (replyWord e 0 s2.anyNat)).tookFree))

/-! ## Debug access -/

/-- Does a token open the port (R559)? -/
def State.tokenOk (s : State) (t : List Byte) : Bool :=
  decide (leAt t 0 4 = 0x47554244) && decide (leAt t 8 8 = (s.reg KPR_ID_DEVICE).toNat) && decide (leAt t 16 8 = (s.reg KPR_DBG_NONCE).toNat)
    && Config.ecdsaVerify (Config.romKey 1) (t.take 96) ((t.drop 96).take 96)

/-- A token is accepted: ERASE_PENDING is set, every slot is terminated, and no engine runs any more: what was accepted, suspended,
held or in flight is dropped (R560). -/
def State.openDebug (s : State) : State :=
  let s1 := (s.setBit KPR_ID_INFO F.KPR_ID_INFO_ERASE_PENDING).setBoot { s.boot with opening := true }
  let s2 := (s1.eng.runs.map (·.1)).foldl (fun s e => s.terminate e 4) s1
  ((((s2.setAdm {}).setEng {}).setExp []).setDraws []).setProbe none

/-- DEBUG_OPEN: only the service partition or the sideband; the token is read and checked, and the nonce changes with each attempt (R559,
R562, R603). -/
def execDebugOpen (m : KeeperSource) (s : State) : Out :=
  if s.boot.recovery then .next s
  else .next (s.handle m 3 (fun e s1 =>
    let a := messageAddr e
    let reply (st : Nat) (x : State) : State := (x.answer m (replyWord e st x.anyNat)).tookFree
    if s1.sender m ≠ s1.service? then reply 1 s1
    else if ¬ s1.senderPinned m a 192 then reply 2 s1
    else
      let ok := s1.tokenOk (s1.rdMem a 192).1
      let s2 := ((s1.noteRead a 192 none 18).putReg KPR_DBG_NONCE s1.anyWord).tookFree
      if ok then reply 0 s2.openDebug else reply 3 s2))

/-- DEBUG_OPENED: the secrets are erased, the record is committed, and the port is enabled (R560). -/
def execDebugOpened (s : State) : Out :=
  if s.boot.opening then .next ((s.eraseDone).setBoot { s.eraseDone.boot with opening := false, portOpen := true }) else .next s

/-! ## The sideband's own messages -/

/-- SB_REPLY_READ: the oldest reply, or zeros (R602). -/
def execSbReplyRead (s : State) : Out :=
  if ¬ s.keeperOn then .next s
  else match s.boot.sideband with
    | [] => .next (s.setResp 0)
    | w :: rest => .next ((s.setBoot { s.boot with sideband := rest }).setResp w)

/-- A provisioning package: chart-signing keys in the slots it names, and for a device without one a new identity key and new flash
keys (R561, R613). -/
def State.provision (s : State) (block : List Nat) : State :=
  let slots := Config.provisionSlots block % 16
  let s1 := (setBits slots 4).foldl (fun s i => s.setBoot { s.boot with keys := Table.put s.boot.keys i (s.free + 1) }) s
  let s2 := s1.putFld KPR_ID_INFO F.KPR_ID_INFO_CHART_KEYS (s1.fld KPR_ID_INFO F.KPR_ID_INFO_CHART_KEYS ||| slots)
  if s2.flag KPR_ID_INFO F.KPR_ID_INFO_PROVISIONED then s2.tookFree
  else
    let s3 := (s2.setBoot { s2.boot with identity := s2.boot.identity + 1 }).setBit KPR_ID_INFO F.KPR_ID_INFO_PROVISIONED
    let s4 := (s3.clrBit KPR_ID_INFO F.KPR_ID_INFO_DEBUG_OPENED).clrBit DFT_STATUS F.DFT_STATUS_NO_KEYS
    (s4.putFld DFT_STATUS F.DFT_STATUS_USER_TIB s4.userTib).tookFree

/-- A whole block: 7 for the firmware copy that runs, 6 where it does not verify, else stored (R602). A firmware copy's content is not held
here: whether a copy verifies is what STAGE_KEEPER brings. -/
def State.blockEnd (s : State) (entry : Nat) (block : List Nat) : State :=
  let kind := entry / 65536 % 256
  let s1 := s.setBoot { s.boot with block := none }
  let reply (st : Nat) (x : State) : State := (x.answer (.sideband entry) (replyWord entry st x.anyNat)).tookFree
  if kind = s.boot.firmware ∧ kind ≠ 0 then reply 7 s1
  else if kind = 0 ∨ 3 < kind ∨ ¬ Config.blockVerifies kind block then reply 6 s1
  else if kind = 3 then reply 0 (s1.provision block) else reply 0 s1

/-- Raw entries of the block under way; it ends with the last one its length names. -/
def State.blockData (s : State) (entry : Nat) (have' raw : List Nat) : State :=
  let all := have' ++ raw
  let n := entry / 2 ^ 24 % 2 ^ 24
  if n ≤ all.length then s.blockEnd entry (all.take n) else s.setBoot { s.boot with block := some (entry, all) }

/-- SB_BLOCK: a BLOCK entry with raw entries, or more raw entries of the block under way; in recovery only firmware copies are served
(R602, R604). -/
def execSbBlock (entry : Nat) (raw : List Nat) (s : State) : Out :=
  if ¬ s.keeperOn then .next s
  else match s.boot.block with
    | some (e, l) => .next (s.blockData e l (entry :: raw))
    | none =>
      let kind := entry / 65536 % 256
      if entry % 256 ≠ 0x20 ∨ (s.boot.recovery ∧ kind ≠ 1 ∧ kind ≠ 2) then .next s
      else .next (s.blockData entry [] raw)

/-- SB_BLOCK_TIMEOUT: a block stops for 1 s: it is discarded and fails with 8 (R602). -/
def execSbBlockTimeout (s : State) : Out :=
  match s.boot.block with
  | some (e, _) => .next (((s.setBoot { s.boot with block := none }).answer (.sideband e) (replyWord e 8 s.anyNat)).tookFree)
  | none => .next s

/-! ## Pins (R604) -/

/-- ALERT_N is driven low while any alarm line is at level 1. -/
def State.alertN (s : State) : Bool := !(List.range 256).any s.lineLevel

end Sys2Proof.Machine
end

