-- ==== Sys2Proof/Machine/Logbook.lean ====
section
/-! DEFINITION. The Keeper's side of the Logbook (R580, R581, R585, R592): records from the dies' queues, the ends of windows, the
closing of an incident, the trace ring and reading the Logbook out. -/
namespace Sys2Proof.Machine

/-- A trace goes to the ring in PINNED T1 frames of the service partition, or is dropped where there is none (R592). -/
def State.writeTrace (s : State) (die : Nat) (bs : List Byte) : State :=
  let a := s.addr LOG_TRACE_ADDR F.LOG_TRACE_ADDR_ADDR_LO F.LOG_TRACE_ADDR_ADDR_HI + (s.reg LOG_TRACE_HEAD).toNat % max s.traceRing 1 * 32
  if s.traceRing ≠ 0 ∧ s.servicePinned a 32 then (s.wrMem a bs false none 18).count LOG_TRACE_HEAD else s.dropTrace die

/-- LOG_EVENT_RECEIVE: the Keeper takes the oldest entry of a die's log queue: an event is recorded or counted as suppressed, a trace goes
to the trace ring (R580, R581). -/
def execLogEventReceive (die : Nat) (s : State) : Out :=
  match s.logQueue die with
  | [] => .next s
  | x :: rest =>
    let s1 := s.setLog { s.log with queues := Table.put s.log.queues die rest }
    match x with
    | .event source part code watch tick args => .next (s1.keepEvent source part code watch tick args)
    | .trace engine kind part plan index watch tick => .next (s1.writeTrace die (traceBytes engine kind part plan index watch tick))

/-- LOG_WINDOW_END: at the end of a window of 4,096 watches one SUPPRESSED record for each source with suppressed events, and one
TRACE_DROP record for each die that dropped traces, in ascending SOURCE order (R580, R581, R588). -/
def execLogWindowEnd (s : State) : Out :=
  if s.watch % 4096 ≠ 0 then .next s
  else
    let s1 := s.log.windows.foldl (fun s w =>
      if w.2.suppressed = 0 then s else s.logRecord 3 0xFF w.1 w.2.first s.watch s.tick [w.2.suppressed]) s
    let s2 := s.log.drops.foldl (fun s d => if d.2 = 0 then s else s.logRecord 4 0xFF (0xFC00 + d.1) 0 s.watch s.tick [d.2]) s1
    .next (s2.setLog { s2.log with windows := [], drops := [] })

/-- QUIET_S in watches: 10 s, or the expert value (R585, R592). -/
def State.quietWatches (s : State) : Nat := orElse (s.xfld LOG_X_TUNE F.LOG_X_TUNE_QUIET_S) 10 * 4000

/-- INCIDENT_CLOSE: the open incident closes QUIET at a watch start, once QUIET_S has passed since its latest occurrence (R585). -/
def execIncidentClose (s : State) : Out :=
  match Table.get? s.log.incidents (s.fld LOG_STATUS F.LOG_STATUS_SLOT) with
  | none => .next s
  | some i =>
    if s.flag LOG_STATUS F.LOG_STATUS_OPEN ∧ i.lastWatch + s.quietWatches ≤ s.watch then .next (s.closeIncident 1) else .next s

/-- A write of LOG_RD_SEL starts a read of the Logbook (R592). -/
def State.selectLog (s : State) : State :=
  (s.clrBit LOG_STATUS F.LOG_STATUS_RD_READY).setLog { s.log with reading := true }

/-- Eight bytes of a list as register words, from a register on. -/
def State.putWords (s : State) (key : Nat → Nat) (bs : List Byte) : Nat → State
  | 0 => s
  | n + 1 => (s.putWords key bs n).putReg (key n) (BitVec.ofNat 64 (leAt bs (8 * n) 8))

/-- LOG_READ_READY: the selected 64 bytes are in LOG_RD_DATA (R592). -/
def execLogReadReady (s : State) : Out :=
  if s.log.reading then
    let bs := s.logBytes (s.fld LOG_RD_SEL F.LOG_RD_SEL_AREA) (s.fld LOG_RD_SEL F.LOG_RD_SEL_SLOT) (s.fld LOG_RD_SEL F.LOG_RD_SEL_INDEX)
    .next (((s.putWords LOG_RD_DATA bs 8).setBit LOG_STATUS F.LOG_STATUS_RD_READY).setLog { s.log with reading := false })
  else .next s

end Sys2Proof.Machine
end

