-- ==== Sys2Proof/Machine/Pcie.lean ====
section
/-! DEFINITION. The PCIe root ports, but for inbound requests: fences (R402), outbound windows (R406), relays (R410), the region
table's cached entries (R412), interrupts (R389, R405) and visibility epochs (R403). -/
namespace Sys2Proof.Machine

/-! ## Fences -/

/-- Is a bus address in a port's FENCE page (R402)? -/
def State.inFence (s : State) (port addr : Nat) : Bool :=
  decide (addr / 4096 * 4096 = s.addr (HST_FENCE_BUS port) F.HST_FENCE_BUS_ADDR_LO F.HST_FENCE_BUS_ADDR_HI)

/-- A fence read arrives: the port discards what it fetched ahead, and the read is under way (R402). -/
def State.fenceRead (s : State) (port : Nat) : State :=
  s.setPcie { s.pcie with ahead := s.pcie.ahead.filter (fun x => x.1 ≠ port), fences := s.pcie.fences ++ [port] }

/-- FENCE_READ. -/
def execFenceRead (port : Nat) (s : State) : Out := .next (s.fenceRead port)

/-- FENCE_READ_COMPLETE: earlier writes are visible through the port, and the read returns zeros (R402). -/
def execFenceReadComplete (port : Nat) (s : State) : Out :=
  if s.pcie.fences.contains port then .next ((s.setPcie { s.pcie with fences := s.pcie.fences.erase port }).setResp 0) else .next s

/-- A completion goes out to a requester behind a port: its data, and whether it is poisoned. -/
def State.complete (s : State) (port : Nat) (bad : Bool) (bs : List Byte) : State :=
  (s.setPcie { s.pcie with done := (port, bad, bs) :: s.pcie.done }).setResp (BitVec.ofNat 64 (leAt bs 0 8))

/-! ## Outbound -/

/-- The bus address of an address in a port's outbound window (R406). -/
def State.busAddr (s : State) (port pa : Nat) : Nat :=
  s.fld (HST_OUT_BASE port) F.HST_OUT_BASE_BASE * 2 ^ 45 + (pa - pcieBase) % 0x200000000000

/-- A read goes out through a port and awaits its completion. -/
def State.outRead (s : State) (port : Nat) (a : Agent) (bus len : Nat) : State :=
  s.setPcie { s.pcie with reads := s.pcie.reads ++ [⟨port, s.pcie.nextTag, a, bus, len⟩], nextTag := s.pcie.nextTag + 1 }

/-- A posted write goes out through a port. -/
def State.outWrite (s : State) (port bus : Nat) (bs : List Byte) : State :=
  s.setPcie { s.pcie with posted := (port, bus, bs) :: s.pcie.posted }

/-- OUTBOUND_WINDOW_ACCESS: an access to a PCIe window goes out as a bus access; a read asks for the 8 bytes at its address (R406). -/
def execOutboundWindowAccess (a : Agent) (addr : Nat) (write : Bool) (data : List Byte) (s : State) : Out :=
  match s.region addr with
  | .pcie port => if write then .next (s.outWrite port (s.busAddr port addr) data) else .next (s.outRead port a (s.busAddr port addr) 8)
  | _ => .next s

/-- A read is over without data: its port counts a poisoned completion, a host core consumes the poison, and a relayed read's requester
has a poisoned completion (R399, R406, R410). -/
def State.readPoisoned (s : State) (r : OutRead) : State :=
  let s1 := (s.count (HST_PORT_POISON r.port)).consumedBy r.agent r.addr
  match r.agent with
  | .port q => s1.complete q true (List.replicate r.len 0)
  | _ => s1

/-- A read's data reach its requester; a relayed read's go on to the port it came from (R406, R410). -/
def State.readDone (s : State) (r : OutRead) (data : List Byte) : State :=
  match r.agent with
  | .port q => s.complete q false data
  | _ => s.setResp (BitVec.ofNat 64 (leAt data 0 8))

/-- The outstanding read with a port's tag. -/
def State.outstanding (s : State) (port tag : Nat) : Option OutRead := s.pcie.reads.find? (fun r => r.port = port && r.tag = tag)

/-- A read leaves those outstanding. -/
def State.closeRead (s : State) (r : OutRead) : State := s.setPcie { s.pcie with reads := s.pcie.reads.erase r }

/-- PCIE_READ_TIMEOUT: a read without a completion in 10 ms returns poison (R406). -/
def execPcieReadTimeout (port tag : Nat) (s : State) : Out :=
  match s.outstanding port tag with
  | some r => .next ((s.closeRead r).readPoisoned r)
  | none => .next s

/-- OUTBOUND_READ_COMPLETION: data, or poison where the completion carries UR or CA; a relayed read's completion returns the same way
(R406, R410). -/
def execOutboundReadCompletion (port tag : Nat) (ok : Bool) (data : List Byte) (s : State) : Out :=
  match s.outstanding port tag with
  | some r => if ok then .next ((s.closeRead r).readDone r data) else .next ((s.closeRead r).readPoisoned r)
  | none => .next s

/-! ## Inbound without device memory -/

/-- An inbound request that nothing accepts: a read answers zeros, a write is discarded, and the port counts it (R408). -/
def State.refuseInbound (s : State) (port : Nat) (kind : PcieKind) (len : Nat) : State :=
  let s1 := s.count (HST_PORT_VIOL port)
  if kind = .write then s1 else s1.complete port false (List.replicate len 0)

/-- The port in whose outbound bus range an address lies (R410). -/
def State.rangePort (s : State) (addr : Nat) : Option Nat :=
  (List.range 8).find? (fun q => s.fld (HST_OUT_BASE q) F.HST_OUT_BASE_BASE = addr / 2 ^ 45)

/-- A request to another port's range is relayed where the arriving port permits it (R408, R410). -/
def State.relay (s : State) (port : Nat) (kind : PcieKind) (addr len : Nat) (data : List Byte) : State :=
  match s.rangePort addr with
  | none => s.refuseInbound port kind len
  | some q =>
    if addr.testBit 63 ∨ ¬ (s.fld (HST_PORT_CFG port) F.HST_PORT_CFG_RELAY).testBit q then s.refuseInbound port kind len
    else if kind = .write then s.outWrite q addr data
    else s.outRead q (.port port) addr len

/-- PCIE_RELAY. -/
def execPcieRelay (port : Nat) (kind : PcieKind) (addr len : Nat) (data : List Byte) (s : State) : Out :=
  .next (s.relay port kind addr len data)

/-! ## The region table -/

/-- The bytes of a region entry (R411). -/
def regionOf (b : List Byte) : RegionEntry :=
  { flags := byteOf b 0, part := byteOf b 1, ports := byteOf b 2, key := leAt b 4 4, va := leAt b 8 8, len := leAt b 16 4, plan := leAt b 20 4 }

/-- GO in HST_REGION_INV: the invalidation of an entry, or of all of them, is under way (R412). -/
def State.regionInv (s : State) : State :=
  if s.pcie.inv.isSome then s
  else
    let e := if s.flag HST_REGION_INV F.HST_REGION_INV_ALL then 65536 else s.fld HST_REGION_INV F.HST_REGION_INV_ENTRY
    (s.setPcie { s.pcie with inv := some e }).setBit HST_REGION_INV F.HST_REGION_INV_GO

/-- REGION_INV_COMPLETE: no cached copy of the entry remains, and GO clears (R412). -/
def execRegionInvComplete (s : State) : Out :=
  match s.pcie.inv with
  | none => .next s
  | some e => .next ((s.setPcie { s.pcie with
      inv := none, regions := if e = 65536 then [] else Table.del s.pcie.regions e }).clrBit HST_REGION_INV F.HST_REGION_INV_GO)

/-! ## Interrupts and epochs -/

/-- DOWNSTREAM_MSI: a device's MSI is delivered to a hart's incoming MSI controller (R389, R405). -/
def execDownstreamMsi (_port hart eiid : Nat) (s : State) : Out := .next (s.setPcie { s.pcie with msis := (hart, eiid) :: s.pcie.msis })

/-- The epoch that a link die has applied. -/
def State.applied (s : State) (n : Nat) : Nat := (Table.get? s.lnk.epochs n).getD 0

/-- EPOCH_TICK: a microsecond passes: HST_VIS_EPOCH advances, and each link die applies epochs up to one that trails by 2 at most, a
free choice, discarding the lines it fetched before (R403). -/
def execEpochTick (s : State) : Out :=
  let s1 := s.count HST_VIS_EPOCH
  let now := (s1.reg HST_VIS_EPOCH).toNat
  let next (n : Nat) : Nat := max (s.applied n) (now - Config.freeNat (s.free + n) % 3)
  .next ((s1.setLnk { s.lnk with
    epochs := (List.range 4).map (fun n => (n, next n)),
    ahead := s.lnk.ahead.filter (fun x => decide (next x.1 ≤ x.2.1)) }).setFree (s.free + 4))

end Sys2Proof.Machine
end

