-- ==== Sys2Proof/Machine/Mmu.lean ====
section
/-! DEFINITION. Misses and walks (R380 to R382, R385), held slots (R376 to R379), invalidations (R383), the transaction trackers
(R37) and the latency probe (R50). -/
namespace Sys2Proof.Machine

/-! ## Walkers -/

/-- GR_WALKERS in effect on a tensor die: 1 to 63, 16 at the basic level (R381, R384). -/
def State.grWalkers (s : State) (d : Nat) : Nat := orElse (s.xfld (MMU_X_WLK d) F.MMU_X_WLK_GR_WALKERS) 16

/-- The walks in progress on a die. -/
def State.walksOn (s : State) (d : Nat) : List Walk := (s.mmu.walks.filter (fun w => w.2.die = d)).map (·.2)

/-- May a miss take a walker of its die (R381)? -/
def State.walkerFree (s : State) (w : Walk) : Bool :=
  let busy := (s.walksOn w.die).length
  if w.guaranteed then decide (busy < 64) else decide (busy + s.grWalkers w.die < 64)

/-- MMU_WLK_STATUS shows the walkers in use (R384). -/
def State.showWalkers (s : State) (d : Nat) : State :=
  let l := s.walksOn d
  (s.putFld (MMU_WLK_STATUS d) F.MMU_WLK_STATUS_BUSY l.length).putFld (MMU_WLK_STATUS d) F.MMU_WLK_STATUS_BUSY_GR
    (l.filter (·.guaranteed)).length

/-- A miss takes a walker. -/
def State.startWalk (s : State) (w : Walk) : State :=
  ((s.setMmu { s.mmu with walks := s.mmu.walks ++ [(s.mmu.nextWalk, w)], nextWalk := s.mmu.nextWalk + 1 }).count (MMU_WALKS w.die)).showWalkers w.die

/-- TLB_MISS: an engine's access finds no entry in its die's TLB; the miss takes a walker, or waits for one (R380, R381). acc: 0 read,
1 write, 2 atomic, 3 command fetch. -/
def execTlbMiss (e va acc : Nat) (s : State) : Out :=
  match Table.get? s.eng.runs e with
  | none => .next s
  | some r =>
    let w : Walk := ⟨walkDie e, e, r.part, va, acc, !r.be⟩
    if (s.mmu.tlb.any (fun t => decide (t.die = w.die ∧ t.part = r.part ∧ t.va ≤ va ∧ va < t.va + t.size))) then .next s
    else
      let s1 := s.count (MMU_TLB_MISSES w.die)
      if s.walkerFree w then .next (s1.startWalk w) else .next (s1.setMmu { s1.mmu with waiting := s1.mmu.waiting ++ [w] })

/-- The addresses of the entries that a walk reads. -/
def State.walkPath (s : State) (va : Nat) : Nat → Nat → Bool → Bool → List Nat
  | level, tbl, twins, small =>
    let at0 := tbl + 8 * tableIndex level small va
    let e := s.rdNat at0 8
    let mine := if twins then [at0, at0 + tableSize level small] else [at0]
    if ¬ e.testBit 0 ∨ 1 < bits e 2 1 then mine
    else match level with
      | 0 => mine
      | l + 1 => mine ++ s.walkPath va l (bits e 51 12 * 4096) (e.testBit 3) (bits e 2 1 = 1)
termination_by structural level => level

/-- The reads of a walk are narrow LC reads (R381). -/
def State.noteWalk (s : State) (w : Walk) : State :=
  if s.flag (MMU_ROOT w.part) F.MMU_ROOT_EN then
    (s.walkPath w.va 4 (s.addr (MMU_ROOT w.part) F.MMU_ROOT_ROOT_LO F.MMU_ROOT_ROOT_HI) false false).foldl
      (fun s a => s.noteRead a 8 (some w.part) w.die) s
  else s

/-- A translation enters a die's TLB of 8,192 entries, in place of one the spec leaves open when it is full. -/
def State.install (s : State) (w : Walk) (l : Leaf) : State :=
  let mine := s.mmu.tlb.filter (fun t => t.die = w.die)
  let base := if mine.length < 8192 then s.mmu.tlb else
    (match mine[s.anyNat % mine.length]? with | some t => s.mmu.tlb.erase t | none => s.mmu.tlb)
  s.setMmu { s.mmu with tlb := ⟨w.die, w.part, w.va - w.va % l.size, l.size, l.pa0, l.pa1, l.sided, l.set, l.r, l.w, l.a, l.pinned, false⟩ :: base }

/-- A change of GR_WALKERS that waited for the die's walks takes effect once none is in progress (R385). -/
def State.settleWalkers (s : State) (d : Nat) : State :=
  if (s.walksOn d).isEmpty then s.setDeferred (s.deferred.filter (fun x => ¬(x.key = MMU_X_WLK d ∧ x.watch ≤ s.watch))) else s

/-- The oldest waiting miss that may take a walker of a die does. -/
def State.nextMiss (s : State) (d : Nat) : State :=
  match s.mmu.waiting.find? (fun w => w.die = d && s.walkerFree w) with
  | some w => (s.setMmu { s.mmu with waiting := s.mmu.waiting.erase w }).startWalk w
  | none => s

/-- What a walk's end does to the access that missed: a fault of the walk (R373), or of the rights and pinning that every access is
checked for (R371). -/
def State.walkFault (s : State) (w : Walk) (res : Except (Nat × Nat) Leaf) : State :=
  match Table.get? s.eng.runs w.engine with
  | none => s
  | some r =>
    if r.part ≠ w.part then s
    else match res with
      | .error (k, l) => s.faultSlot w.engine r w.va k l w.acc
      | .ok f =>
        let granted := if w.acc = 1 then f.w else if w.acc = 2 then f.a else f.r
        if ¬ granted then s.faultSlot w.engine r w.va 7 0xFF w.acc
        else if w.guaranteed ∧ ¬ f.pinned then s.faultSlot w.engine r w.va 8 0xFF w.acc
        else s

/-- WALK_COMPLETE: a walk ends: its translation is installed, or it faults (R370, R373, R374). Its length, a free number of ns, may
become the longest (R384). -/
def execWalkComplete (walk : Nat) (s : State) : Out :=
  match Table.get? s.mmu.walks walk with
  | none => .next s
  | some w =>
    let s1 := (s.setMmu { s.mmu with walks := Table.del s.mmu.walks walk }).noteWalk w
    let ns := min s.anyNat 65535
    let s2 := if s1.fld (MMU_WALK_MAX w.die) F.MMU_WALK_MAX_MAX_NS < ns then s1.putFld (MMU_WALK_MAX w.die) F.MMU_WALK_MAX_MAX_NS ns else s1
    let res := s.walk w.part w.va
    let s3 := match res with | .ok l => s2.tookFree.install w l | .error _ => s2.tookFree
    .next ((((s3.settleWalkers w.die).nextMiss w.die).showWalkers w.die).tookFree.walkFault w res)

/-! ## Held slots -/

/-- The bytes of a spill slot. -/
def spillBytes : Nat := 0xA0000

/-- SPILL_COPY_DONE: the save bank stands in the spill slot, in a form the spec does not give, and the engine may start other
best-effort slots (R376). -/
def execSpillCopyDone (e : Nat) (s : State) : Out :=
  match s.eng.spilling.find? (fun x => x.1 = e) with
  | none => .next s
  | some (_, k, r) =>
    let image := (List.range spillBytes).map (fun i => Config.freeByte (s.free + i))
    let s1 := (s.pStore r.part (s.spillAddr r.part k) image).getD s
    .next (s1.setEng { s1.eng with spilling := s1.eng.spilling.filter (fun x => x.1 ≠ e),
                                   held := Table.put s1.eng.held (64 * r.part + k) ⟨e, r, false⟩ }).tookFree

/-- The engine whose bank is on its way to a spill slot. -/
def State.spillingTo (s : State) (p k : Nat) : Option Nat :=
  (s.eng.spilling.find? (fun x => decide (x.2.2.part = p) && decide (x.2.1 = k))).map (·.1)

/-- A held slot ends: its plan ends as PLAN_ERROR (R379). -/
def State.abortSlot (s : State) (p k : Nat) (engine : Nat) (r : Run) : State :=
  let s1 := s.setEng { s.eng with held := Table.del s.eng.held (64 * p + k),
                                  spilling := s.eng.spilling.filter (fun x => ¬(x.2.2.part = p ∧ x.2.1 = k)) }
  ((((s1.modPlan r.plan (fun pl => pl.setSlot r.slot .terminated)).failPlan r.plan r.slot 6 engine).planEnd r.plan)).settleSpill p

/-- A write to MMU_RESUME: ACTION 0 makes the held slot runnable, ACTION 1 ends it; a FAULT that holds no slot is a bad resume (R379). A
slot still on its way to its spill slot is held too. -/
def State.resumeHeld (s : State) (p k : Nat) (abort : Bool) : State :=
  match Table.get? s.eng.held (64 * p + k), s.eng.spilling.find? (fun x => decide (x.2.2.part = p) && decide (x.2.1 = k)) with
  | some h, _ =>
    if abort then s.abortSlot p k h.engine h.run
    else s.setEng { s.eng with held := Table.put s.eng.held (64 * p + k) { h with resumed := true } }
  | none, some (e, _, r) =>
    if abort then s.abortSlot p k e r
    else match execSpillCopyDone e s with
      | .next s1 => s1.setEng { s1.eng with held := Table.mod s1.eng.held (64 * p + k) (fun h => { h with resumed := true }) }
      | _ => s
  | none, none => s.setBit (MMU_PART_STATUS p) F.MMU_PART_STATUS_BAD_RESUME

/-! ## Invalidation -/

/-- GO in MMU_INV: the partition's entries that cover the range, or all of them, are on their way out; a second GO does nothing more
(R383). -/
def State.invalidate (s : State) (p : Nat) : State :=
  if (Table.get? s.mmu.inv p).isSome then s
  else
    let all := s.flag (MMU_INV p) F.MMU_INV_SCOPE
    let va := s.addr (MMU_INV_VA p) F.MMU_INV_VA_VA_LO F.MMU_INV_VA_VA_HI
    let n := max 1 (s.fld (MMU_INV_LEN p) F.MMU_INV_LEN_PAGES) * 4096
    (s.setMmu { s.mmu with
      inv := Table.put s.mmu.inv p (all, va, n),
      tlb := s.mmu.tlb.map (fun t =>
        if t.part = p ∧ (all ∨ (t.va < va + n ∧ va < t.va + t.size)) then { t with old := true } else t) }).setBit (MMU_INV p) F.MMU_INV_GO

/-- INVALIDATE_COMPLETE: no old entry remains, and GO clears (R383). -/
def execInvalidateComplete (p : Nat) (s : State) : Out :=
  match Table.get? s.mmu.inv p with
  | none => .next s
  | some _ => .next ((s.setMmu { s.mmu with inv := Table.del s.mmu.inv p, tlb := s.mmu.tlb.filter (fun t => ¬(t.part = p ∧ t.old)) }).clrBit
      (MMU_INV p) F.MMU_INV_GO)

/-! ## Trackers -/

/-- TRACKER_ENTRY_FREE: an entry of a full tracker is free, and the requester that has waited longest issues (R37). A matrix engine
counts a free number of frozen cycles under one of its feeder causes. -/
def execTrackerEntryFree (die : Nat) (s : State) : Out :=
  match s.trackerWaits die with
  | [] => .next s
  | e :: rest =>
    if s.trackerFull die then .next s
    else
      let s1 := s.setTracker (if rest.isEmpty then Table.del s.tracker die else Table.put s.tracker die rest)
      if eKind e = 0 ∧ s.flag (TD_ME_CFG die) F.TD_ME_CFG_COUNT_EN then
        .next (((s1.count (TD_ME_CYC_BUSY die (eIdx e)) s.anyNat).count (TD_ME_FROZEN die (eIdx e)) s.anyNat).count
          (if s.anyBool then TD_ME_FRZ_FEED_A die (eIdx e) else TD_ME_FRZ_FEED_B die (eIdx e)) s.anyNat).tookFree
      else .next s1

/-! ## The latency probe -/

/-- START in KPR_PROBE_CTRL begins a probe, unless one runs: the result clears and source, count and address are taken (R50). -/
def State.probeGo (s : State) : State :=
  if s.probe.isSome then s
  else ((s.setProbe (some (s.fld KPR_PROBE_CTRL F.KPR_PROBE_CTRL_SRC_DIE, s.fld KPR_PROBE_CTRL F.KPR_PROBE_CTRL_COUNT,
      s.addr KPR_PROBE_ADDR F.KPR_PROBE_ADDR_ADDR_LO F.KPR_PROBE_ADDR_ADDR_HI))).putReg KPR_PROBE_RESULT 0).setBit KPR_PROBE_CTRL
    F.KPR_PROBE_CTRL_START

/-- PROBE_DONE: the reads have finished: the result, or ERROR for a bad source, a zero count or a target outside HBM; START clears
(R49, R50). -/
def execProbeDone (lo hi mean : Nat) (s : State) : Out :=
  match s.probe with
  | none => .next s
  | some (die, n, pa) =>
    let s1 := (s.setProbe none).clrBit KPR_PROBE_CTRL F.KPR_PROBE_CTRL_START
    if 9 < die ∨ n = 0 ∨ hbmBytes ≤ pa then
      .next (s1.putReg KPR_PROBE_RESULT (fset (fset 0 F.KPR_PROBE_RESULT_ERROR 1) F.KPR_PROBE_RESULT_DONE 1))
    else
      let w := fset (fset (fset (fset (fset 0 F.KPR_PROBE_RESULT_MIN_NS lo) F.KPR_PROBE_RESULT_MAX_NS hi) F.KPR_PROBE_RESULT_MEAN_NS mean)
        F.KPR_PROBE_RESULT_STACK (hbmStack pa)) F.KPR_PROBE_RESULT_DONE 1
      .next ((s1.count (HBM_RD_BYTES (hbmStack pa)) (64 * n)).putReg KPR_PROBE_RESULT w)

end Sys2Proof.Machine
end

