-- ==== Sys2Proof/Machine/RegAccess.lean ====
section
/-! DEFINITION. Register accesses (R6 to R21, R41 to R49, R611, R612): the register at an address of the block windows or of an alias
window, the violations, the values read and what a plain write does. -/
namespace Sys2Proof.Machine

/-! ## Where an access goes -/

/-- A register access: who makes it, the physical address, its bytes, and for a write its data. -/
structure RegAcc where
  rq : Requester
  addr : Nat
  bytes : Nat
  write : Bool
  data : Nat
  deriving DecidableEq, Repr

/-- A register found: its row, the window it lies in, its array indices, its key, and the partition whose instance or window it is. -/
structure Hit where
  desc : RegDesc
  window : Nat
  idx : List Nat
  key : Nat
  part : Option Nat
  deriving DecidableEq, Repr

/-- The block kind of a window and its instance (R43). -/
def blockOf (w : Nat) : Option (Blk × Nat) :=
  (Blk.list.find? (fun b => decide (b.base / 0x100000 ≤ w) && decide (w < b.base / 0x100000 + b.count))).map (fun b => (b, w - b.base / 0x100000))

/-- The array indices of an offset within a row's dimensions, none where the offset is not a register of the row. -/
def idxOf : List (Nat × Nat) → Nat → Option (List Nat)
  | [], r => if r = 0 then some [] else none
  | (n, st) :: ds, r => if r / st < n then (idxOf ds (r % st)).map (fun l => r / st :: l) else none

/-- The snapshot register of a block's window (R15). -/
def csnap : RegDesc := ⟨"CSNAP", 0x7FFF8, [], [], .all, .plain, [⟨F.COUNT, .ro⟩]⟩

/-- A row's indices at an offset of a window's instance n; some rows exist in the first instance only. -/
def RegDesc.at? (d : RegDesc) (n off : Nat) : Option (RegDesc × List Nat) :=
  if off < d.off ∨ (d.vis.contains .first ∧ n ≠ 0) then none else (idxOf d.dims (off - d.off)).map (fun l => (d, l))

/-- The register row at an offset of a window (R43). -/
def rowAt (w off : Nat) : Option (RegDesc × List Nat) :=
  match blockOf w with
  | none => none
  | some (b, n) => if off = 0x7FFF8 then some (csnap, []) else b.regs.findSome? (fun d => d.at? n off)

/-- The windows that the alias slots 0 to 27 show (R46). -/
def aliasSlots : List Nat :=
  [0, 1, 2, 3, 4, 5, 8, 9, 10, 11, 12, 13, 14, 15, 0x20, 0x21, 0x22, 0x30, 0x31, 0x32, 0x33, 0x38, 0x39, 0x40, 0x41, 0x48, 0x49, 0x4A]

/-- Does an address lie in the block windows? -/
def inBlocks (a : Nat) : Bool := decide (regBase ≤ a) && decide (a < regBase + 0x10000000)

/-- Does an address lie in the alias windows? -/
def inAliases (a : Nat) : Bool := decide (aliasBase ≤ a) && decide (a < aliasBase + 0x20000000)

/-- The partition of an alias address. -/
def aliasPart (a : Nat) : Nat := (a - aliasBase) / 0x1000000

/-- The slot of an alias address. -/
def aliasSlot (a : Nat) : Nat := (a - aliasBase) / 0x80000 % 32

/-- The block offset that an alias offset maps to; slot offset 3FFF8H reaches the partition's CSNAP, and 7FFF8H the block's own offset
BFFF8H (R44). -/
def aliasOffset (a : Nat) : Nat :=
  let o := (a - aliasBase) % 0x80000
  if o = 0x3FFF8 then 0x7FFF8 else (if 0x40000 ≤ o then 0x80000 else 0) + o % 0x40000

/-- The instance of KPR_PSEL of a requester (R611). -/
def pselOf : Requester → Nat
  | .keeper => 1 | .sideband => 2 | _ => 0

/-- The partition whose instance a block-window access reaches; none where it exists in no Chart (R611). -/
def State.selected (s : State) (rq : Requester) : Option Nat :=
  let k := KPR_PSEL (pselOf rq)
  let p := if s.flag k F.KPR_PSEL_EN then some (s.fld k F.KPR_PSEL_PARTITION) else s.service?
  p.filter (fun p => s.hasPart p)

/-- The key of a register's instance. -/
def RegDesc.key (d : RegDesc) (w off : Nat) (part : Option Nat) : Nat :=
  (match part with | some p => if d.vis.contains .part then partInst p else 0 | none => 0) + w * 0x100000 + off

/-- The register that an access reaches: none where no register, or no instance of it, lies there. -/
def State.hit (s : State) (x : RegAcc) : Option Hit :=
  let a := x.addr - x.addr % 8
  if inBlocks a then
    let w := (a - regBase) / 0x100000
    let off := (a - regBase) % 0x100000
    match rowAt w off with
    | none => none
    | some (d, idx) =>
      if d.vis.contains .selector then some ⟨d, w, idx, KPR_PSEL (pselOf x.rq), none⟩
      else if d.vis.contains .part ∧ ¬ d.vis.contains .aliasOnly then
        (s.selected x.rq).map (fun p => ⟨d, w, idx, d.key w off (some p), some p⟩)
      else some ⟨d, w, idx, d.key w off none, none⟩
  else
    match aliasSlots[aliasSlot a]? with
    | none => none
    | some w =>
      let off := aliasOffset a
      match rowAt w off with
      | none => none
      | some (d, idx) =>
        let p := aliasPart a
        some ⟨d, w, idx, (if off = 0x7FFF8 then partInst p else 0) + d.key w off (some p), some p⟩

/-! ## Rights -/

/-- The partition of a requester. -/
def State.reqPart (s : State) : Requester → Option Nat
  | .hart h _ => s.partOfHart h
  | .pcie p => some p
  | _ => none

/-- The die of a requester (R28). -/
def requesterDie : Requester → Nat
  | .hart h _ => 8 + h / 48
  | .keeper | .sideband => 18
  | .pcie _ | .remote _ => outsideDie

/-- May a requester use the block windows (R41)? -/
def State.mayBlock (s : State) : Requester → Bool
  | .hart h sup => sup && (match s.partOfHart h with | some p => s.service? = some p | none => false)
  | .keeper | .sideband => true
  | _ => false

/-- Does the Chart grant a package SPACE 1 access to a partition: the controller of a headless one, or a GRANT record (R473)? -/
def State.granted (s : State) (pkg p : Nat) : Bool :=
  match s.partOf p with
  | none => false
  | some d => if d.headless then decide (d.controller = pkg) else (s.linkRecs 6).any (fun r => decide (r.a = p) && decide (r.b = pkg))

/-- May a requester use a partition's alias window (R42)? -/
def State.mayAlias (s : State) (rq : Requester) (p : Nat) : Bool :=
  match s.partOf p with
  | none => false
  | some d => match rq with
    | .hart h _ => !d.headless && decide (s.partOfHart h = some p)
    | .pcie q => !d.headless && decide (q = p)
    | .remote pkg => s.granted pkg p
    | _ => false

/-- Does the resource of a register shown through an alias slot belong to the partition (R46)? -/
def State.ownsReg (s : State) (p : Nat) (h : Hit) : Bool :=
  let i := h.idx.headD 0
  match h.desc.own with
  | .cluster => s.engineOf p (eId (h.window - 8) 0 i)
  | .copy => s.engineOf p (if i < 4 then eId (h.window - 8) 2 i else eId (h.window - 8) 3 (i - 4))
  | .buoy => s.ownsBuoy p i
  | .group => s.ownsGroup p i
  | .sequencer => s.engineOf p (eId i 5 0)
  | .exporter => s.engineOf p (eId (10 + i) 7 0)
  | .die => match s.partOf p with | some d => d.clusters / 2 ^ (4 * i) % 16 ≠ 0 | none => false
  | _ => true

/-! ## Violations (R18, R48) -/

/-- Does a 64-bit write name a buoy of another partition (R191)? -/
def State.foreignBuoy (s : State) (x : RegAcc) (h : Hit) : Bool :=
  (h.desc.hook == .hBuySignal || h.desc.hook == .hBuyAdd) && x.write && decide (x.bytes = 8)
    && !(match h.part with | some p => s.ownsBuoy p (x.data % 2 ^ 14) | none => false)

/-- The kinds of violation that an access matches, in the KIND order. An access to an empty alias slot is of kind 4, and one to an
alias-only register through a block window of kind 5 (R46, R611). -/
def State.violKinds (s : State) (x : RegAcc) : List Nat :=
  let viaAlias := inAliases x.addr
  let h := s.hit x
  let empty := viaAlias && decide (28 ≤ aliasSlot x.addr)
  let base := errs [(decide (x.bytes ≠ 4 ∧ x.bytes ≠ 8), 0), (decide (x.addr % (max x.bytes 1) ≠ 0), 1), (h.isNone && !empty, 2)]
  let more : List Nat := match h with
    | none => errs [(viaAlias && (empty || !s.mayAlias x.rq (aliasPart x.addr)), 4), (!viaAlias && !s.mayBlock x.rq, 5)]
    | some h =>
      let p := aliasPart x.addr
      let shown := decide (h.desc.off = 0x7FFF8) || h.desc.vis.contains .shown
      errs [(decide (0x80000 ≤ h.desc.off) && !s.expertOn h.key, 3),
        ((viaAlias && (!s.mayAlias x.rq p || !shown || (x.write && h.desc.vis.contains .aliasReadOnly) || !s.ownsReg p h)) || s.foreignBuoy x h, 4),
        (!viaAlias && (!s.mayBlock x.rq || h.desc.vis.contains .aliasOnly), 5)]
  base ++ more

/-- A violating access is counted under the first kind it matches (R48). -/
def State.regViolation (s : State) (x : RegAcc) (kind : Nat) : State :=
  let viaAlias := inAliases x.addr
  let off := if viaAlias then x.addr - aliasBase else x.addr - regBase
  s.violation kind off (s.reqPart x.rq) viaAlias x.write (requesterDie x.rq)

/-! ## Reading -/

/-- Registers whose one field of 64 bits is no counter (R13). -/
def wideNames : List String :=
  ["KPR_ID_DEVICE", "KPR_DBG_NONCE", "BUY_VALUE", "COL_GRP_EXCL", "COL_BCN_KNOWN", "COL_BCN_SKIP", "COL_FLIP_SEL", "UPD_HOLD", "TMV_ROUTE_SEL",
   "PWR_DOM_ON0", "LOG_LINES", "LOG_RD_DATA", "COL_BCN_SUMSQ"]

/-- Is a register a counter, whose lower half is captured (R13, R15)? -/
def RegDesc.isCounter (d : RegDesc) : Bool :=
  (decide (d.fields = [⟨F.COUNT, .ro⟩]) && !wideNames.contains d.name) || d.name == "WCH_COUNT" || d.name == "HST_VIS_EPOCH"

/-- The bits of a 64-bit mask that a test allows. -/
def maskOf (ok : Nat → Bool) : Word := BitVec.ofNat 64 ((List.range 64).foldl (fun v b => if ok b then v + 2 ^ b else v) 0)

/-- UPD_HOLD: the flip sets that an exporter holds (R276). -/
def State.heldSets (s : State) : Word := maskOf (fun x => s.exp.any (fun e => e.2.sides.any (fun y => decide (y.1 = x))))

/-- The estimate that PWR_LEARN_READ shows (R534). -/
def State.learnRead (s : State) (p : Nat) : Word :=
  let e := s.estimate p (s.fld (PWR_LEARN_SEL p) F.PWR_LEARN_SEL_PHASE) (s.fld (PWR_LEARN_SEL p) F.PWR_LEARN_SEL_DIE)
  fset (fset (fset 0 F.PWR_LEARN_READ_EST_UJ e.1) F.PWR_LEARN_READ_SAMPLES e.2) F.PWR_LEARN_READ_VALID (if 8 ≤ e.2 then 1 else 0)

/-- Held slots of a partition, as MMU_PART_STATUS shows them (R384). -/
def State.heldCount (s : State) (p : Nat) : Nat := ((List.range 64).filter (fun k => s.spillTaken p k)).length

/-- The content of a register as it is read (R13): what its hardware shows, with the bits of other partitions zero through an alias
window. The laser sensors and the progress of a rebuild are free values. -/
def State.shown (s : State) (viaAlias : Bool) (h : Hit) : Word :=
  let w := s.reg h.key
  let p := h.part.getD 0
  let i := h.idx.headD 0
  let own (ok : Nat → Bool) (v : Word) : Word := if viaAlias then v &&& maskOf ok else v
  match h.desc.hook with
  | .hPwrLearnRead => s.learnRead p
  | .hLogLines => s.lineWord i
  | .hFtsUnit => s.ftsUnit
  | .hFtsUnitLast => s.ftsUnitLast
  | .hMbxE2HCount => BitVec.ofNat 64 (s.mailCount p 0)
  | .hMbxH2KCount => BitVec.ofNat 64 (s.mailCount p 1)
  | .hMbxK2HCount => BitVec.ofNat 64 (s.mailCount p 2)
  | .hMbxE2HRead | .hMbxK2HRead => 0
  | .hMmuPartStatus => fset w F.MMU_PART_STATUS_HELD (s.heldCount p)
  | .hMmuFlipStage => w &&& maskOf (s.ownsSet p)
  | .hColFlipSel => own (s.ownsSet p) w
  | .hUpdHold => own (s.ownsSet p) s.heldSets
  | .hTmvUse => BitVec.ofNat 64 (s.use p (i + 1))
  | .hTmvRouteSel => own (fun b => s.ownsRoute p (64 * i + b)) w
  | _ =>
    if h.desc.name = "INT_CTX_STATUS" then
      let mine : Bool := !viaAlias || (match Table.get? s.draws (4 * (h.window - 0x40) + i) with | some d => decide (d.part = p) | none => false)
      if mine then fset w F.INT_CTX_STATUS_RUNNING (s.drawRunning (h.window - 0x40) i).toNat else 0
    else if h.desc.name = "DFT_STACK" then
      if fget w F.DFT_STACK_STATE = 1 then fset w F.DFT_STACK_REBUILD_PCT (s.anyNat % 101) else w
    else if h.desc.name = "LNK_LASER" then s.anyWord &&& 0xFFFFFFFF#64
    else w

/-- The half of a word that a 32-bit access reaches, or all of it. -/
def RegAcc.part (x : RegAcc) (w : Word) : Word :=
  if x.bytes = 8 then w else if x.addr % 8 = 4 then w >>> 32 else w &&& 0xFFFFFFFF#64

/-- The CSNAP instance of the window through which an access arrived (R15). -/
def RegAcc.snapKey (x : RegAcc) (h : Hit) : Nat :=
  (if inAliases x.addr then partInst (aliasPart x.addr) else 0) + h.window * 0x100000 + 0x7FFF8

/-- A read of a register: its value, and what the read does: a 32-bit read of a counter's lower half captures the counter, a 64-bit
read of a mailbox takes its oldest entry, and a read of the tick finds the time moved on within the watch (R15, R211, log entry 7). A
violating read returns zero (R19). While the Keeper's domain is off no register answers. -/
def State.regRead (s : State) (x : RegAcc) : State × Word :=
  if ¬ s.keeperOn then (s, 0)
  else match s.violKinds x, s.hit x with
    | k :: _, _ => (s.regViolation x k, 0)
    | [], none => (s, 0)
    | [], some h =>
      let s0 := if h.desc.name = "WCH_TB_STATUS" then s.someTick else s
      let w := s0.shown (inAliases x.addr) h
      let p := h.part.getD 0
      if x.bytes = 8 ∧ h.desc.hook = .hMbxE2HRead then s0.takeMail p 0 F.MBX_STATUS_E2H_UNDER
      else if x.bytes = 8 ∧ h.desc.hook = .hMbxK2HRead then s0.takeMail p 2 F.MBX_STATUS_K2H_UNDER
      else
        let s1 := if x.bytes = 4 ∧ x.addr % 8 = 0 ∧ h.desc.isCounter then s0.putReg (x.snapKey h) w else s0
        (s1.tookFree, x.part w)

/-! ## Plain writes -/

/-- The bits of a register that an access reaches. -/
def RegAcc.mask (x : RegAcc) : Word :=
  if x.bytes = 8 then 0xFFFFFFFFFFFFFFFF#64 else if x.addr % 8 = 4 then 0xFFFFFFFF00000000#64 else 0xFFFFFFFF#64

/-- The data of a write at the register's bit positions; zero where the access does not reach. -/
def RegAcc.word (x : RegAcc) : Word :=
  (if x.bytes = 8 then BitVec.ofNat 64 x.data else if x.addr % 8 = 4 then BitVec.ofNat 64 x.data <<< 32 else BitVec.ofNat 64 x.data) &&& x.mask

/-- The bits of a row's fields of an access type. -/
def RegDesc.bits (d : RegDesc) (a : Acc) : Word := (d.fields.filter (fun f => f.acc = a)).foldl (fun w f => w ||| fmask f.fld) 0

/-- What a write leaves in a register by its fields' access types (R9): RW fields take the data, W1C bits written as 1 clear, and every
other bit stays. -/
def RegAcc.written (x : RegAcc) (d : RegDesc) (w : Word) : Word :=
  let rw := d.bits .rw &&& x.mask
  ((w &&& ~~~ rw) ||| (x.word &&& rw)) &&& ~~~ (x.word &&& d.bits .w1c)

/-- Does a write set a one-bit field? -/
def RegAcc.sets (x : RegAcc) (f : Fld) : Bool := x.word.toNat.testBit f.lo

end Sys2Proof.Machine
end

