-- ==== Sys2Proof/Machine/WatchStart.lean ====
section
/-! DEFINITION. The start of a watch (R51) and the settings that wait for one (R26, R314). -/
namespace Sys2Proof.Machine

/-- The governor gains 464 KiB of credit in each watch of powered time (R338, R339). -/
def State.flashWatch (s : State) : State :=
  if s.boot.powered then ((s.setFlash { s.flash with paced := 0 }).setCredit (s.flash.credit + 464 * 1024)).govern
  else s.setFlash { s.flash with paced := 0 }

/-- Does a deferred setting take effect at a watch start by R314 (TMV_CFG and TMV_X_TUNE), rather than by R26? -/
def Deferred.tiers (d : Deferred) : Bool := decide (d.key = TMV_CFG) || decide (d.key = TMV_X_TUNE)

/-- WATCH_START: the count grows by one and the watch begins at tick 0 (R51), with all that the end of one watch and the start of the
next settle at once: the timebase's counts (R54), the Sextant's (R514, R521, R522), the governor's credit (R338), demotion's bytes (R311)
and the settings of R314. -/
def execWatchStart (s : State) : Out :=
  let s1 := s.tbWatch.pwrWatch
  let s2 := (s1.setWatch (s1.watch + 1)).putFld WCH_TB_STATUS F.WCH_TB_STATUS_TICK 0
  let s3 := s2.setTiers { s2.tiers with demoted := [] }
  .next ((s3.setDeferred (s3.deferred.filter (fun d => !(d.tiers && decide (d.watch ≤ s3.watch))))).flashWatch)

/-- EXPERT_SETTING_APPLY: the deferred expert settings whose watch has come take effect (R26). -/
def execExpertSettingApply (s : State) : Out :=
  .next (s.setDeferred (s.deferred.filter (fun d => d.tiers || decide (s.watch < d.watch))))

end Sys2Proof.Machine
end

