-- ==== Sys2Proof/Machine/RegWrite.lean ====
section
/-! DEFINITION. Register writes (R9, R19 to R26): what a write does beyond its fields' access types, and the commands that are writes or
reads of one register. -/
namespace Sys2Proof.Machine

/-! ## Settings that wait -/

/-- The watch after the last guaranteed slot of every accepted plan (R26). -/
def State.afterPlans (s : State) : Nat :=
  s.adm.plans.foldl (fun w p => if p.2.guaranteed then max w (p.2.start + p.2.maxOff + 1) else w) (s.watch + 1)

/-- A setting keeps its value in effect until a watch. -/
def State.defer (s : State) (key watch : Nat) : State :=
  let old := s.inEffect key
  s.setDeferred ((s.deferred.filter (fun d => d.key ≠ key)) ++ [⟨key, old, watch⟩])

/-- R26: where a new setting would break an accepted plan's promise, which a free bit says while guaranteed plans are held, the setting
waits. -/
def State.deferPlans (s : State) (key : Nat) : State :=
  if s.guaranteedHeld then (if s.anyBool then s.defer key s.afterPlans else s).tookFree else s

/-- Expert registers whose settings R26 may delay (R129, R173, R217, R248, R450); the others say themselves when they take effect. -/
def delayed : List String := ["TD_X_ME_FEED", "TD_X_VE_TUNE", "TD_X_CE_TUNE", "COL_X_BCN_TUNE", "INT_X_TUNE", "LNK_X_TUNE", "COH_X_TUNE", "HST_X_PORT", "WCH_X_TUNE"]

/-- Walks of a die in progress. -/
def State.walking (s : State) (d : Nat) : Bool := s.mmu.walks.any (fun w => decide (w.2.die = d))

/-- What a write settles before it changes a register: the setting now in effect where the new one waits (R26, R314, R385, R536, R590). -/
def State.beforeWrite (s : State) (h : Hit) (w : Word) : State :=
  let k := h.key
  let i := h.idx.headD 0
  let n := h.desc.name
  if n = "FTS_CFG" ∨ n = "FTS_X_TUNE" then s.settleDue
  else if n = "TMV_CFG" ∨ n = "TMV_X_TUNE" then s.defer k (s.watch + 1)
  else if n = "PWR_X_TUNE" then (if s.guaranteedHeld then s.defer k s.afterPlans else s.defer k (s.watch + 1))
  else if n = "MMU_X_WLK" then
    let lower := decide (orElse (fget w F.MMU_X_WLK_GR_WALKERS) 16 < s.grWalkers i)
    if lower ∧ s.guaranteedHeld then s.defer k s.afterPlans else if s.walking i then s.defer k s.watch else s
  else if n = "MMU_SPILL_CTRL" then
    let slots := min (fget w F.MMU_SPILL_CTRL_SLOTS) 64
    if (List.range 64).any (fun j => decide (slots ≤ j) && s.spillTaken (h.part.getD 0) j) then s.defer k (2 ^ 48)
    else s.setDeferred (s.deferred.filter (fun d => d.key ≠ k))
  else if n = "COL_BCN_CFG" ∨ delayed.contains n then s.deferPlans k
  else s

/-! ## Clears (R128) -/

/-- The registers at some offsets of a bank. -/
def bank (k : Nat) (offs : List Nat) : List Nat := offs.map (fun o => k + o)

/-- The multiples of 8 from a first to a last offset. -/
def eights (a b : Nat) : List Nat := (List.range ((b - a) / 8 + 1)).map (fun i => a + 8 * i)

/-- The violation counters and KPR_VIOL_LAST (R49). -/
def violKeys : List Nat := bank KPR_VIOLATIONS (eights 0 0x40) ++ (List.range 32).map KPR_PART_VIOLATIONS

/-- The counters and records that a CTR_CLEAR register of a hook clears, from its own key. -/
def clearKeys (h : Hit) : List Nat :=
  let k := h.key
  match h.desc.hook with
  | .hTdMeCtrClear => bank (k - 0x68) (eights 0x08 0x60 ++ [0x70])
  | .hTdVeCtrClear => bank (k - 0x68) (eights 0x08 0x60)
  | .hTdCeCtrClear => bank (k - 0x40) (eights 0x08 0x38)
  | .hHbmCtrClear => bank (k - 0x1030) (0x10 :: eights 0x1000 0x1028)
  | .hMmuCtrClear => bank (k - 0x20) [0x08, 0x10, 0x18]
  | .hUpdSeqCtrClear | .hUpdExpCtrClear => bank (k - 0x20) [0x08, 0x10, 0x18]
  | .hIntCtrClear => bank (k - 0x30) (eights 0x00 0x28)
  | .hLnkCtrClear => bank (k - 0x10040) ([0x10028, 0x10030, 0x10038] ++ ((List.range 8).map (fun i => bank (0x100 * i) (eights 0x10 0x30))).flatten)
  | .hPwrCtrClear => bank (k - 0x2038) ([0x2018, 0x2020, 0x2028, 0x2030] ++ ((List.range 8).map (fun i => bank (0x40 * i) [0x108, 0x110])).flatten)
  | .hFtsCtrClear => [FTS_TESTS, FTS_FAILS, FTS_ABORTS]
  | .hKprViolClear => violKeys
  | _ => []

/-! ## Hooks -/

/-- Percentages outside 50 to 95 leave their field as it was (R84). -/
def keepPct (old new : Word) : Word :=
  [F.WCH_RESV_PCT_HBM, F.WCH_RESV_PCT_HDRAM, F.WCH_RESV_PCT_FLASH_RD, F.WCH_RESV_PCT_FLASH_WR, F.WCH_RESV_PCT_LINK_OUT, F.WCH_RESV_PCT_LINK_IN].foldl
    (fun w f => if 50 ≤ fget new f ∧ fget new f ≤ 95 then w else fset w f (fget old f)) new

/-- An engine that waits at a doorbell of a partition goes on where the published length now reaches past its position. -/
def Run.rung (r : Run) (p d published : Nat) : Run :=
  if r.wait = .doorbell ∧ r.part = p ∧ r.doorbell = d ∧ r.pos + 64 ≤ published / 64 * 64 then { r with wait := .none } else r

/-- A doorbell is written: the engines that wait there read it again (R182). -/
def State.ring (s : State) (p d : Nat) : State :=
  let v := s.fld (BUY_DOORBELL p d) F.BUY_DOORBELL_PUBLISHED
  let freed := s.eng.runs.filter (fun e => eExists e.1 && decide (e.2.rung p d v ≠ e.2))
  let s1 := freed.foldl (fun s e => ((s.waitCycles e.1 s.anyNat).showDoorbell e.1 false).tookFree) s
  s1.setEng { s1.eng with
    runs := s1.eng.runs.map (fun e => (e.1, e.2.rung p d v)), banks := s1.eng.banks.map (fun e => (e.1, e.2.rung p d v)),
    spilling := s1.eng.spilling.map (fun e => (e.1, e.2.1, e.2.2.rung p d v)),
    held := s1.eng.held.map (fun e => (e.1, { e.2 with run := e.2.run.rung p d v })) }

/-- The CHT commands that a write asks for, in the order of their bits. -/
def chtOps (x : RegAcc) : List ChtOp :=
  [ChtOp.write, .select, .install, .invalidate, .reset].filter (fun o => x.sets o.bit)

/-- The base that a write of TMV_FREE names. -/
def RegAcc.base (x : RegAcc) : Nat := fget x.word F.TMV_FREE_BASE_LO * 2 ^ 16 + fget x.word F.TMV_FREE_BASE_HI * 2 ^ 32

/-- A sign-extended 48-bit value. -/
def signExtend48 (v : Nat) : Word := BitVec.ofInt 64 (signed 48 v)

/-- The mailbox that BUY_X_INJECT.FIRE names: one of a partition's (R214). -/
def State.injected (s : State) : Option Nat :=
  let m := s.fld BUY_X_INJECT F.BUY_X_INJECT_MBX
  if m < 96 then some m else none

/-- What a write does to a register with effects of its own, after its RW and W1C fields have taken the data. old is the register
before. -/
def State.afterWrite (s : State) (x : RegAcc) (h : Hit) (old : Word) : State :=
  let p := h.part.getD 0
  let i := h.idx.headD 0
  match h.desc.hook with
  | .plain | .hPwrCap | .hPwrLearnRead | .hLogLines | .hFtsStatus | .hFtsUnit | .hFtsUnitLast | .hHbmCfg | .hMmuPartStatus
  | .hWchPartStatus | .hMmuSpillCtrl | .hMbxE2HRead | .hMbxE2HCount | .hMbxH2KCount | .hMbxK2HRead | .hMbxK2HCount | .hColGrpStatus | .hColBcnCfg
  | .hColFlipSel | .hUpdHold | .hTmvUse | .hTmvPartStatus | .hTmvRouteSel | .hMmuRoot | .hMmuFlipStage => s
  | .hKprViolClear => if x.sets F.KPR_VIOL_CLEAR_CLEAR then s.clearRegs (clearKeys h) else s
  | .hTdMeCtrClear | .hTdVeCtrClear | .hTdCeCtrClear | .hHbmCtrClear | .hMmuCtrClear | .hUpdSeqCtrClear | .hUpdExpCtrClear | .hIntCtrClear
  | .hLnkCtrClear | .hPwrCtrClear | .hFtsCtrClear => if x.sets ⟨0, 0⟩ then s.clearRegs (clearKeys h) else s
  | .hKprProbeCtrl => if x.sets F.KPR_PROBE_CTRL_START then s.probeGo else s
  | .hChtCtrl => (chtOps x).foldl (fun s o => s.chtRequest o) s
  | .hWchTbCtrl => if x.sets F.WCH_TB_CTRL_JOIN then s.joinAs (s.fld WCH_TB_CTRL F.WCH_TB_CTRL_ROLE) else s
  | .hWchResvPct => s.putReg h.key (keepPct old (s.reg h.key))
  | .hWchSubCtrl =>
    let s1 := if x.sets F.WCH_SUB_CTRL_CANCEL then s.cancelPlan p (s.fld (WCH_SUB_CTRL p) F.WCH_SUB_CTRL_PLAN_ID) else s
    if x.sets F.WCH_SUB_CTRL_GO then s1.submit p else s1
  | .hPwrMode => s.setPwr { s.pwr with modeWatch := some s.watch }
  | .hLogRdSel => s.selectLog
  | .hLogTraceAddr | .hLogTraceCtrl => s.putReg LOG_TRACE_HEAD 0
  | .hFtsRun => if x.sets F.FTS_RUN_GO then s.ftsGo (s.fld FTS_RUN F.FTS_RUN_UNIT) else s
  | .hMmuInv => if x.sets F.MMU_INV_GO then s.invalidate p else s
  | .hMmuFqAddr | .hMmuFqCtrl => s.putReg (MMU_FQ_HEAD p) 0
  | .hMmuResume =>
    if x.bytes = 8 ∨ x.addr % 8 = 0 then s.resumeHeld p (fget x.word F.MMU_RESUME_FAULT) (x.sets F.MMU_RESUME_ACTION) else s
  | .hBuySignal =>
    if x.bytes = 8 then s.putBuoy (fget x.word F.BUY_SIGNAL_BUOY) (BitVec.ofNat 64 (fget x.word F.BUY_SIGNAL_VALUE)) else s
  | .hBuyAdd => if x.bytes = 8 then s.addBuoy (fget x.word F.BUY_ADD_BUOY) (signExtend48 (fget x.word F.BUY_ADD_VALUE)) else s
  | .hBuyDoorbell => s.ring p i
  | .hBuyArm | .hBuyHit => s.arms p
  | .hMbxH2KWrite => if x.bytes = 8 then s.post p 1 x.word else s
  | .hMbxCtrl =>
    (List.range 3).foldl (fun s m => if x.sets ⟨m, m⟩ then s.resetMail p m else s) s
  | .hBuyXInject => if x.sets F.BUY_X_INJECT_FIRE then (match s.injected with | some m => (s.xqReset (.mailbox m)).tookFree | none => s) else s
  | .hLnkPortCtrl =>
    let full := x.sets F.LNK_PORT_CTRL_FULL_TRAIN
    let re := x.sets F.LNK_PORT_CTRL_RETRAIN
    let ch := x.sets F.LNK_PORT_CTRL_CHANGE
    if full || re || ch then s.portCommand (8 * (h.window - 0x30) + i) full re ch else s
  | .hLnk0EthQpBase => s.loadHandles
  | .hLnk0EthHstatus => s.clearHandles (x.word &&& old).toNat
  | .hColGrpApply => if x.sets F.COL_GRP_APPLY_GO then s.groupApply i else s
  | .hInt0IdlAddr | .hInt0IdlCtrl => s.putReg (INT0_IDL_HEAD p) 0
  | .hTmvAlloc => if x.sets F.TMV_ALLOC_GO then s.allocGo p else s
  | .hTmvFree => s.freeBase p x.base
  | .hTmvQuota | .hTmvFwQuota => s.tierLevels p
  | .hTmvSubAddr | .hTmvSubCtrl => s.putReg (TMV_SUB_HEAD p) 0
  | .hTmvFwReset => if x.sets F.TMV_FW_RESET_GO then s.fwReset (s.fld TMV_FW_RESET F.TMV_FW_RESET_PARTITION) else s
  | .hTmvLend => (s.putReg h.key old).lend i (s.reg h.key)
  | .hDftLifeMark => if x.sets ⟨0, 0⟩ ∧ s.fld DFT_LIFE_CTRL F.DFT_LIFE_CTRL_SRC = 1 then s.stepMark else s
  | .hHbmXTune =>
    let n := h.window - 0x10
    let twice := decide (85 ≤ s.fld (HBM_STATUS n) F.HBM_STATUS_TEMP_C) || decide (s.xfld (HBM_X_TUNE n) F.HBM_X_TUNE_REFRESH_2X = 1)
    s.putFld (HBM_STATUS n) F.HBM_STATUS_REFRESH_2X twice.toNat
  | .hDftXTune => s.setCredit s.flash.credit
  | .hHstRegionInv => if x.sets F.HST_REGION_INV_GO then s.regionInv else s

/-- What a write leaves in the register itself: the bits of MMU_FLIP_STAGE for sets of other partitions ignore it (R384). -/
def State.newReg (s : State) (x : RegAcc) (h : Hit) : Word :=
  let old := s.reg h.key
  let w := x.written h.desc old
  if h.desc.hook = .hMmuFlipStage then
    let m := maskOf (s.ownsSet (h.part.getD 0))
    (old &&& ~~~ m) ||| (w &&& m)
  else w

/-- A write of a register: a violating one is ignored (R19); while the Keeper's domain is off no register answers. -/
def State.regWrite (s : State) (x : RegAcc) : State :=
  if ¬ s.keeperOn then s
  else match s.violKinds x, s.hit x with
    | k :: _, _ => s.regViolation x k
    | [], none => s
    | [], some h =>
      let old := s.reg h.key
      let w := s.newReg x h
      ((s.beforeWrite h w).putReg h.key w).afterWrite x h old

/-! ## Addresses of the row commands -/

/-- The alias address of a register of the block windows for a partition; the register's own address where its window has no slot. -/
def aliasAddr (p k : Nat) : Nat :=
  let w := k % 0x10000000 / 0x100000
  let off := k % 0x100000
  match aliasSlots.findIdx? (fun x => decide (x = w)) with
  | some slot => aliasBase + p * 0x1000000 + slot * 0x80000 + (if 0x80000 ≤ off then off - 0x40000 else off)
  | none => regBase + k % 0x10000000

/-- The partition whose alias window a requester without the block windows uses. -/
def State.ownWindow (s : State) (rq : Requester) : Option Nat :=
  match rq with
  | .remote pkg => (s.boot.chart.parts.find? (fun d => s.granted pkg d.num)).map (·.num)
  | rq => s.reqPart rq

/-- The address at which a requester reaches a register of no partition: through the block windows where it may, else through its
own alias window. -/
def State.rowAddr (s : State) (rq : Requester) (k : Nat) : Nat :=
  if s.mayBlock rq then regBase + k % 0x10000000
  else match s.ownWindow rq with | some p => aliasAddr p k | none => regBase + k % 0x10000000

/-- The address at which a requester reaches a partition's register: the Keeper and the sideband through the block window, where KPR_PSEL
names the partition (R611), all others through the partition's alias window. -/
def partAddr (rq : Requester) (p k : Nat) : Nat :=
  match rq with
  | .keeper | .sideband => regBase + k % 0x10000000
  | _ => aliasAddr p k

/-- A 64-bit write of a register by its key, at the address the requester uses for it. -/
def State.rowWrite (s : State) (rq : Requester) (k v : Nat) : State := s.regWrite ⟨rq, s.rowAddr rq k, 8, true, v⟩

/-- A 64-bit write of a partition's register. -/
def State.partWrite (s : State) (rq : Requester) (p k v : Nat) : State := s.regWrite ⟨rq, partAddr rq p k, 8, true, v⟩

/-- The data of a write that sets one field. -/
def oneBit (f : Fld) : Nat := 2 ^ f.lo

/-- A write that sets command bits keeps the RW fields as they stand. -/
def State.keeping (s : State) (k : Nat) (bits : Nat) (rw : List Fld) : Nat := rw.foldl (fun v f => v + s.fld k f * 2 ^ f.lo) bits

/-! ## Commands on registers -/

/-- REGISTER_WRITE: any write of a register (R9 to R22). -/
def execRegisterWrite (rq : Requester) (addr bytes value : Nat) (s : State) : Out :=
  .next (if inBlocks addr || inAliases addr then s.regWrite ⟨rq, addr, bytes, true, value⟩ else s)

/-- COUNTER_LOWER_HALF_READ: a 32-bit read of a counter's lower half, which captures it in the window's CSNAP (R15). -/
def execCounterLowerHalfRead (rq : Requester) (addr : Nat) (s : State) : Out :=
  if inBlocks addr || inAliases addr then
    let r := s.regRead ⟨rq, addr, 4, false, 0⟩
    .next (r.1.setResp r.2)
  else .next s

/-- VIOL_CLEAR (R49). -/
def execViolClear (rq : Requester) (s : State) : Out := .next (s.rowWrite rq KPR_VIOL_CLEAR 1)
/-- PROBE_START: a write of KPR_PROBE_CTRL (R50). -/
def execProbeStart (rq : Requester) (value : Nat) (s : State) : Out := .next (s.rowWrite rq KPR_PROBE_CTRL value)
/-- JOIN: a write of WCH_TB_CTRL (R54, R57). -/
def execJoin (rq : Requester) (value : Nat) (s : State) : Out := .next (s.rowWrite rq WCH_TB_CTRL value)
/-- GO: a write of WCH_SUB_CTRL with GO (R65, R66). -/
def execGo (rq : Requester) (p value : Nat) (s : State) : Out := .next (s.partWrite rq p (WCH_SUB_CTRL p) value)
/-- CANCEL: a write of WCH_SUB_CTRL with CANCEL (R82). -/
def execCancel (rq : Requester) (p value : Nat) (s : State) : Out := .next (s.partWrite rq p (WCH_SUB_CTRL p) value)
/-- ME_CTR_CLEAR (R128). -/
def execMeCtrClear (rq : Requester) (die bank : Nat) (s : State) : Out := .next (s.rowWrite rq (TD_ME_CTR_CLEAR die bank) 1)
/-- VE_CTR_CLEAR (R172). -/
def execVeCtrClear (rq : Requester) (die bank : Nat) (s : State) : Out := .next (s.rowWrite rq (TD_VE_CTR_CLEAR die bank) 1)
/-- CE_CTR_CLEAR (R216). -/
def execCeCtrClear (rq : Requester) (die bank : Nat) (s : State) : Out := .next (s.rowWrite rq (TD_CE_CTR_CLEAR die bank) 1)
/-- DOORBELL_WRITE (R182). -/
def execDoorbellWrite (rq : Requester) (p d value : Nat) (s : State) : Out := .next (s.partWrite rq p (BUY_DOORBELL p d) value)
/-- BUY_SIGNAL (R191). -/
def execBuySignal (rq : Requester) (p value : Nat) (s : State) : Out := .next (s.partWrite rq p (BUY_SIGNAL p) value)
/-- BUY_ADD (R191). -/
def execBuyAdd (rq : Requester) (p value : Nat) (s : State) : Out := .next (s.partWrite rq p (BUY_ADD p) value)

/-- A 64-bit read of a partition's register, with its value in resp. -/
def State.partRead (s : State) (rq : Requester) (p k : Nat) : State :=
  let r := s.regRead ⟨rq, partAddr rq p k, 8, false, 0⟩
  r.1.setResp r.2

/-- MBX_E2H_READ (R211). -/
def execMbxE2HRead (rq : Requester) (p : Nat) (s : State) : Out := .next (s.partRead rq p (MBX_E2H_READ p))
/-- MBX_K2H_READ (R211). -/
def execMbxK2HRead (rq : Requester) (p : Nat) (s : State) : Out := .next (s.partRead rq p (MBX_K2H_READ p))
/-- MBX_H2K_WRITE (R210, R211). -/
def execMbxH2KWrite (rq : Requester) (p value : Nat) (s : State) : Out := .next (s.partWrite rq p (MBX_H2K_WRITE p) value)
/-- RESET_E2H (R212). -/
def execResetE2H (rq : Requester) (p : Nat) (s : State) : Out := .next (s.partWrite rq p (MBX_CTRL p) (oneBit F.MBX_CTRL_RESET_E2H))
/-- RESET_H2K (R212). -/
def execResetH2K (rq : Requester) (p : Nat) (s : State) : Out := .next (s.partWrite rq p (MBX_CTRL p) (oneBit F.MBX_CTRL_RESET_H2K))
/-- RESET_K2H (R212). -/
def execResetK2H (rq : Requester) (p : Nat) (s : State) : Out := .next (s.partWrite rq p (MBX_CTRL p) (oneBit F.MBX_CTRL_RESET_K2H))
/-- INJECT_FIRE: a write of BUY_X_INJECT (R214). -/
def execInjectFire (rq : Requester) (value : Nat) (s : State) : Out := .next (s.rowWrite rq BUY_X_INJECT value)
/-- GROUP_APPLY_GO: a write of COL_GRP_APPLY (R220). -/
def execGroupApplyGo (rq : Requester) (g value : Nat) (s : State) : Out := .next (s.rowWrite rq (COL_GRP_APPLY g) value)
/-- SEQ_CTR_CLEAR (R282). -/
def execSeqCtrClear (rq : Requester) (seq : Nat) (s : State) : Out := .next (s.rowWrite rq (UPD_SEQ_CTR_CLEAR seq) 1)
/-- EXP_CTR_CLEAR (R282). -/
def execExpCtrClear (rq : Requester) (exp : Nat) (s : State) : Out := .next (s.rowWrite rq (UPD_EXP_CTR_CLEAR exp) 1)
/-- ALLOC_GO: a write of TMV_ALLOC (R290). -/
def execAllocGo (rq : Requester) (p value : Nat) (s : State) : Out := .next (s.partWrite rq p (TMV_ALLOC p) value)
/-- TMV_FREE (R293). -/
def execTmvFree (rq : Requester) (p value : Nat) (s : State) : Out := .next (s.partWrite rq p (TMV_FREE p) value)
/-- TMV_LEND_WRITE (R307). -/
def execTmvLendWrite (rq : Requester) (j value : Nat) (s : State) : Out := .next (s.rowWrite rq (TMV_LEND j) value)

/-- A partition's quota registers are writable through the block window only, where KPR_PSEL names the partition; a hart of the
service partition uses that window too (R313, R611, R612). -/
def State.quotaWrite (s : State) (rq : Requester) (p k v : Nat) : State :=
  s.regWrite ⟨rq, if s.mayBlock rq then regBase + k % 0x10000000 else aliasAddr p k, 8, true, v⟩

/-- TMV_QUOTA_WRITE: tier 1 to 4 (R310). -/
def execTmvQuotaWrite (rq : Requester) (p tier value : Nat) (s : State) : Out := .next (s.quotaWrite rq p (TMV_QUOTA p (tier - 1)) value)
/-- FW_RESET: a write of TMV_FW_RESET (R312). -/
def execFwReset (rq : Requester) (value : Nat) (s : State) : Out := .next (s.rowWrite rq TMV_FW_RESET value)
/-- SUB_LOG_CONFIG_WRITE: a write of TMV_SUB_ADDR, or of TMV_SUB_CTRL (R313). -/
def execSubLogConfigWrite (rq : Requester) (p : Nat) (ctrl : Bool) (value : Nat) (s : State) : Out :=
  .next (s.partWrite rq p (if ctrl then TMV_SUB_CTRL p else TMV_SUB_ADDR p) value)
/-- DFT_LIFE_MARK (R340). -/
def execDftLifeMark (rq : Requester) (value : Nat) (s : State) : Out := .next (s.rowWrite rq DFT_LIFE_MARK value)
/-- HBM_CTR_CLEAR (R362). -/
def execHbmCtrClear (rq : Requester) (stack : Nat) (s : State) : Out := .next (s.rowWrite rq (HBM_CTR_CLEAR stack) 1)
/-- FAULT_RESUME: MMU_RESUME with ACTION 0 (R379). -/
def execFaultResume (rq : Requester) (p slot : Nat) (s : State) : Out := .next (s.partWrite rq p (MMU_RESUME p) (slot % 64))
/-- FAULT_ABORT: MMU_RESUME with ACTION 1 (R379). -/
def execFaultAbort (rq : Requester) (p slot : Nat) (s : State) : Out :=
  .next (s.partWrite rq p (MMU_RESUME p) (slot % 64 + oneBit F.MMU_RESUME_ACTION))
/-- INVALIDATE: a write of MMU_INV (R383). -/
def execInvalidate (rq : Requester) (p value : Nat) (s : State) : Out := .next (s.partWrite rq p (MMU_INV p) value)
/-- FQ_CONFIG_WRITE: a write of MMU_FQ_ADDR, or of MMU_FQ_CTRL (R384). -/
def execFqConfigWrite (rq : Requester) (p : Nat) (ctrl : Bool) (value : Nat) (s : State) : Out :=
  .next (s.partWrite rq p (if ctrl then MMU_FQ_CTRL p else MMU_FQ_ADDR p) value)
/-- MMU_CTR_CLEAR (R384). -/
def execMmuCtrClear (rq : Requester) (die : Nat) (s : State) : Out := .next (s.rowWrite rq (MMU_CTR_CLEAR die) 1)
/-- REGION_INV: a write of HST_REGION_INV (R412). -/
def execRegionInv (rq : Requester) (value : Nat) (s : State) : Out := .next (s.rowWrite rq HST_REGION_INV value)
/-- INT_CTR_CLEAR (R449). -/
def execIntCtrClear (rq : Requester) (die : Nat) (s : State) : Out := .next (s.rowWrite rq (INT_CTR_CLEAR die) 1)
/-- IDL_CONFIG_WRITE: a write of INT0_IDL_ADDR, or of INT0_IDL_CTRL (R449). -/
def execIdlConfigWrite (rq : Requester) (p : Nat) (ctrl : Bool) (value : Nat) (s : State) : Out :=
  .next (s.partWrite rq p (if ctrl then INT0_IDL_CTRL p else INT0_IDL_ADDR p) value)

/-- LNK_PORT_CTRL with command bits and its own AUTO and HALF. -/
def State.portWrite (s : State) (rq : Requester) (die port bits : Nat) : State :=
  s.rowWrite rq (LNK_PORT_CTRL die port) (s.keeping (LNK_PORT_CTRL die port) bits [F.LNK_PORT_CTRL_AUTO, F.LNK_PORT_CTRL_HALF])

/-- RETRAIN (R481). -/
def execRetrain (rq : Requester) (die port : Nat) (s : State) : Out := .next (s.portWrite rq die port (oneBit F.LNK_PORT_CTRL_RETRAIN))
/-- FULL_TRAIN (R483). -/
def execFullTrain (rq : Requester) (die port : Nat) (s : State) : Out := .next (s.portWrite rq die port (oneBit F.LNK_PORT_CTRL_FULL_TRAIN))
/-- CHANGE: a write of LNK_PORT_CTRL with CHANGE (R486). -/
def execChange (rq : Requester) (die port value : Nat) (s : State) : Out := .next (s.rowWrite rq (LNK_PORT_CTRL die port) value)
/-- ETH_QP_BASE_WRITE (R492). -/
def execEthQpBaseWrite (rq : Requester) (value : Nat) (s : State) : Out := .next (s.rowWrite rq LNK0_ETH_QP_BASE value)
/-- ETH_HANDLE_RESET: bits of LNK0_ETH_HSTATUS written as 1 (R495). -/
def execEthHandleReset (rq : Requester) (mask : Nat) (s : State) : Out := .next (s.rowWrite rq LNK0_ETH_HSTATUS mask)
/-- LNK_CTR_CLEAR (R495). -/
def execLnkCtrClear (rq : Requester) (die : Nat) (s : State) : Out := .next (s.rowWrite rq (LNK_CTR_CLEAR die) 1)
/-- PWR_CTR_CLEAR (R534). -/
def execPwrCtrClear (rq : Requester) (s : State) : Out := .next (s.rowWrite rq PWR_CTR_CLEAR 1)

/-- A write of CHT_CTRL with one command bit; SLOT as named, or as it stands. -/
def State.chtWrite (s : State) (rq : Requester) (f : Fld) (slot : Option Nat) : State :=
  s.rowWrite rq CHT_CTRL (oneBit f + (slot.getD (s.fld CHT_CTRL F.CHT_CTRL_SLOT)) % 2 * 2 ^ F.CHT_CTRL_SLOT.lo)

/-- CHART_WRITE (R552). -/
def execChartWrite (rq : Requester) (slot : Nat) (s : State) : Out := .next (s.chtWrite rq F.CHT_CTRL_WRITE (some slot))
/-- CHART_SELECT (R552). -/
def execChartSelect (rq : Requester) (slot : Nat) (s : State) : Out := .next (s.chtWrite rq F.CHT_CTRL_SELECT (some slot))
/-- LIC_INSTALL (R555). -/
def execLicInstall (rq : Requester) (s : State) : Out := .next (s.chtWrite rq F.CHT_CTRL_LIC_INSTALL none)
/-- INV_SETTINGS (R541). -/
def execInvSettings (rq : Requester) (s : State) : Out := .next (s.chtWrite rq F.CHT_CTRL_INV_SETTINGS none)
/-- CHART_RESET (R552). -/
def execChartReset (rq : Requester) (s : State) : Out := .next (s.chtWrite rq F.CHT_CTRL_RESET none)
/-- FTS_RUN (R589). -/
def execFtsRun (rq : Requester) (value : Nat) (s : State) : Out := .next (s.rowWrite rq FTS_RUN value)
/-- FTS_CTR_CLEAR (R589). -/
def execFtsCtrClear (rq : Requester) (s : State) : Out := .next (s.rowWrite rq FTS_CTR_CLEAR 1)
/-- LOG_RD_SEL_WRITE (R592). -/
def execLogRdSelWrite (rq : Requester) (value : Nat) (s : State) : Out := .next (s.rowWrite rq LOG_RD_SEL value)
/-- TRACE_CONFIG_WRITE: a write of LOG_TRACE_ADDR, or of LOG_TRACE_CTRL (R591, R592). -/
def execTraceConfigWrite (rq : Requester) (ctrl : Bool) (value : Nat) (s : State) : Out :=
  .next (s.rowWrite rq (if ctrl then LOG_TRACE_CTRL else LOG_TRACE_ADDR) value)

/-! ## The sideband's register messages (R602) -/

/-- The address of a sideband register message: a block-window offset / 8 in ARG[24:0], and the upper half with ARG[25]. -/
def sbAddr (entry : Nat) : Nat := regBase + entry / 65536 % 2 ^ 25 * 8 + (if entry.testBit 41 then 4 else 0)

/-- May the sideband's REG messages be served: the Keeper runs, not in recovery and with no block under way (R602, R604)? -/
def State.sbOpen (s : State) : Bool := s.keeperOn && !s.boot.recovery && s.boot.block.isNone

/-- SB_REG_RD: VALUE[31:0] of the reply is the register half (R602). -/
def execSbRegRd (entry : Nat) (s : State) : Out :=
  if ¬ s.sbOpen ∨ entry % 256 ≠ 0x10 then .next s
  else
    let r := s.regRead ⟨.sideband, sbAddr entry, 4, false, 0⟩
    .next (r.1.answer (.sideband entry) (replyWord entry 0 (r.2.toNat % 2 ^ 32)))

/-- SB_REG_WR: the data of the next entry go to the register half (R602); the VALUE of the reply is free. -/
def execSbRegWr (entry raw : Nat) (s : State) : Out :=
  if ¬ s.sbOpen ∨ entry % 256 ≠ 0x11 then .next s
  else
    let s1 := s.regWrite ⟨.sideband, sbAddr entry, 4, true, raw % 2 ^ 32⟩
    .next ((s1.answer (.sideband entry) (replyWord entry 0 s1.anyNat)).tookFree)

end Sys2Proof.Machine
end

