-- ==== Sys2Proof/Machine/PcieIn.lean ====
section
/-! DEFINITION. Inbound requests through a root port (R401, R402, R407 to R411), and what remote packages and RDMA requesters share with
them: translation for a requester that is no engine, and reads that a buffer of earlier lines may serve. -/
namespace Sys2Proof.Machine

/-! ## Accesses for a requester that is no engine -/

/-- The physical address of a virtual one of a partition for a requester that is no engine, through a die's walkers: R370 applies, the
page needs the right (R371), and its frames must be PINNED (R407, R473); the live side of a flip set is used (R368). -/
def State.guest (s : State) (die part va acc : Nat) : Option Nat :=
  match s.translation die part va with
  | .error _ => none
  | .ok f =>
    let granted := if acc = 1 then f.w else if acc = 2 then f.a else f.r
    if granted && f.pinned then
      some ((if s.side ⟨0xFFFF, part, false, 0, false, [], false⟩ f.sided f.set = 0 then f.pa0 else f.pa1) + va % f.size)
    else none

/-- The physical pieces of a virtual range for such a requester; none where any part of it fails. -/
def State.guestPieces (s : State) (die part acc : Nat) : List (Nat × Nat) → Option (List (Nat × Nat))
  | [] => some []
  | (va, n) :: l =>
    match s.guest die part va acc, s.guestPieces die part acc l with
    | some pa, some ps => some ((pa, n) :: ps)
    | _, _ => none

/-- The pieces of physical ranges by line. -/
def byLine (ps : List (Nat × Nat)) : List (Nat × Nat) := (ps.map (fun p => linePieces p.1 p.2)).flatten

/-- Data read from physical pieces, and whether any is poisoned. A line that a buffer fetched earlier may be served from there: a free
bit decides (R401). -/
def State.buffered (s : State) (old : List (Nat × List Byte)) (ps : List (Nat × Nat)) : List Byte × Bool :=
  (byLine ps).foldl (fun acc p =>
    match Table.get? old (p.1 - p.1 % 64) with
    | some d =>
      if Config.freeBool (s.free + p.1 / 64) then (acc.1 ++ (d.drop (p.1 % 64)).take p.2, acc.2)
      else let r := s.rdMem p.1 p.2; (acc.1 ++ r.1, acc.2 || r.2)
    | none => let r := s.rdMem p.1 p.2; (acc.1 ++ r.1, acc.2 || r.2)) ([], false)

/-- The lines that a buffer may keep after a read: those read, and the next one of the same page; a free bit decides for each. Poisoned
lines are not kept. -/
def State.fetched (s : State) (ps : List (Nat × Nat)) : List (Nat × List Byte) :=
  let lines := (byLine ps).map (fun p => p.1 - p.1 % 64)
  let more := match lines.getLast? with | some a => if (a + 64) % 4096 = 0 then [] else [a + 64] | none => []
  ((lines ++ more).filter (fun a => (s.region a).isMemory && Config.freeBool (s.free + a / 64) && !(s.rdMem a 64).2)).map
    (fun a => (a, (s.rdMem a 64).1))

/-- Reads of physical pieces are counted. -/
def State.notePieces (s : State) (ps : List (Nat × Nat)) (part : Option Nat) (die : Nat) : State :=
  ps.foldl (fun s p => s.noteRead p.1 p.2 part die) s

/-- Data written to physical pieces. -/
def State.writeAll (s : State) (ps : List (Nat × Nat)) (bs : List Byte) (bad : Bool) (part : Option Nat) (die : Nat) : State :=
  (writePieces ps bs).foldl (fun s p => s.wrMem p.1 p.2 bad part die) s

/-! ## Region entries -/

/-- The address of a region entry in the table, which lies in PINNED T1 frames of the service partition. -/
def State.regionAt (s : State) (e : Nat) : Option Nat :=
  let base := s.addr HST_REGION_BASE F.HST_REGION_BASE_BASE_LO F.HST_REGION_BASE_BASE_HI
  match s.service? with
  | some p => if s.flag HST_REGION_BASE F.HST_REGION_BASE_EN ∧ s.pinnedT1 p base 0x200000 then some (base + 32 * e) else none
  | none => none

/-- The region entry that serves a request: a cached copy, which may have been dropped before (a free bit), else the table's, whose valid
entries are cached (R412). Poisoned bytes of the table are no valid entry. -/
def State.regionEntry (s : State) (e : Nat) : State × Option RegionEntry :=
  match (if s.anyBool then Table.get? s.pcie.regions e else none) with
  | some r => (s.tookFree, some r)
  | none => match s.regionAt e with
    | none => (s.tookFree, none)
    | some at0 =>
      let b := s.rdMem at0 32
      let r := regionOf b.1
      let s1 := (s.noteRead at0 32 none 8).tookFree
      if b.2 ∨ ¬ r.flags.testBit 0 then (s1, none) else (s1.setPcie { s1.pcie with regions := Table.put s1.pcie.regions e r }, some r)

/-- Does a region entry accept an access of n bytes at an offset: key, LENGTH, and the right of R, W or A (R407)? -/
def RegionEntry.accepts (r : RegionEntry) (key off n acc : Nat) : Bool :=
  r.flags.testBit 0 && decide (r.key = key) && decide (off + n ≤ r.len) && r.flags.testBit (if acc = 0 then 1 else if acc = 1 then 2 else 3)

/-- The pieces of an accepted access by VA and offset through a die's walkers. -/
def State.regionPieces (s : State) (r : RegionEntry) (die off n acc : Nat) : Option (List (Nat × Nat)) :=
  s.guestPieces die r.part acc (pagePieces (r.va + off) n)

/-! ## Requests -/

/-- The access kind of a request: 0 read, 1 write, 2 atomic. -/
def kindAcc : PcieKind → Nat
  | .read => 0 | .write => 1 | _ => 2

/-- The new value of an AtomicOp on n bytes: its operands follow one another in the data; CAS holds the compare value first (R405). -/
def atomicNew (kind : PcieKind) (n old : Nat) (data : List Byte) : Nat :=
  match kind with
  | .fetchAdd => (old + leAt data 0 n) % 2 ^ (8 * n)
  | .swap => leAt data 0 n
  | .cas => if old = leAt data 0 n then leAt data n n else old
  | _ => old

/-- The lines a port fetched ahead. -/
def State.aheadOf (s : State) (port : Nat) : List (Nat × List Byte) := (s.pcie.ahead.filter (fun x => x.1 = port)).map (·.2)

/-- A port's buffer loses the lines of physical pieces. -/
def State.dropAhead (s : State) (port : Nat) (ps : List (Nat × Nat)) : State :=
  let lines := (byLine ps).map (fun p => p.1 - p.1 % 64)
  s.setPcie { s.pcie with ahead := s.pcie.ahead.filter (fun x => x.1 ≠ port || !lines.contains x.2.1) }

/-- A read completes with its data; poisoned data completes as a poisoned TLP and is counted (R399). -/
def State.answerRead (s : State) (port : Nat) (bs : List Byte) (bad : Bool) : State :=
  (if bad then s.count (HST_PORT_POISON port) else s).complete port bad bs

/-- An accepted request on the coherent fabric (R401, R405, R407). -/
def State.inboundMemory (s : State) (port : Nat) (kind : PcieKind) (part n : Nat) (ps : List (Nat × Nat)) (data : List Byte) : State :=
  let die := outsideDie
  match kind with
  | .read =>
    let (bs, bad) := s.buffered (s.aheadOf port) ps
    let s1 := ((s.notePieces ps (some part) die).dropAhead port ps).tookFree
    let s2 := (s1.setPcie { s1.pcie with ahead := (s1.fetched ps).map (fun x => (port, x)) ++ s1.pcie.ahead }).tookFree
    s2.answerRead port bs bad
  | .write => (s.writeAll ps data false (some part) die).dropAhead port ps
  | _ =>
    let old := ps.foldl (fun acc p => let r := s.rdMem p.1 p.2; (acc.1 ++ r.1, acc.2 || r.2)) ([], false)
    let s1 := ((s.notePieces ps (some part) die).writeAll ps (leBytes n (atomicNew kind n (leNat old.1) data)) old.2 (some part) die).dropAhead port ps
    s1.answerRead port old.1 old.2

/-- An access to the alias window of the entry's partition (R407, R42). -/
def State.inboundReg (s : State) (port : Nat) (kind : PcieKind) (r : RegionEntry) (off n : Nat) (data : List Byte) : State :=
  let x : RegAcc := ⟨.pcie r.part, aliasBase + r.part * 0x1000000 + off, n, decide (kind = .write), leNat data⟩
  if kind = .write then s.regWrite x
  else let a := s.regRead x; a.1.complete port false (leBytes n a.2.toNat)

/-- The bytes a request reaches: a write's data, an AtomicOp of 4 or 8 bytes naturally aligned. -/
def requestBytes (kind : PcieKind) (len : Nat) (data : List Byte) : Nat := if kind = .write then data.length else len

/-- An AtomicOp has 32 or 64 bits, and lies naturally aligned in one line (R405). -/
def atomicShape (kind : PcieKind) (off n : Nat) : Bool := decide (kindAcc kind ≠ 2) || ((decide (n = 4) || decide (n = 8)) && decide (off % n = 0))

/-- An inbound request with bit 63 set addresses device memory (R407, R408). -/
def State.inboundDevice (s : State) (port : Nat) (kind : PcieKind) (addr len : Nat) (data : List Byte) : State :=
  let key := bits addr 62 31
  let off := bits addr 30 0
  let n := requestBytes kind len data
  let (s1, found) := s.regionEntry (key % 65536)
  match found with
  | none => s1.refuseInbound port kind len
  | some r =>
    if ¬ r.accepts key off n (kindAcc kind) ∨ ¬ r.ports.testBit port ∨ ¬ atomicShape kind off n then s1.refuseInbound port kind len
    else if r.flags.testBit 4 then
      if kindAcc kind = 2 then s1.refuseInbound port kind len else s1.inboundReg port kind r off n data
    else match s1.regionPieces r (4 * (port / 4)) off n (kindAcc kind) with
      | none => s1.tookFree.refuseInbound port kind len
      | some ps => s1.tookFree.inboundMemory port kind r.part n ps data

/-- PCIE_INBOUND_REQUEST: device memory with bit 63 set; else the FENCE page, a relay, or nothing (R402, R407, R408, R410). -/
def execPcieInboundRequest (port : Nat) (kind : PcieKind) (addr len : Nat) (data : List Byte) (s : State) : Out :=
  if addr.testBit 63 then .next (s.inboundDevice port kind addr len data)
  else if s.inFence port addr ∧ kind = .read then .next (s.fenceRead port)
  else if s.inFence port addr ∧ kind = .write then .next s
  else .next (s.relay port kind addr len data)

end Sys2Proof.Machine
end

