-- ==== Sys2Proof/Machine/Messages.lean ====
section
/-! DEFINITION. What arrives on Morco Link: flits (R453 to R466), messages and their relaying (R469 to R475), control messages (R477 to R479,
R486), and inbound RDMA (R494). -/
namespace Sys2Proof.Machine

/-! ## Messages for other packages (R471) -/

/-- A message is dropped and counted (R470, R471, R475). -/
def State.dropMessage (s : State) (die : Nat) : State := s.count (LNK_MSG_DROPPED die)

/-- A message whose DEST is another package goes on with one hop less, or is dropped (R471). -/
def State.relayMessage (s : State) (die chan : Nat) (bytes : List Byte) : State :=
  let hops := byteOf bytes 21
  if hops ≤ 1 then s.dropMessage die
  else s.send chan (bit (byteOf bytes 1) 0) (leAt bytes 2 2 % 4096) (bytes.take 21 ++ leBytes 1 (hops - 1) ++ bytes.drop 22)

/-- The bytes of a message given by its fields. -/
def msgBytes (m : LinkMsg) (type : Nat) : List Byte :=
  messageBytes { type := type, gr := m.gr, poison := m.poison, space := m.space, dest := m.dst, src := m.src, addr := m.addr, tag := m.tag
                 part := m.part, hops := m.hops, epoch := m.epoch, len := m.len } m.data

/-- The fields of a message of bytes (R469). -/
def msgOf (b : List Byte) : LinkMsg :=
  { src := leAt b 4 2 % 4096, dst := leAt b 2 2 % 4096, hops := byteOf b 21, tag := leAt b 16 4, space := bits (byteOf b 1) 2 2
    part := byteOf b 20, addr := leAt b 8 8, len := leAt b 6 2, epoch := leAt b 24 8, gr := bit (byteOf b 1) 0
    poison := bit (byteOf b 1) 1, data := b.drop 32 }

/-- A response goes to the source of a request, with its TAG and class (R469, R470). -/
def State.respond (s : State) (m : LinkMsg) (type : Nat) (poison : Bool) (data : List Byte) : State :=
  s.send 1 m.gr m.src (messageBytes { type := type, gr := m.gr, poison := poison, dest := m.src, src := s.pkg, addr := m.addr, tag := m.tag } data)

/-! ## Checks of a request (R473) -/

/-- The pieces of n bytes from offset off of ranges that follow one another. -/
def rangePieces : List (Nat × Nat) → Nat → Nat → List (Nat × Nat)
  | [], _, _ => []
  | (b, len) :: l, off, n =>
    if n = 0 then []
    else if len ≤ off then rangePieces l (off - len) n
    else (b + off, min n (len - off)) :: rangePieces l 0 (n - min n (len - off))

/-- The lendings to a package. -/
def State.lendsTo (s : State) (pkg : Nat) : List Nat :=
  (List.range 8).filter (fun j => s.flag (TMV_LEND j) F.TMV_LEND_EN && decide (s.fld (TMV_LEND j) F.TMV_LEND_BORROWER = pkg))

/-- The memory that a request of SPACE 0 reaches: within the lent SIZE, in the lent frames in the order in which they were lent. -/
def State.lentPieces (s : State) (m : LinkMsg) (n : Nat) : Option (List (Nat × Nat)) :=
  let js := s.lendsTo m.src
  let size := (js.map (fun j => s.fld (TMV_LEND j) F.TMV_LEND_SIZE * 2 ^ 30)).foldl (· + ·) 0
  if js.isEmpty ∨ size < m.addr + n then none
  else some (rangePieces ((s.tiers.lent.filter (fun r => js.contains r.1)).map (fun r => (r.2.1, r.2.2))) m.addr n)

/-- The memory that a request reaches, of n bytes; none where it fails a check. The walkers of TD(2n) serve LDn (R380). -/
def State.remotePieces (s : State) (die : Nat) (m : LinkMsg) (n acc : Nat) : Option (List (Nat × Nat)) :=
  if m.space = 0 then s.lentPieces m n
  else if s.granted m.src m.part then s.guestPieces (2 * die) m.part acc (pagePieces m.addr n)
  else none

/-- An access to lent memory: this package's own agents find it unmapped (R307), the borrower's requests do not. -/
def State.asLender (s : State) (lent : Bool) (f : State → State) : State :=
  if lent then
    let s1 := f (s.setTiers { s.tiers with lent := [] })
    s1.setTiers { s1.tiers with lent := s.tiers.lent }
  else f s

/-- A request that fails a check is counted (R473). -/
def State.remoteViolation (s : State) (die : Nat) : State := s.count (LNK_REMOTE_VIOL die)

/-! ## Reads -/

/-- A read that fails a check receives zeros with POISON clear. -/
def State.refuseRead (s : State) (die : Nat) (m : LinkMsg) : State :=
  (s.remoteViolation die).respond m 0x11 false (List.replicate m.len 0)

/-- RD_REQ: checked, and kept until its epoch has been applied; a quote above the current epoch acts as the current one (R403, R473). -/
def State.readReq (s : State) (die : Nat) (m : LinkMsg) : State :=
  match s.remotePieces die m m.len 0 with
  | none => s.refuseRead die m
  | some _ => s.setLnk { s.lnk with reads := s.lnk.reads ++ [(die, { m with epoch := min m.epoch (s.reg HST_VIS_EPOCH).toNat })] }

/-- The lines a link die fetched ahead, of epochs it has not discarded. -/
def State.linkAhead (s : State) (die : Nat) : List (Nat × List Byte) := (s.lnk.ahead.filter (fun x => x.1 = die)).map (·.2.2)

/-- A link die reads memory for a requester: data and poison, the lines it may keep marked with the current epoch (R401, R403). -/
def State.linkRead (s : State) (die : Nat) (part : Option Nat) (lent : Bool) (ps : List (Nat × Nat)) : State × List Byte × Bool :=
  let open' := if lent then s.setTiers { s.tiers with lent := [] } else s
  let (bs, bad) := open'.buffered (s.linkAhead die) ps
  let s1 := (s.asLender lent (fun s => s.notePieces ps part outsideDie)).tookFree
  let kept := ((if lent then s1.setTiers { s1.tiers with lent := [] } else s1).fetched ps).map
    (fun x => (die, (s.reg HST_VIS_EPOCH).toNat, x))
  ((s1.setLnk { s1.lnk with ahead := kept ++ s1.lnk.ahead }).tookFree, bs, bad)

/-- The i-th waiting read of a link die. -/
def State.waitingRead (s : State) (die i : Nat) : Option (Nat × LinkMsg) := (s.lnk.reads.filter (fun x => x.1 = die))[i]?

/-- An RDMA READ waits among the remote reads with this SPACE. -/
def rdmaSpace : Nat := 2

/-- An inbound RDMA request of a queue pair is answered: data, or none for a NAK (R494). -/
def State.rdmaAnswer (s : State) (qpn : Nat) (x : Option (List Byte)) : State := s.setLnk { s.lnk with answers := (qpn, x) :: s.lnk.answers }

/-- A waiting read is served: an RDMA READ by the region entry whose VA it carries (R494), else by R474. -/
def State.serveRead (s : State) (die : Nat) (m : LinkMsg) : State :=
  if m.space = rdmaSpace then
    match s.guestPieces (2 * die) m.part 0 (pagePieces m.addr m.len) with
    | none => (s.remoteViolation die).rdmaAnswer m.tag none
    | some ps => let r := s.linkRead die (some m.part) false ps; r.1.rdmaAnswer m.tag (some r.2.1)
  else match s.remotePieces die m m.len 0 with
    | none => s.refuseRead die m
    | some ps =>
      let r := s.linkRead die (if m.space = 0 then none else some m.part) (decide (m.space = 0)) ps
      r.1.respond m 0x11 r.2.2 r.2.1

/-- REMOTE_READ_SERVE: a waiting read whose epoch the link die has applied is performed and answered; an epoch of 0 waits for nothing
(R403, R474). -/
def execRemoteReadServe (die i : Nat) (s : State) : Out :=
  match s.waitingRead die i with
  | some x =>
    if x.2.epoch = 0 ∨ x.2.epoch ≤ s.applied die then
      .next ((s.setLnk { s.lnk with reads := s.lnk.reads.erase x }).serveRead die x.2)
    else .next s
  | none => .next s

/-! ## Writes -/

/-- A write or register write awaits its acknowledgement on the fabric (R474). -/
def State.awaitAck (s : State) (die : Nat) (m : LinkMsg) (isReg : Bool) : State :=
  s.setLnk { s.lnk with writes := s.lnk.writes ++ [(die, { m with data := [] }, isReg)] }

/-- WR_REQ: checked and performed as WR_LINE; poison travels with the data; a write that fails a check is discarded (R354, R473, R474). -/
def State.writeReq (s : State) (die : Nat) (m : LinkMsg) : State :=
  match s.remotePieces die m m.data.length 1 with
  | none => (s.remoteViolation die).awaitAck die m false
  | some ps =>
    let lent := decide (m.space = 0)
    (s.asLender lent (fun s => s.writeAll ps m.data m.poison (if lent then none else some m.part) outsideDie)).awaitAck die m false

/-- The i-th write of a link die that awaits its acknowledgement. -/
def State.waitingWrite (s : State) (die i : Nat) : Option (Nat × LinkMsg × Bool) := (s.lnk.writes.filter (fun x => x.1 = die))[i]?

/-- REMOTE_WRITE_ACKED: WR_ACK, or REG_RSP with eight zero bytes, goes out (R474). -/
def execRemoteWriteAcked (die i : Nat) (s : State) : Out :=
  match s.waitingWrite die i with
  | some x =>
    let s1 := s.setLnk { s.lnk with writes := s.lnk.writes.erase x }
    .next (if x.2.2 then s1.respond x.2.1 0x13 false (List.replicate 8 0) else s1.respond x.2.1 0x12 false [])
  | none => .next s

/-! ## Registers -/

/-- The register access of a request: 8 bytes at offset ADDR of PART's alias window (R473). -/
def regAccOf (m : LinkMsg) (write : Bool) : RegAcc := ⟨.remote m.src, aliasBase + m.part * 0x1000000 + m.addr, 8, write, leAt m.data 0 8⟩

/-- Does a register request fail a check: an offset outside the window, no access granted, or R18? -/
def State.regRefused (s : State) (m : LinkMsg) (write : Bool) : Bool :=
  decide (0x1000000 ≤ m.addr) || !s.granted m.src m.part || !(s.violKinds (regAccOf m write)).isEmpty

/-- A register request that fails a check is counted; one within the window is a violation of R18 too (R19, R473). -/
def State.countRefused (s : State) (die : Nat) (m : LinkMsg) (write : Bool) : State :=
  (if m.addr < 0x1000000 then (s.regRead (regAccOf m write)).1 else s).remoteViolation die

/-- REG_RD (R473, R474). -/
def State.regReadReq (s : State) (die : Nat) (m : LinkMsg) : State :=
  if s.regRefused m false then (s.countRefused die m false).respond m 0x13 false (List.replicate 8 0)
  else let r := s.regRead (regAccOf m false); r.1.respond m 0x13 false (leBytes 8 r.2.toNat)

/-- REG_WR (R473, R474). -/
def State.regWriteReq (s : State) (die : Nat) (m : LinkMsg) : State :=
  (if s.regRefused m true then s.countRefused die m true else s.regWrite (regAccOf m true)).awaitAck die m true

/-! ## Responses -/

/-- The request that a response answers. -/
def State.requestOf (s : State) (m : LinkMsg) : Option RemoteReq := s.lnk.reqs.find? (fun r => decide (r.tag = m.tag) && decide (r.dest = m.src))

/-- The poison that a read response carries marks what was read, except where a later write of the requester covers it (R354, R474). -/
def State.carryPoison (s : State) (r : RemoteReq) : State :=
  let later := s.lnk.reqs.filter (fun w => w.write && decide (w.dest = r.dest) && decide (r.tag < w.tag))
  ((granules r.addr r.len).filter (fun g => !later.any (fun w => decide (w.addr < g.1 + g.2) && decide (g.1 < w.addr + w.len)))).foldl
    (fun s g => s.poisonWrite g.1 g.2 true) s

/-- A response arrives: the request is over and its destination reachable again; one that nothing awaits is dropped (R475, R476). -/
def State.response (s : State) (die : Nat) (m : LinkMsg) : State :=
  match s.requestOf m with
  | none => s.dropMessage die
  | some r =>
    let s1 := s.setLnk { s.lnk with reqs := s.lnk.reqs.erase r, silent := s.lnk.silent.filter (· ≠ m.src) }
    if r.write then s1
    else (if m.poison then s1.carryPoison r else s1).setResp (BitVec.ofNat 64 (leAt m.data 0 8))

/-- RSP_TIMEOUT: a request without a response: a read completes with poisoned data, the timeout is counted, and the destination becomes
unreachable (R475, R476). -/
def execRspTimeout (die tag : Nat) (s : State) : Out :=
  match s.lnk.reqs.find? (fun r => decide (r.die = die) && decide (r.tag = tag)) with
  | none => .next s
  | some r =>
    let s1 := (s.setLnk { s.lnk with reqs := s.lnk.reqs.erase r, silent := enter r.dest s.lnk.silent }).count (LNK_RSP_TIMEOUTS die)
    let s2 := if r.write then s1 else s1.carryPoison r
    .next (if s.unreachable r.dest then s2 else s2.peerLost die r.dest 2)

/-! ## Message rows -/

/-- A message of a type reaches this package on a channel: it is for another one, or acted on (R470, R471, R473). -/
def State.message (s : State) (die chan type : Nat) (m : LinkMsg) (raw : List Byte) : State :=
  if m.dst ≠ s.pkg then s.relayMessage die chan raw
  else if type = 1 then s.readReq die m
  else if type = 2 then s.writeReq die m
  else if type = 3 then s.regReadReq die m
  else if type = 4 then s.regWriteReq die m
  else if type = 0x20 then s.collArrives ⟨byteOf raw 22, m.tag, m.epoch, m.src, m.addr, m.data⟩
  else s.response die m

/-- RD_REQ (R473). -/
def execRdReq (die : Nat) (msg : LinkMsg) (s : State) : Out := .next (s.message die 0 1 msg (msgBytes msg 1))
/-- WR_REQ (R474). -/
def execWrReq (die : Nat) (msg : LinkMsg) (s : State) : Out := .next (s.message die 0 2 msg (msgBytes msg 2))
/-- REG_RD (R473). -/
def execRegRd (die : Nat) (msg : LinkMsg) (s : State) : Out := .next (s.message die 0 3 msg (msgBytes msg 3))
/-- REG_WR (R473). -/
def execRegWr (die : Nat) (msg : LinkMsg) (s : State) : Out := .next (s.message die 0 4 msg (msgBytes msg 4))
/-- RD_RSP (R474). -/
def execRdRsp (die : Nat) (msg : LinkMsg) (s : State) : Out := .next (s.message die 1 0x11 msg (msgBytes msg 0x11))
/-- WR_ACK (R474). -/
def execWrAck (die : Nat) (msg : LinkMsg) (s : State) : Out := .next (s.message die 1 0x12 msg (msgBytes msg 0x12))
/-- REG_RSP (R474). -/
def execRegRsp (die : Nat) (msg : LinkMsg) (s : State) : Out := .next (s.message die 1 0x13 msg (msgBytes msg 0x13))

/-! ## Flits -/

/-- The message types of R470. -/
def messageTypes : List Nat := [1, 2, 3, 4, 0x11, 0x12, 0x13, 0x20]

/-- The bytes of a message from its header: a read request names the bytes to be read and carries none (R469, log entry 20). -/
def messageSize (b : List Byte) : Nat := if byteOf b 0 = 1 ∨ byteOf b 0 = 3 then 32 else 32 + leAt b 6 2

/-- Is LEN one that R469 allows? -/
def lenOk (b : List Byte) : Bool :=
  decide (leAt b 6 2 ≤ 4096) && decide (leAt b 6 2 % 8 = 0) && (!([3, 4, 0x13].contains (byteOf b 0)) || decide (leAt b 6 2 = 8))

/-- The messages in the bytes received on a channel, and what remains. TYPE 0 and any other TYPE, or a LEN that is not allowed, end the body;
the latter count as dropped (R466, R469, R470). -/
def State.parse (s : State) (die chan : Nat) : Nat → List Byte → State × List Byte
  | 0, b => (s, b)
  | fuel + 1, b =>
    if b.isEmpty then (s, [])
    else if byteOf b 0 = 0 then (s, [])
    else if ¬ messageTypes.contains (byteOf b 0) then (s.dropMessage die, [])
    else if b.length < 32 then (s, b)
    else if ¬ lenOk b then (s.dropMessage die, [])
    else if b.length < messageSize b then (s, b)
    else (s.message die chan (byteOf b 0) (msgOf (b.take (messageSize b))) (b.take (messageSize b))).parse die chan fuel (b.drop (messageSize b))

/-- The body of a STREAM flit: the messages it completes are acted on, and it leaves the receive buffer (R465, R466). -/
def State.streamBody (s : State) (oe v : Nat) (body : List Byte) : State :=
  let old := (Table.get? (s.port oe).part v).getD []
  let (s1, rest) := s.parse (oe / 8) v 8 (old ++ body)
  let p := s1.port oe
  s1.putPort oe { p with part := if rest.isEmpty then Table.del p.part v else Table.put p.part v rest
                         drained := Table.put p.drained v (countOf p.drained v + 1) }

/-- A BEACON for another package goes on with one hop less on the lowest UP port of its route (R471, R477). -/
def State.relayBeacon (s : State) (oe : Nat) (body : List Byte) : State :=
  let hops := byteOf body 1
  if hops ≤ 1 then s.dropMessage (oe / 8)
  else match s.upPorts (leAt body 2 2) with
    | q :: _ => s.sendCtrl q 3 (leAt body 2 2) (byteOf body 6) (body.drop 16) (hops - 1) (some (leAt body 4 2))
    | [] => s.dropMessage (oe / 8)

/-- The body of a CTRL flit (R477 to R479, R486). -/
def State.ctrlBody (s : State) (oe : Nat) (body : List Byte) : State :=
  if byteOf body 0 = 1 then s.timeReq oe (stampAt body 16)
  else if byteOf body 0 = 2 then s.timeRsp (stampAt body 16) (stampAt body 32) (stampAt body 48) (bit (byteOf body 64) 0)
  else if byteOf body 0 = 3 then
    if leAt body 2 2 = s.pkg then s.beaconArrives (byteOf body 6 % 4) ((body.drop 16).take 96) else s.relayBeacon oe body
  else if byteOf body 0 = 4 then s.startChange oe (bit (byteOf body 16) 0)
  else s

/-- The acknowledgement and credit fields of a flit whose CRC passes are taken (R455, R460, R462, R465). -/
def Port.takeFields (p : Port) (b : List Byte) : Port :=
  let a := leAt b 2 2 % 4096
  let p1 := if ¬ bit (leAt b 2 2) 12 then p else if bit (leAt b 2 2) 13 then p.replayFrom a else (p.ack a).getD p
  { p1 with freed := Table.put p1.freed (byteOf b 5 % 4) (leAt b 6 2) }

/-- A sequenced flit by its distance from E: accepted, a gap that asks for a replay once for each E, or a duplicate (R458). -/
def State.sequenced (s : State) (oe kind : Nat) (b : List Byte) : State :=
  let p := s.port oe
  let d := (leAt b 0 2 % 4096 + 4096 - p.expect) % 4096
  if d = 0 then
    let s1 := s.putPort oe { p with expect := (p.expect + 1) % 4096, asked := none }
    let body := (b.drop 12).take 240
    if kind = 1 then s1.streamBody oe (byteOf b 4 % 4) body else s1.ctrlBody oe body
  else if d < 2048 ∧ p.asked ≠ some p.expect then s.putPort oe { p with asked := some p.expect, ask := true }
  else s

/-- FLIT_RECEIVE: an uncorrectable codeword pair discards its five flits, a flit whose CRC fails is discarded; IDLE and TRAIN flits carry only
their acknowledgement and credit fields (R453, R455, R458). -/
def execFlitReceive (die port : Nat) (fec : Ecc) (data : List Byte) (s : State) : Out :=
  let oe := 8 * die + port
  if ¬ s.portUp oe then .next s
  else if fec = .uncorrectable then .next (s.count (LNK_PORT_BAD_FLITS die port) 5)
  else
    let s1 := if fec = .correctable then s.count (LNK_PORT_FEC_CORR die port) else s
    if data.length ≠ 256 ∨ leAt data 252 4 ≠ crc32c (data.take 252) then .next (s1.count (LNK_PORT_BAD_FLITS die port))
    else
      let kind := leAt data 0 2 / 4096
      let s2 := s1.putPort oe ((s1.port oe).takeFields data)
      .next (if kind = 1 ∨ kind = 2 then s2.sequenced oe kind data else s2)

/-! ## Inbound RDMA (R494) -/

/-- Does a handle match a request: valid, its LOCAL_QPN, REMOTE_QPN and REMOTE_IP? -/
def Handle.matches (h : Handle) (qpn ip srcQpn : Nat) : Bool :=
  bit (byteOf h.entry 0) 0 && decide (leAt h.entry 4 3 = qpn) && decide (leAt h.entry 8 3 = srcQpn)
    && decide (leAt h.entry 16 (if bit (byteOf h.entry 0) 1 then 16 else 4) = ip)

/-- An inbound RDMA request that fails is answered with a NAK and counted. -/
def State.rdmaRefused (s : State) (qpn : Nat) : State := (s.remoteViolation 0).rdmaAnswer qpn none

/-- RDMA_INBOUND: matched to a handle, checked against region entry RKEY[15:0] with PORTS 0 and its VA as offset; a write is performed, a
read waits for the current epoch. LD0 serves it (R488, R494). -/
def execRdmaInbound (qpn ip srcQpn rkey addr len : Nat) (write : Bool) (data : List Byte) (s : State) : Out :=
  if ¬ s.lnk.handles.any (fun h => h.2.matches qpn ip srcQpn) then .next (s.rdmaRefused qpn)
  else
    let n := if write then data.length else len
    let acc := if write then 1 else 0
    let (s1, found) := s.regionEntry (rkey % 65536)
    match found with
    | none => .next (s1.rdmaRefused qpn)
    | some r =>
      if ¬ r.accepts rkey addr n acc ∨ r.ports ≠ 0 then .next (s1.rdmaRefused qpn)
      else if r.flags.testBit 4 then
        let x : RegAcc := ⟨.pcie r.part, aliasBase + r.part * 0x1000000 + addr, n, write, leNat data⟩
        if write then .next ((s1.regWrite x).rdmaAnswer qpn (some []))
        else let a := s1.regRead x; .next (a.1.rdmaAnswer qpn (some (leBytes n a.2.toNat)))
      else match s1.regionPieces r 0 addr n acc with
        | none => .next (s1.tookFree.rdmaRefused qpn)
        | some ps =>
          if write then .next ((s1.tookFree.writeAll ps data false (some r.part) outsideDie).rdmaAnswer qpn (some []))
          else .next (s1.tookFree.setLnk { s1.lnk with reads := s1.lnk.reads ++ [(0,
            { src := qpn, dst := 0, hops := 0, tag := qpn, space := rdmaSpace, part := r.part, addr := r.va + addr, len := n
              epoch := (s1.reg HST_VIS_EPOCH).toNat, gr := false, poison := false, data := [] })] })

end Sys2Proof.Machine
end

