-- ==== Sys2Proof/Machine/Updates.lean ====
section
/-! DEFINITION. The update-unit sequencers: UAPPLY and its completion (R253 to R257, R263 to R269, R283). -/
namespace Sys2Proof.Machine

/-- Does the plan of a run hold a lent slot on an engine that matches the sequencer's slot (R253, R267)? -/
def State.lentTo (s : State) (r : Run) (engine : Nat) : Bool :=
  match Table.get? s.adm.plans r.plan with
  | none => false
  | some pl => match pl.slots[r.slot]? with
    | none => false
    | some x => pl.slots.any (fun y => y.isLent && decide (y.engine = engine ∧ y.off = x.off ∧ y.gran = x.gran ∧ y.count = x.count))

/-- The engines that ENGINES selects on a die (R255). -/
def lentEngines (die mask : Nat) : List Nat :=
  (setBits mask 16).map (fun i => eId die 0 i) ++ (setBits (mask / 65536) 16).map (fun i => eId die 1 i)

/-- The CODEs of an ill-formed UAPPLY that its own bytes show (R255, R267, R282). -/
def State.uapplyCodes (s : State) (e : Nat) (r : Run) (b : List Byte) : List Nat :=
  errs [(r.be, 8), (!zerosAt b 1 1 || !zerosAt b 44 20, 4), (!(lentEngines (eDie e) (leAt b 4 4)).all (s.lentTo r), 5)]
  ++ (if leAt b 16 8 % 128 ≠ 0 then [2, 4] else []) ++ (if leAt b 24 8 % 64 ≠ 0 then [4, 7] else [])
  ++ (if leAt b 40 4 = 0 then [4, 6] else [])

/-- The CODEs of a tensor table entry that breaks R251, R259 or R260, or whose flip set is another partition's (R267). -/
def State.entryCodes (s : State) (part : Nat) (b : List Byte) (t : Tensor) : List Nat :=
  errs [(decide (3 < t.rule ∨ t.dims = 0 ∨ 4 < t.dims ∨ 2 < t.kblock ∨ 63 < t.set) || !zerosAt b 80 48
      || !(List.range 4).all (fun i => decide (i < t.dims) || decide (t.ext i = 1))
      || decide (t.master % 64 ≠ 0 ∨ t.moments % 64 ≠ 0 ∨ t.grad % 64 ≠ 0 ∨ t.precond % 64 ≠ 0 ∨ t.work % 4096 ≠ 0)
      || decide (t.rule ≠ 2 ∧ t.precond ≠ 0) || decide ((t.rule = 0 ∨ t.rule = 3) ∧ t.work ≠ 0), 2),
    ((t.rule = 1 || t.rule = 2) && decide (t.dims ≠ 2) || (t.rule = 1 && decide (16384 < t.r ∨ 65536 < t.c)), 3),
    (t.rule = 2 && decide (t.period = 0), 2), (!s.ownsSet part t.set, 9)]

/-- The CODEs of a step parameter block (R252, R267). -/
def paramCodes (b : List Byte) : List Nat := errs [(decide (byteOf b 28 < 8 ∨ 20 < byteOf b 28) || !zerosAt b 29 35, 7)]

/-- The engines a rule needs among ENGINES (R267). -/
def engineCodes (t : Tensor) (mask : Nat) : List Nat :=
  errs [(((t.rule = 1 || t.rule = 2) && decide (mask % 65536 = 0)) || decide (mask / 65536 = 0), 5)]

/-- The parameters of a UAPPLY: the block, the step, and the partition's seed and rounding mode at its start (R264, R283). -/
def State.paramsOf (s : State) (e part step : Nat) (b : List Byte) : Params :=
  { lr := decode32 (leAt b 0 4), b1 := decode32 (leAt b 4 4), b2 := decode32 (leAt b 8 4), eps := decode32 (leAt b 12 4)
    c1 := decode32 (leAt b 16 4), c2 := decode32 (leAt b 20 4), gscale := decode32 (leAt b 24 4), kiter := byteOf b 28, step := step
    seed := (s.reg (UPD_SEED part)).toNat, nearest := s.xfld (UPD_X_SEQ_TUNE (eDie e)) F.UPD_X_SEQ_TUNE_SR_MODE = 1 }

/-- The use of seed and mode that a tensor's item 0 recorded in a step. -/
def State.seedUse (s : State) (part id step : Nat) : Option SeedUse :=
  s.upd.seeds.find? (fun x => decide (x.part = part ∧ x.tensor = id ∧ x.step = step))

/-- Do the seed and mode differ from those at the tensor's item 0 (R283)? -/
def State.seedDiffers (s : State) (part : Nat) (t : Tensor) (p : Params) (first : Nat) : Bool :=
  decide (first ≠ 0) && (match s.seedUse part t.id p.step with
    | some x => decide (x.seed ≠ p.seed ∨ x.mode ≠ p.nearest.toNat)
    | none => false)

/-- Item 0 of a tensor records its seed and mode. -/
def State.noteSeed (s : State) (part : Nat) (t : Tensor) (p : Params) (first : Nat) : State :=
  if first = 0 then s.setUpd { s.upd with
    seeds := ⟨part, t.id, p.step, p.seed, p.nearest.toNat⟩ :: s.upd.seeds.filter (fun x => ¬(x.part = part ∧ x.tensor = t.id)) }
  else s

/-- The live state and gradient that the items of a UAPPLY read (R256): an ELEMENT command its own groups, others the tensor. -/
def State.readLive (s : State) (a : Access) (t : Tensor) (first count : Nat) : Except Trap (Live × State) :=
  let base := if t.rule = 0 then 1024 * first else 0
  let n := if t.rule = 0 then min (1024 * count) (t.size - base) else t.size
  let groups := ceilDiv n 1024
  match s.vRead a (t.grad + 2 * base) (2 * n) with
  | .error x => .error x
  | .ok (g, s1) => match s1.vRead a (t.master + 2 * base) (2 * n) with
    | .error x => .error x
    | .ok (w, s2) => match s2.vRead a (t.moments + 2112 * (base / 1024)) (2112 * groups) with
      | .error x => .error x
      | .ok (m, s3) => match (if t.rule = 2 then s3.vRead a t.precond (12 * t.b * t.b * t.blocks) else .ok ([], s3)) with
        | .error x => .error x
        | .ok (q, s4) => .ok (⟨base, rowCodes 3 n g, rowCodes 3 n w, m, q⟩, s4)

/-- One item's stores, taken out of the engine's pending ones; they wait with the command until it completes. -/
def State.stageItem (s : State) (a : Access) (x : Staged) : Except Trap (List (Nat × Byte) × State) :=
  match foldM (fun s w => s.vWrite a w.1 w.2) x.writes s with
  | .error t => .error t
  | .ok s1 => .ok (s1.pendOf a.engine, s1.modRun a.engine (fun r => { r with pend := [] }))

/-- The items of a UAPPLY in order: their stores and the non-finite values among them. -/
def State.stageItems (s : State) (a : Access) (t : Tensor) (p : Params) (l : Live) :
    List Nat → Except Trap ((List (List (Nat × Byte)) × Nat) × State)
  | [] => .ok (([], 0), s)
  | i :: is =>
    let x := itemOf t p l i
    match s.stageItem a x with
    | .error e => .error e
    | .ok (w, s1) => match s1.stageItems a t p l is with
      | .error e => .error e
      | .ok ((ws, bad), s2) => .ok ((w :: ws, x.bad + bad), s2)

/-- The progress header of R257: at item 0 it is set; else it must hold the step and the next item. Answers whether it holds, with
the header's physical address. -/
def State.progress (s : State) (a : Access) (t : Tensor) (p : Params) (first : Nat) : Except Trap ((Bool × Option Nat) × State) :=
  if t.rule = 0 ∨ t.rule = 3 then .ok ((true, none), s)
  else match s.translate { a with acc := 1 } t.work with
    | .error x => .error x
    | .ok pa =>
      if first = 0 then
        match s.vStore { a with acc := 1 } t.work (leBytes 8 p.step ++ leBytes 8 0) with
        | .error x => .error x
        | .ok s1 => .ok ((true, some pa), s1)
      else match s.vRead a t.work 16 with
        | .error x => .error x
        | .ok (h, s1) => .ok ((decide (leAt h 0 8 = p.step) && decide (leAt h 8 8 = first), some pa), s1)

/-- A UAPPLY whose entry and parameters are read (R257, R267). -/
def State.uapply (s : State) (e : Nat) (r : Run) (b : List Byte) (t : Tensor) (p : Params) : Res :=
  let a := r.access e 0
  let first := leAt b 32 8
  let count := leAt b 40 4
  let s1 := s.putFld (UPD_SEQ_STATUS (eDie e)) F.UPD_SEQ_STATUS_TENSOR_ID t.id
  let past := decide (t.rule ≠ 3 ∧ (groupsOf t p).foldl (· + ·) 0 < first + count)
  if past then .ill [3, 6]
  else if s.seedDiffers r.part t p first then .ill [6]
  else match s1.progress a t p first with
    | .error x => .trap x
    | .ok ((ok, header), s2) =>
      if ¬ ok then .ill [6]
      else
        let s3 := (s2.noteSeed r.part t p first).modRun e (fun r => { r with wait := .busy })
        if t.rule = 3 then
          .stay (s3.setUpd { s3.upd with running := Table.put s3.upd.running (eDie e) ⟨leAt b 2 2, first, [], 0, none⟩ })
        else match s3.readLive a t first count with
          | .error x => .trap x
          | .ok (l, s4) => match s4.stageItems { a with acc := 1 } t p l ((List.range count).map (first + ·)) with
            | .error x => .trap x
            | .ok ((ws, bad), s5) =>
              .stay (s5.setUpd { s5.upd with running := Table.put s5.upd.running (eDie e) ⟨leAt b 2 2, first, ws, bad, header⟩ })

/-- UAPPLY: the items start on the lent engines; what they stage waits for the completion (R257, R267). -/
def execUapply (e : Nat) (s : State) : Out :=
  .next (s.runCmd e (isOp 0x50) (fun r b s1 =>
    if s1.uapplyCodes e r b ≠ [] then .ill (s1.uapplyCodes e r b)
    else match s1.vRead (r.access e 0) (leAt b 16 8) 128 with
      | .error t => .trap t
      | .ok (eb, s2) => match s2.vRead (r.access e 0) (leAt b 24 8) 64 with
        | .error t => .trap t
        | .ok (pb, s3) =>
          let t := tensorOf eb
          let codes := s3.entryCodes r.part eb t ++ paramCodes pb ++ engineCodes t (leAt b 4 4)
          if codes ≠ [] then .ill codes
          else s3.uapply e r b t (s3.paramsOf e r.part (leAt b 8 8) pb)))

/-- The lent engines of a die count free amounts of the work done on them (R254, log entry 22). -/
def State.lentCounts (s : State) (e : Nat) (r : Run) : State :=
  (s.companions e).foldl (fun s c =>
    if eKind c = 0 ∧ s.meCounts c then
      let d := eDie c
      let i := eIdx c
      (((((s.meCycles c s.anyNat s.anyNat).count (TD_ME_ROWS d i) s.anyNat).count (TD_ME_LOADS d i) (Config.freeNat (s.free + 9))).count
        (TD_ME_OUT_NAN d i) (Config.freeNat (s.free + 10))).count (TD_ME_OUT_SAT d i) (Config.freeNat (s.free + 11))).setFree (s.free + 12)
    else if eKind c = 1 ∧ s.veCounts c then
      let d := eDie c
      let i := eIdx c
      (((((s.veCount c s.anyNat (Config.freeNat (s.free + 7)) (Config.freeNat (s.free + 8))).count (TD_VE_EXC_INVALID d i) (Config.freeNat (s.free + 9))).count
        (TD_VE_EXC_DIVZERO d i) (Config.freeNat (s.free + 10))).count (TD_VE_EXC_OVERFLOW d i) (Config.freeNat (s.free + 11))).count
        (TD_VE_EXC_SAT d i) (Config.freeNat (s.free + 12))).setFree (s.free + 13)
    else s) (s.modRun e (fun _ => r))

/-- UAPPLY_COMPLETE: everything staged is written, the progress header moves past the items, and a clean command adds 1 to its
buoy (R257, R265). -/
def execUapplyComplete (e : Nat) (s : State) : Out :=
  match Table.get? s.eng.runs e, Table.get? s.upd.running (eDie e) with
  | some r, some u =>
    if r.wait ≠ .busy ∨ eKind e ≠ 5 then .next s
    else
      let d := eDie e
      let s1 := u.items.foldl (fun s w => s.putAll r.part e w []) s
      let s2 := match u.header with
        | some pa => s1.wrMem (pa + 8) (leBytes 8 (u.first + u.items.length)) false (some r.part) d
        | none => s1
      let s3 := ((s2.count (UPD_SEQ_ITEMS d) u.items.length).count (UPD_SEQ_NONFINITE d) u.nonfinite).putFld (UPD_SEQ_STATUS d)
        F.UPD_SEQ_STATUS_NONFINITE_LAST (decide (u.nonfinite ≠ 0)).toNat
      let s4 := if u.nonfinite = 0 ∧ u.buoy ≠ 0xFFFF then s3.addOwnBuoy r.part u.buoy 1 else s3
      let s5 := s4.setUpd { s4.upd with running := Table.del s4.upd.running d }
      .next ((s5.lentCounts e r).advance e 64)
  | _, _ => .next s

end Sys2Proof.Machine
end

