-- ==== Sys2Proof/Machine/Dispatch.lean ====
section
/-! DEFINITION. The meaning of every command, arm by arm. -/
namespace Sys2Proof.Machine

def exec (i : Instr) (s : State) : Host.Outcome State Fault Refusal :=
  match i with
  | .registerWrite rq addr bytes value => Sys2Proof.Machine.execRegisterWrite rq addr bytes value s
  | .counterLowerHalfRead rq addr => Sys2Proof.Machine.execCounterLowerHalfRead rq addr s
  | .violClear rq => Sys2Proof.Machine.execViolClear rq s
  | .expertSettingApply => Sys2Proof.Machine.execExpertSettingApply s
  | .probeStart rq value => Sys2Proof.Machine.execProbeStart rq value s
  | .probeDone min max mean => Sys2Proof.Machine.execProbeDone min max mean s
  | .trackerEntryFree die => Sys2Proof.Machine.execTrackerEntryFree die s
  | .watchStart => Sys2Proof.Machine.execWatchStart s
  | .holdoverEntry => Sys2Proof.Machine.execHoldoverEntry s
  | .acquireTimeout => Sys2Proof.Machine.execAcquireTimeout s
  | .tbLock => Sys2Proof.Machine.execTbLock s
  | .tbLockLost => Sys2Proof.Machine.execTbLockLost s
  | .watchUnlocked => Sys2Proof.Machine.execWatchUnlocked s
  | .holdoverSplit => Sys2Proof.Machine.execHoldoverSplit s
  | .join rq value => Sys2Proof.Machine.execJoin rq value s
  | .watchCountStep count => Sys2Proof.Machine.execWatchCountStep count s
  | .timeReqSend => Sys2Proof.Machine.execTimeReqSend s
  | .timeReqReceive die port t1 => Sys2Proof.Machine.execTimeReqReceive die port t1 s
  | .timeRspReceive t1 t2 t3 locked => Sys2Proof.Machine.execTimeRspReceive t1 t2 t3 locked s
  | .go rq p value => Sys2Proof.Machine.execGo rq p value s
  | .planAdmit => Sys2Proof.Machine.execPlanAdmit s
  | .cancel rq p value => Sys2Proof.Machine.execCancel rq p value s
  | .slotStart e => Sys2Proof.Machine.execSlotStart e s
  | .beSlotStart e => Sys2Proof.Machine.execBeSlotStart e s
  | .beSuspend e => Sys2Proof.Machine.execBeSuspend e s
  | .beResume e => Sys2Proof.Machine.execBeResume e s
  | .slotWatchdog e => Sys2Proof.Machine.execSlotWatchdog e s
  | .segmentEnd e => Sys2Proof.Machine.execSegmentEnd e s
  | .mload e => Sys2Proof.Machine.execMload e s
  | .shadowLoadDone e => Sys2Proof.Machine.execShadowLoadDone e s
  | .mstream e => Sys2Proof.Machine.execMstream e s
  | .swap e => Sys2Proof.Machine.execSwap e s
  | .mfence e => Sys2Proof.Machine.execMfence e s
  | .mfenceComplete e => Sys2Proof.Machine.execMfenceComplete e s
  | .meCtrClear rq die bank => Sys2Proof.Machine.execMeCtrClear rq die bank s
  | .vload e => Sys2Proof.Machine.execVload e s
  | .vstore e => Sys2Proof.Machine.execVstore e s
  | .vchain e => Sys2Proof.Machine.execVchain e s
  | .vred e => Sys2Proof.Machine.execVred e s
  | .vscan e => Sys2Proof.Machine.execVscan e s
  | .vcompress e => Sys2Proof.Machine.execVcompress e s
  | .vexpand e => Sys2Proof.Machine.execVexpand e s
  | .vxpose e => Sys2Proof.Machine.execVxpose e s
  | .vcntSet e => Sys2Proof.Machine.execVcntSet e s
  | .vcntAdd e => Sys2Proof.Machine.execVcntAdd e s
  | .vcntStore e => Sys2Proof.Machine.execVcntStore e s
  | .vfence e => Sys2Proof.Machine.execVfence e s
  | .vfenceComplete e => Sys2Proof.Machine.execVfenceComplete e s
  | .vsideArmSum e => Sys2Proof.Machine.execVsideArmSum e s
  | .vsideArmMax e => Sys2Proof.Machine.execVsideArmMax e s
  | .vsideStore e => Sys2Proof.Machine.execVsideStore e s
  | .veCtrClear rq die bank => Sys2Proof.Machine.execVeCtrClear rq die bank s
  | .nop e => Sys2Proof.Machine.execNop e s
  | .endSegment e => Sys2Proof.Machine.execEnd e s
  | .bwait e => Sys2Proof.Machine.execBwait e s
  | .bwaitSatisfied e => Sys2Proof.Machine.execBwaitSatisfied e s
  | .bwaitExpired e => Sys2Proof.Machine.execBwaitExpired e s
  | .bsignal e => Sys2Proof.Machine.execBsignal e s
  | .badd e => Sys2Proof.Machine.execBadd e s
  | .bcmp e => Sys2Proof.Machine.execBcmp e s
  | .mpost e => Sys2Proof.Machine.execMpost e s
  | .tstamp e => Sys2Proof.Machine.execTstamp e s
  | .doorbellWrite rq p d value => Sys2Proof.Machine.execDoorbellWrite rq p d value s
  | .buySignal rq p value => Sys2Proof.Machine.execBuySignal rq p value s
  | .buyAdd rq p value => Sys2Proof.Machine.execBuyAdd rq p value s
  | .ccopy e => Sys2Proof.Machine.execCcopy e s
  | .cfill e => Sys2Proof.Machine.execCfill e s
  | .cfence e => Sys2Proof.Machine.execCfence e s
  | .cfenceComplete e => Sys2Proof.Machine.execCfenceComplete e s
  | .completionRecordWrite e => Sys2Proof.Machine.execCompletionRecordWrite e s
  | .ceCtrClear rq die bank => Sys2Proof.Machine.execCeCtrClear rq die bank s
  | .xqPointerMismatch q => Sys2Proof.Machine.execXqPointerMismatch q s
  | .xqResetDone q => Sys2Proof.Machine.execXqResetDone q s
  | .mbxE2HRead rq p => Sys2Proof.Machine.execMbxE2HRead rq p s
  | .mbxK2HRead rq p => Sys2Proof.Machine.execMbxK2HRead rq p s
  | .mbxH2KWrite rq p value => Sys2Proof.Machine.execMbxH2KWrite rq p value s
  | .resetE2H rq p => Sys2Proof.Machine.execResetE2H rq p s
  | .resetH2K rq p => Sys2Proof.Machine.execResetH2K rq p s
  | .resetK2H rq p => Sys2Proof.Machine.execResetK2H rq p s
  | .mbxResetDone p m => Sys2Proof.Machine.execMbxResetDone p m s
  | .injectFire rq value => Sys2Proof.Machine.execInjectFire rq value s
  | .groupApplyGo rq g value => Sys2Proof.Machine.execGroupApplyGo rq g value s
  | .groupApplyEffect g => Sys2Proof.Machine.execGroupApplyEffect g s
  | .cstep e => Sys2Proof.Machine.execCstep e s
  | .creduce e => Sys2Proof.Machine.execCreduce e s
  | .coll g tag step src off data => Sys2Proof.Machine.execColl g tag step src off data s
  | .creduceComplete e => Sys2Proof.Machine.execCreduceComplete e s
  | .exchFailed e => Sys2Proof.Machine.execExchFailed e s
  | .cbeacon e => Sys2Proof.Machine.execCbeacon e s
  | .subroundOpen g => Sys2Proof.Machine.execSubroundOpen g s
  | .beaconMessage g data => Sys2Proof.Machine.execBeaconMessage g data s
  | .beaconDecide g => Sys2Proof.Machine.execBeaconDecide g s
  | .flipToggle => Sys2Proof.Machine.execFlipToggle s
  | .uapply e => Sys2Proof.Machine.execUapply e s
  | .uapplyComplete e => Sys2Proof.Machine.execUapplyComplete e s
  | .xopen e => Sys2Proof.Machine.execXopen e s
  | .xshard e => Sys2Proof.Machine.execXshard e s
  | .xclose e => Sys2Proof.Machine.execXclose e s
  | .streamCloseComplete e => Sys2Proof.Machine.execStreamCloseComplete e s
  | .xrelay e => Sys2Proof.Machine.execXrelay e s
  | .seqCtrClear rq seq => Sys2Proof.Machine.execSeqCtrClear rq seq s
  | .expCtrClear rq exp => Sys2Proof.Machine.execExpCtrClear rq exp s
  | .allocGo rq p value => Sys2Proof.Machine.execAllocGo rq p value s
  | .allocComplete p => Sys2Proof.Machine.execAllocComplete p s
  | .tmvFree rq p value => Sys2Proof.Machine.execTmvFree rq p value s
  | .frameZeroed base => Sys2Proof.Machine.execFrameZeroed base s
  | .tmove e => Sys2Proof.Machine.execTmove e s
  | .frameMoveDone base => Sys2Proof.Machine.execFrameMoveDone base s
  | .stopPoint e => Sys2Proof.Machine.execStopPoint e s
  | .tierLate e => Sys2Proof.Machine.execTierLate e s
  | .routeSettle route => Sys2Proof.Machine.execRouteSettle route s
  | .tmvLendWrite rq j value => Sys2Proof.Machine.execTmvLendWrite rq j value s
  | .tmvQuotaWrite rq p tier value => Sys2Proof.Machine.execTmvQuotaWrite rq p tier value s
  | .demotion p tier => Sys2Proof.Machine.execDemotion p tier s
  | .fwReset rq value => Sys2Proof.Machine.execFwReset rq value s
  | .subLogConfigWrite rq p ctrl value => Sys2Proof.Machine.execSubLogConfigWrite rq p ctrl value s
  | .durableAdvance => Sys2Proof.Machine.execDurableAdvance s
  | .stripeClose => Sys2Proof.Machine.execStripeClose s
  | .writeCacheRoom => Sys2Proof.Machine.execWriteCacheRoom s
  | .readLimitRelocate block => Sys2Proof.Machine.execReadLimitRelocate block s
  | .flashPatrol block weak => Sys2Proof.Machine.execFlashPatrol block weak s
  | .relocationDone block => Sys2Proof.Machine.execRelocationDone block s
  | .dftLifeMark rq value => Sys2Proof.Machine.execDftLifeMark rq value s
  | .flashStackLost stack => Sys2Proof.Machine.execFlashStackLost stack s
  | .stackRebuildDone stack => Sys2Proof.Machine.execStackRebuildDone stack s
  | .hbmBandStart stack => Sys2Proof.Machine.execHbmBandStart stack s
  | .hbmQueueAdmit stack cls write addr bytes => Sys2Proof.Machine.execHbmQueueAdmit stack cls write addr bytes s
  | .hbmRefresh stack temp => Sys2Proof.Machine.execHbmRefresh stack temp s
  | .hbmScrub stack off ecc => Sys2Proof.Machine.execHbmScrub stack off ecc s
  | .hbmCtrClear rq stack => Sys2Proof.Machine.execHbmCtrClear rq stack s
  | .tlbMiss e va acc => Sys2Proof.Machine.execTlbMiss e va acc s
  | .walkComplete walk => Sys2Proof.Machine.execWalkComplete walk s
  | .spillCopyDone e => Sys2Proof.Machine.execSpillCopyDone e s
  | .faultResume rq p slot => Sys2Proof.Machine.execFaultResume rq p slot s
  | .faultAbort rq p slot => Sys2Proof.Machine.execFaultAbort rq p slot s
  | .heldSlotRestore p slot => Sys2Proof.Machine.execHeldSlotRestore p slot s
  | .invalidate rq p value => Sys2Proof.Machine.execInvalidate rq p value s
  | .invalidateComplete p => Sys2Proof.Machine.execInvalidateComplete p s
  | .fqConfigWrite rq p ctrl value => Sys2Proof.Machine.execFqConfigWrite rq p ctrl value s
  | .mmuCtrClear rq die => Sys2Proof.Machine.execMmuCtrClear rq die s
  | .rdShared a addr ecc => Sys2Proof.Machine.execRdShared a addr ecc s
  | .rdUnique a addr data off => Sys2Proof.Machine.execRdUnique a addr data off s
  | .upgrade a addr data off => Sys2Proof.Machine.execUpgrade a addr data off s
  | .rdOnce a addr ecc => Sys2Proof.Machine.execRdOnce a addr ecc s
  | .wrLine a addr data poisoned => Sys2Proof.Machine.execWrLine a addr data poisoned s
  | .writeback a addr data => Sys2Proof.Machine.execWriteback a addr data s
  | .evict a addr => Sys2Proof.Machine.execEvict a addr s
  | .forwardAnswer addr data => Sys2Proof.Machine.execForwardAnswer addr data s
  | .cohTimeout addr => Sys2Proof.Machine.execCohTimeout addr s
  | .pcieInboundRequest port kind addr len data => Sys2Proof.Machine.execPcieInboundRequest port kind addr len data s
  | .fenceRead port => Sys2Proof.Machine.execFenceRead port s
  | .fenceReadComplete port => Sys2Proof.Machine.execFenceReadComplete port s
  | .pcieRelay port kind addr len data => Sys2Proof.Machine.execPcieRelay port kind addr len data s
  | .outboundWindowAccess a addr write data => Sys2Proof.Machine.execOutboundWindowAccess a addr write data s
  | .pcieReadTimeout port tag => Sys2Proof.Machine.execPcieReadTimeout port tag s
  | .regionInv rq value => Sys2Proof.Machine.execRegionInv rq value s
  | .regionInvComplete => Sys2Proof.Machine.execRegionInvComplete s
  | .epochTick => Sys2Proof.Machine.execEpochTick s
  | .iopen e => Sys2Proof.Machine.execIopen e s
  | .irun e => Sys2Proof.Machine.execIrun e s
  | .irunBudgetExpire e => Sys2Proof.Machine.execIrunBudgetExpire e s
  | .iclose e => Sys2Proof.Machine.execIclose e s
  | .sampleFinish e slot => Sys2Proof.Machine.execSampleFinish e slot s
  | .intCtrClear rq die => Sys2Proof.Machine.execIntCtrClear rq die s
  | .idlConfigWrite rq p ctrl value => Sys2Proof.Machine.execIdlConfigWrite rq p ctrl value s
  | .laserLow connector => Sys2Proof.Machine.execLaserLow connector s
  | .laserRestored connector => Sys2Proof.Machine.execLaserRestored connector s
  | .flitReceive die port fec data => Sys2Proof.Machine.execFlitReceive die port fec data s
  | .replayReqReceive die port seq => Sys2Proof.Machine.execReplayReqReceive die port seq s
  | .replayReqRepeat die port => Sys2Proof.Machine.execReplayReqRepeat die port s
  | .replayTimeout die port => Sys2Proof.Machine.execReplayTimeout die port s
  | .rdReq die msg => Sys2Proof.Machine.execRdReq die msg s
  | .remoteReadServe die k => Sys2Proof.Machine.execRemoteReadServe die k s
  | .wrReq die msg => Sys2Proof.Machine.execWrReq die msg s
  | .regRd die msg => Sys2Proof.Machine.execRegRd die msg s
  | .regWr die msg => Sys2Proof.Machine.execRegWr die msg s
  | .remoteWriteAcked die k => Sys2Proof.Machine.execRemoteWriteAcked die k s
  | .rdRsp die msg => Sys2Proof.Machine.execRdRsp die msg s
  | .wrAck die msg => Sys2Proof.Machine.execWrAck die msg s
  | .regRsp die msg => Sys2Proof.Machine.execRegRsp die msg s
  | .rspTimeout die tag => Sys2Proof.Machine.execRspTimeout die tag s
  | .portChange die port value => Sys2Proof.Machine.execPortChange die port value s
  | .retrain rq die port => Sys2Proof.Machine.execRetrain rq die port s
  | .fullTrain rq die port => Sys2Proof.Machine.execFullTrain rq die port s
  | .change rq die port value => Sys2Proof.Machine.execChange rq die port value s
  | .trainingComplete die port pkg peer => Sys2Proof.Machine.execTrainingComplete die port pkg peer s
  | .trainingFail die port cause => Sys2Proof.Machine.execTrainingFail die port cause s
  | .trainingRetry die port => Sys2Proof.Machine.execTrainingRetry die port s
  | .portDown die port => Sys2Proof.Machine.execPortDown die port s
  | .ethQpBaseWrite rq value => Sys2Proof.Machine.execEthQpBaseWrite rq value s
  | .ethQpError h => Sys2Proof.Machine.execEthQpError h s
  | .rdmaInbound qpn ip srcQpn rkey addr len write data => Sys2Proof.Machine.execRdmaInbound qpn ip srcQpn rkey addr len write data s
  | .ethHandleReset rq mask => Sys2Proof.Machine.execEthHandleReset rq mask s
  | .lnkCtrClear rq die => Sys2Proof.Machine.execLnkCtrClear rq die s
  | .powerUp fail => Sys2Proof.Machine.execPowerUp fail s
  | .sextantBand inputW vin energies => Sys2Proof.Machine.execSextantBand inputW vin energies s
  | .fastLimit => Sys2Proof.Machine.execFastLimit s
  | .opChangeDone die => Sys2Proof.Machine.execOpChangeDone die s
  | .modeTakesEffect => Sys2Proof.Machine.execModeTakesEffect s
  | .unitUnavailable unit => Sys2Proof.Machine.execUnitUnavailable unit s
  | .thermalSample source temp => Sys2Proof.Machine.execThermalSample source temp s
  | .emergencyEnd => Sys2Proof.Machine.execEmergencyEnd s
  | .powerFailWarning => Sys2Proof.Machine.execPowerFailWarning s
  | .powerDown => Sys2Proof.Machine.execPowerDown s
  | .powerRestore => Sys2Proof.Machine.execPowerRestore s
  | .railFault rail => Sys2Proof.Machine.execRailFault rail s
  | .railOutOfWindow rail => Sys2Proof.Machine.execRailOutOfWindow rail s
  | .overVoltage => Sys2Proof.Machine.execOverVoltage s
  | .refclkLoss => Sys2Proof.Machine.execRefclkLoss s
  | .refclkRestore => Sys2Proof.Machine.execRefclkRestore s
  | .pwrCtrClear rq => Sys2Proof.Machine.execPwrCtrClear rq s
  | .stageKeeper copies spareOk ms => Sys2Proof.Machine.execStageKeeper copies spareOk ms s
  | .stageChart ms => Sys2Proof.Machine.execStageChart ms s
  | .stageClocksAndNetwork fail full ms => Sys2Proof.Machine.execStageClocksAndNetwork fail full ms s
  | .stageMemories hbmFail dimm dimmGiB dimmMts full ms => Sys2Proof.Machine.execStageMemories hbmFail dimm dimmGiB dimmMts full ms s
  | .stageLinks pcie full ms => Sys2Proof.Machine.execStageLinks pcie full ms s
  | .stageCompute fail ms => Sys2Proof.Machine.execStageCompute fail ms s
  | .chartWrite rq slot => Sys2Proof.Machine.execChartWrite rq slot s
  | .chartSelect rq slot => Sys2Proof.Machine.execChartSelect rq slot s
  | .licInstall rq => Sys2Proof.Machine.execLicInstall rq s
  | .invSettings rq => Sys2Proof.Machine.execInvSettings rq s
  | .chartReset rq => Sys2Proof.Machine.execChartReset rq s
  | .chtCommandEnd => Sys2Proof.Machine.execChtCommandEnd s
  | .ping kmsg => Sys2Proof.Machine.execPing kmsg s
  | .identity kmsg => Sys2Proof.Machine.execIdentity kmsg s
  | .debugOpen kmsg => Sys2Proof.Machine.execDebugOpen kmsg s
  | .debugOpened => Sys2Proof.Machine.execDebugOpened s
  | .keeperReply p => Sys2Proof.Machine.execKeeperReply p s
  | .spareMappingEffect => Sys2Proof.Machine.execSpareMappingEffect s
  | .sbRegRd entry => Sys2Proof.Machine.execSbRegRd entry s
  | .sbRegWr entry raw => Sys2Proof.Machine.execSbRegWr entry raw s
  | .sbBlock entry raw => Sys2Proof.Machine.execSbBlock entry raw s
  | .sbBlockTimeout => Sys2Proof.Machine.execSbBlockTimeout s
  | .sbReplyRead => Sys2Proof.Machine.execSbReplyRead s
  | .sysReset ms => Sys2Proof.Machine.execSysReset ms s
  | .patternLoadDone unit poisoned => Sys2Proof.Machine.execPatternLoadDone unit poisoned s
  | .ftSegmentStart unit => Sys2Proof.Machine.execFtSegmentStart unit s
  | .ftSegmentEnd unit pass => Sys2Proof.Machine.execFtSegmentEnd unit pass s
  | .ftStarved unit => Sys2Proof.Machine.execFtStarved unit s
  | .ftsRun rq value => Sys2Proof.Machine.execFtsRun rq value s
  | .ftsCtrClear rq => Sys2Proof.Machine.execFtsCtrClear rq s
  | .logEventReceive die => Sys2Proof.Machine.execLogEventReceive die s
  | .logWindowEnd => Sys2Proof.Machine.execLogWindowEnd s
  | .incidentClose => Sys2Proof.Machine.execIncidentClose s
  | .logRdSelWrite rq value => Sys2Proof.Machine.execLogRdSelWrite rq value s
  | .logReadReady => Sys2Proof.Machine.execLogReadReady s
  | .traceConfigWrite rq ctrl value => Sys2Proof.Machine.execTraceConfigWrite rq ctrl value s
  | .outboundReadCompletion port tag ok data => Sys2Proof.Machine.execOutboundReadCompletion port tag ok data s
  | .downstreamMsi port hart eiid => Sys2Proof.Machine.execDownstreamMsi port hart eiid s
  | .roceAckReceive h psn nak => Sys2Proof.Machine.execRoceAckReceive h psn nak s
  | .localAckTimeout h => Sys2Proof.Machine.execLocalAckTimeout h s
  | .congestionNotification h => Sys2Proof.Machine.execCongestionNotification h s
  | .rateRecovery h => Sys2Proof.Machine.execRateRecovery h s
  | .priorityFlowControl oe prio pause => Sys2Proof.Machine.execPriorityFlowControl oe prio pause s
  | .flitSlot die port => Sys2Proof.Machine.execFlitSlot die port s
  | .powerUpRetry => Sys2Proof.Machine.execPowerUpRetry s
  | .ftTestDue unit => Sys2Proof.Machine.execFtTestDue unit s
  | .inputBelowDropout => Sys2Proof.Machine.execInputBelowDropout s

end Sys2Proof.Machine
end

