-- ==== Sys2Proof/Safety.lean ====
section
/-! DEFINITION. What counts as a well-formed state: the stores that claims compare byte by byte are in canonical form. -/
namespace Sys2Proof

/-- Memory is in canonical form: addresses strictly rising, no entry equal to what an unlisted address reads as. -/
def Memory.wf (m : List Host.Cell) : Bool := Machine.Sparse.wf m

/-- The state's registers, memory and cluster SRAM are in canonical form. -/
def Machine.State.Inv (s : Machine.State) : Prop :=
  Machine.Sparse.wf s.regs = true ∧ Memory.wf s.mem = true ∧ Memory.wf s.sram = true

end Sys2Proof
end

