-- ==== Sys2Proof/Certificates/Slice0/Obligations.lean ====
section
/-! DEFINITION. The statements for the provers, each over any state of the B9, with the words they share. A statement names every
command it speaks of; where a condition says when a command has its effect, it speaks of the state and the operands alone. -/
namespace Sys2Proof.Claims
open Sys2Proof.Machine

/-- The registers of the Logbook that a report may change (R579 to R587). -/
def reportRegs : List Nat := [LOG_SEQ, LOG_STATUS, LOG_ALARM, LOG_SUPPRESSED, LOG_TRACE_DROPS]

/-- Registers outside a list keep their values. -/
def KeepRegs (s t : State) (ks : List Nat) : Prop := ∀ k, k ∉ ks → t.reg k = s.reg k

/-- Only the registers of a list have changed: every other register, and all of the state beside the registers, are as before. -/
def OnlyRegs (s t : State) (ks : List Nat) : Prop := KeepRegs s t ks ∧ t = s.setRegs t.regs

/-- The fields of a register hold what those bits of a written value say. -/
def Takes (t : State) (k v : Nat) (fs : List Fld) : Prop := ∀ f ∈ fs, t.fld k f = fget (BitVec.ofNat 64 v) f

/-- Is a one-bit field set in a written value? -/
abbrev asks (v : Nat) (f : Fld) : Prop := fget (BitVec.ofNat 64 v) f = 1

/-- A 64-bit write of a register of no partition: the Keeper's domain is on and the access violates none of R18's rules. -/
abbrev RowAccess (s : State) (rq : Requester) (k v : Nat) : Prop :=
  s.keeperOn = true ∧ s.violKinds ⟨rq, s.rowAddr rq k, 8, true, v⟩ = []

/-- A 64-bit access to a register of partition p that violates none of R18's rules; the Keeper and the sideband, which use the block
windows, have selected the partition in KPR_PSEL (R611). -/
abbrev PartAccess (s : State) (rq : Requester) (p k : Nat) (wr : Bool) (v : Nat) : Prop :=
  s.keeperOn = true ∧ s.violKinds ⟨rq, partAddr rq p k, 8, wr, v⟩ = [] ∧ (rq = .keeper ∨ rq = .sideband → s.selected rq = some p)

end Sys2Proof.Claims

namespace Sys2Proof.Claims
open Sys2Proof.Machine

/-- A command clears a list of registers and changes nothing else. -/
def Clears (c : Instr) (s : State) (ks : List Nat) : Prop :=
  ∃ t, exec c s = .next t ∧ (∀ k ∈ ks, t.reg k = 0) ∧ OnlyRegs s t ks

/-- The counters and error record of a matrix engine (R127). -/
def meBank (d i : Nat) : List Nat :=
  [TD_ME_ERR_LAST d i, TD_ME_CYC_BUSY d i, TD_ME_CYC_ADV d i, TD_ME_FROZEN d i, TD_ME_FRZ_FEED_A d i, TD_ME_FRZ_FEED_B d i, TD_ME_FRZ_DRAIN d i,
   TD_ME_FRZ_SHADOW d i, TD_ME_ROWS d i, TD_ME_LOADS d i, TD_ME_OUT_NAN d i, TD_ME_OUT_SAT d i, TD_ME_WAIT d i]

/-- The counters and error record of a vector engine (R171). -/
def veBank (d i : Nat) : List Nat :=
  [TD_VE_ERR_LAST d i, TD_VE_CYC_BUSY d i, TD_VE_CYC_ACT d i, TD_VE_WAIT_MEM d i, TD_VE_WAIT_DEP d i, TD_VE_WAIT d i, TD_VE_CMDS d i,
   TD_VE_EXC_INVALID d i, TD_VE_EXC_DIVZERO d i, TD_VE_EXC_OVERFLOW d i, TD_VE_EXC_SAT d i, TD_VE_SIDE_USE d i]

/-- The counters and error record of a copy engine (R215). -/
def ceBank (d i : Nat) : List Nat :=
  [TD_CE_ERR_LAST d i, TD_CE_CYC_BUSY d i, TD_CE_CYC_ACT d i, TD_CE_WAIT_MEM d i, TD_CE_WAIT d i, TD_CE_BYTES d i, TD_CE_CMDS d i]

/-- The counters of a link die and of its eight ports (R495). -/
def lnkBank (n : Nat) : List Nat :=
  [LNK_RSP_TIMEOUTS n, LNK_MSG_DROPPED n, LNK_REMOTE_VIOL n] ++
  ((List.range 8).map (fun i => [LNK_PORT_FLITS n i, LNK_PORT_REPLAYED n i, LNK_PORT_FEC_CORR n i, LNK_PORT_BAD_FLITS n i, LNK_PORT_DOWNS n i])).flatten

/-- The counters of the Sextant and PWR_THERM_LAST (R534). -/
def pwrBank : List Nat :=
  [PWR_THERM_LAST, PWR_BELOW_PROMISE, PWR_HOLD_BANDS, PWR_BOOST_BANDS] ++ ((List.range 8).map (fun i => [PWR_TD_ENERGY i, PWR_TD_CAPPED i])).flatten

end Sys2Proof.Claims

section
open Sys2Proof Sys2Proof.Machine Sys2Proof.Claims

/-- ME_CTR_CLEAR, VE_CTR_CLEAR, CE_CTR_CLEAR and the clear commands of the sequencers, exporters, HBM stacks, walkers, intake dies, link dies, the Sextant, the field
test and the violation counters, where they violate no access rule, clear exactly their own bank's counters and records: every other register and
all of the state beside the registers stay (R49, R127, R171, R215, R282, R362, R384, R449, R495, R534, R589). -/
def Obligations.ClearCommandsClearTheirBank : Prop :=
  ∀ (s : State) (rq : Requester) (d n i : Nat),
    (d < 8 → i < 16 → RowAccess s rq (TD_ME_CTR_CLEAR d i) 1 → Clears (.meCtrClear rq d i) s (meBank d i)) ∧
    (d < 8 → i < 16 → RowAccess s rq (TD_VE_CTR_CLEAR d i) 1 → Clears (.veCtrClear rq d i) s (veBank d i)) ∧
    (d < 8 → i < 8 → RowAccess s rq (TD_CE_CTR_CLEAR d i) 1 → Clears (.ceCtrClear rq d i) s (ceBank d i)) ∧
    (n < 8 → RowAccess s rq (UPD_SEQ_CTR_CLEAR n) 1 →
      Clears (.seqCtrClear rq n) s [UPD_SEQ_ERR_LAST n, UPD_SEQ_ITEMS n, UPD_SEQ_NONFINITE n]) ∧
    (n < 4 → RowAccess s rq (UPD_EXP_CTR_CLEAR n) 1 →
      Clears (.expCtrClear rq n) s [UPD_EXP_ERR_LAST n, UPD_EXP_BYTES n, UPD_EXP_TORN n]) ∧
    (n < 16 → RowAccess s rq (HBM_CTR_CLEAR n) 1 →
      Clears (.hbmCtrClear rq n) s [HBM_ERR_LAST n, HBM_RD_BYTES n, HBM_WR_BYTES n, HBM_LC_BYTES n, HBM_NARROW n, HBM_CE n, HBM_UE n]) ∧
    (n < 8 → RowAccess s rq (MMU_CTR_CLEAR n) 1 →
      Clears (.mmuCtrClear rq n) s [MMU_WALKS n, MMU_TLB_MISSES n, MMU_WALK_MAX n]) ∧
    (n < 2 → RowAccess s rq (INT_CTR_CLEAR n) 1 →
      Clears (.intCtrClear rq n) s [INT_ERR_LAST n, INT_BAD_LAST n, INT_SAMPLES n, INT_BAD n, INT_STEERED n, INT_BYTES_IN n]) ∧
    (n < 4 → RowAccess s rq (LNK_CTR_CLEAR n) 1 → Clears (.lnkCtrClear rq n) s (lnkBank n)) ∧
    (RowAccess s rq PWR_CTR_CLEAR 1 → Clears (.pwrCtrClear rq) s pwrBank) ∧
    (RowAccess s rq FTS_CTR_CLEAR 1 → Clears (.ftsCtrClear rq) s [FTS_TESTS, FTS_FAILS, FTS_ABORTS]) ∧
    (RowAccess s rq KPR_VIOL_CLEAR 1 →
      Clears (.violClear rq) s ([KPR_VIOLATIONS, KPR_VIOL_SIZE, KPR_VIOL_ALIGN, KPR_VIOL_UNMAPPED, KPR_VIOL_EXPERT, KPR_VIOL_ALIAS,
        KPR_VIOL_WINDOW, KPR_VIOL_PHYS, KPR_VIOL_LAST] ++ (List.range 32).map KPR_PART_VIOLATIONS))

end

section
open Sys2Proof Sys2Proof.Machine Sys2Proof.Claims

/-- A write of a log's base or control register takes the written fields, sets that log's head to 0 and changes nothing else:
FQ_CONFIG_WRITE, IDL_CONFIG_WRITE, SUB_LOG_CONFIG_WRITE and TRACE_CONFIG_WRITE (R303, R378, R440, R592). -/
def Obligations.LogConfigWritesRestartTheLog : Prop :=
  ∀ (s : State) (rq : Requester) (p v : Nat),
    (PartAccess s rq p (MMU_FQ_ADDR p) true v → ∃ t, exec (.fqConfigWrite rq p false v) s = .next t ∧ t.reg (MMU_FQ_HEAD p) = 0 ∧
      Takes t (MMU_FQ_ADDR p) v [F.MMU_FQ_ADDR_ADDR_LO, F.MMU_FQ_ADDR_ADDR_HI] ∧ OnlyRegs s t [MMU_FQ_ADDR p, MMU_FQ_HEAD p]) ∧
    (PartAccess s rq p (MMU_FQ_CTRL p) true v → ∃ t, exec (.fqConfigWrite rq p true v) s = .next t ∧ t.reg (MMU_FQ_HEAD p) = 0 ∧
      Takes t (MMU_FQ_CTRL p) v [F.MMU_FQ_CTRL_LOG2, F.MMU_FQ_CTRL_BUOY, F.MMU_FQ_CTRL_BUOY_EN] ∧ OnlyRegs s t [MMU_FQ_CTRL p, MMU_FQ_HEAD p]) ∧
    (PartAccess s rq p (INT0_IDL_ADDR p) true v → ∃ t, exec (.idlConfigWrite rq p false v) s = .next t ∧ t.reg (INT0_IDL_HEAD p) = 0 ∧
      Takes t (INT0_IDL_ADDR p) v [F.INT0_IDL_ADDR_ADDR_LO, F.INT0_IDL_ADDR_ADDR_HI] ∧ OnlyRegs s t [INT0_IDL_ADDR p, INT0_IDL_HEAD p]) ∧
    (PartAccess s rq p (INT0_IDL_CTRL p) true v → ∃ t, exec (.idlConfigWrite rq p true v) s = .next t ∧ t.reg (INT0_IDL_HEAD p) = 0 ∧
      Takes t (INT0_IDL_CTRL p) v [F.INT0_IDL_CTRL_LOG2] ∧ OnlyRegs s t [INT0_IDL_CTRL p, INT0_IDL_HEAD p]) ∧
    (PartAccess s rq p (TMV_SUB_ADDR p) true v → ∃ t, exec (.subLogConfigWrite rq p false v) s = .next t ∧ t.reg (TMV_SUB_HEAD p) = 0 ∧
      Takes t (TMV_SUB_ADDR p) v [F.TMV_SUB_ADDR_ADDR_LO, F.TMV_SUB_ADDR_ADDR_HI] ∧ OnlyRegs s t [TMV_SUB_ADDR p, TMV_SUB_HEAD p]) ∧
    (PartAccess s rq p (TMV_SUB_CTRL p) true v → ∃ t, exec (.subLogConfigWrite rq p true v) s = .next t ∧ t.reg (TMV_SUB_HEAD p) = 0 ∧
      Takes t (TMV_SUB_CTRL p) v [F.TMV_SUB_CTRL_LOG2] ∧ OnlyRegs s t [TMV_SUB_CTRL p, TMV_SUB_HEAD p]) ∧
    (RowAccess s rq LOG_TRACE_ADDR v → ∃ t, exec (.traceConfigWrite rq false v) s = .next t ∧ t.reg LOG_TRACE_HEAD = 0 ∧
      Takes t LOG_TRACE_ADDR v [F.LOG_TRACE_ADDR_ADDR_LO, F.LOG_TRACE_ADDR_ADDR_HI] ∧ OnlyRegs s t [LOG_TRACE_ADDR, LOG_TRACE_HEAD]) ∧
    (RowAccess s rq LOG_TRACE_CTRL v → ∃ t, exec (.traceConfigWrite rq true v) s = .next t ∧ t.reg LOG_TRACE_HEAD = 0 ∧
      Takes t LOG_TRACE_CTRL v [F.LOG_TRACE_CTRL_LOG2] ∧ OnlyRegs s t [LOG_TRACE_CTRL, LOG_TRACE_HEAD])

/-- Reading a mailbox of a partition that is not in reset (MBX_E2H_READ, mailbox 0, and MBX_K2H_READ, mailbox 2) answers the oldest entry
and removes it; an empty one answers 0 and sets its underflow bit; one in reset answers 0 and changes nothing (R211, R212). -/
def Obligations.MailboxReadTakesTheOldest : Prop :=
  ∀ (s : State) (rq : Requester) (p : Nat),
    (PartAccess s rq p (MBX_E2H_READ p) false 0 → ∃ t, exec (.mbxE2HRead rq p) s = .next t ∧
      ((s.mbox (3 * p)).resetting = true → t = s.setResp 0) ∧
      ((s.mbox (3 * p)).resetting = false → (s.mbox (3 * p)).entries = [] → t.resp = 0 ∧ t.flag (MBX_STATUS p) F.MBX_STATUS_E2H_UNDER = true ∧
        OnlyRegs (s.setResp 0) t [MBX_STATUS p]) ∧
      (∀ v rest, (s.mbox (3 * p)).resetting = false → (s.mbox (3 * p)).entries = v :: rest → t.resp = v ∧ (t.mbox (3 * p)).entries = rest ∧
        (∀ i, i ≠ 3 * p → t.mbox i = s.mbox i) ∧ t = (s.setXq t.xq).setResp v)) ∧
    (PartAccess s rq p (MBX_K2H_READ p) false 0 → ∃ t, exec (.mbxK2HRead rq p) s = .next t ∧
      ((s.mbox (3 * p + 2)).resetting = true → t = s.setResp 0) ∧
      ((s.mbox (3 * p + 2)).resetting = false → (s.mbox (3 * p + 2)).entries = [] → t.resp = 0 ∧ t.flag (MBX_STATUS p) F.MBX_STATUS_K2H_UNDER = true ∧
        OnlyRegs (s.setResp 0) t [MBX_STATUS p]) ∧
      (∀ v rest, (s.mbox (3 * p + 2)).resetting = false → (s.mbox (3 * p + 2)).entries = v :: rest → t.resp = v ∧
        (t.mbox (3 * p + 2)).entries = rest ∧ (∀ i, i ≠ 3 * p + 2 → t.mbox i = s.mbox i) ∧ t = (s.setXq t.xq).setResp v))

/-- MBX_H2K_WRITE enters the word behind the host-to-Keeper mailbox's entries, or, where the mailbox is full or in reset, discards it,
counts it in MBX_DROPS and sets H2K_DROP; RESET_E2H, RESET_H2K and RESET_K2H discard a mailbox's entries and hold it in reset, and INJECT_FIRE
starts a reset of the mailbox it names that discards its entries too (R205, R210, R212, R214). -/
def Obligations.MailboxWritesAndResets : Prop :=
  ∀ (s : State) (rq : Requester) (p v : Nat),
    (PartAccess s rq p (MBX_H2K_WRITE p) true v → ∃ t, exec (.mbxH2KWrite rq p v) s = .next t ∧
      ((s.mbox (3 * p + 1)).resetting = false → (s.mbox (3 * p + 1)).entries.length < 64 →
        (t.mbox (3 * p + 1)).entries = (s.mbox (3 * p + 1)).entries ++ [BitVec.ofNat 64 v] ∧ (∀ i, i ≠ 3 * p + 1 → t.mbox i = s.mbox i) ∧
        KeepRegs s t []) ∧
      ((s.mbox (3 * p + 1)).resetting = true ∨ 64 ≤ (s.mbox (3 * p + 1)).entries.length →
        t.reg (MBX_DROPS p) = BitVec.ofNat 64 (sat64 (s.reg (MBX_DROPS p)).toNat 1) ∧ t.flag (MBX_STATUS p) F.MBX_STATUS_H2K_DROP = true ∧
        OnlyRegs s t [MBX_DROPS p, MBX_STATUS p])) ∧
    (PartAccess s rq p (MBX_CTRL p) true (oneBit F.MBX_CTRL_RESET_E2H) → ∃ t, exec (.resetE2H rq p) s = .next t ∧
      (t.mbox (3 * p)).entries = [] ∧ (t.mbox (3 * p)).resetting = true ∧ t.flag (MBX_CTRL p) F.MBX_CTRL_RESET_E2H = true ∧
      (∀ i, i ≠ 3 * p → t.mbox i = s.mbox i) ∧ KeepRegs s t [MBX_CTRL p]) ∧
    (PartAccess s rq p (MBX_CTRL p) true (oneBit F.MBX_CTRL_RESET_H2K) → ∃ t, exec (.resetH2K rq p) s = .next t ∧
      (t.mbox (3 * p + 1)).entries = [] ∧ (t.mbox (3 * p + 1)).resetting = true ∧ t.flag (MBX_CTRL p) F.MBX_CTRL_RESET_H2K = true ∧
      (∀ i, i ≠ 3 * p + 1 → t.mbox i = s.mbox i) ∧ KeepRegs s t [MBX_CTRL p]) ∧
    (PartAccess s rq p (MBX_CTRL p) true (oneBit F.MBX_CTRL_RESET_K2H) → ∃ t, exec (.resetK2H rq p) s = .next t ∧
      (t.mbox (3 * p + 2)).entries = [] ∧ (t.mbox (3 * p + 2)).resetting = true ∧ t.flag (MBX_CTRL p) F.MBX_CTRL_RESET_K2H = true ∧
      (∀ i, i ≠ 3 * p + 2 → t.mbox i = s.mbox i) ∧ KeepRegs s t [MBX_CTRL p]) ∧
    (∀ m, RowAccess s rq BUY_X_INJECT v → asks v F.BUY_X_INJECT_FIRE → fget (BitVec.ofNat 64 v) F.BUY_X_INJECT_MBX = m → m < 96 →
      (s.mbox m).resetting = false → ∃ t, exec (.injectFire rq v) s = .next t ∧ (t.mbox m).entries = [] ∧ (t.mbox m).resetting = true ∧
      (∀ i, i ≠ m → t.mbox i = s.mbox i) ∧ t.flag (MBX_STATUS (m / 3)) ⟨8 + m % 3, 8 + m % 3⟩ = true ∧
      t.reg BUY_XQ_RESETS = BitVec.ofNat 64 (sat64 (s.reg BUY_XQ_RESETS).toNat 1) ∧ t.fld BUY_XQ_LAST F.BUY_XQ_LAST_MBX = m ∧
      t.flag BUY_XQ_LAST F.BUY_XQ_LAST_VALID = true)

end

section
open Sys2Proof Sys2Proof.Machine Sys2Proof.Claims

/-- BUY_SIGNAL sets the buoy that its data name to their VALUE, BUY_ADD adds its sign-extended VALUE modulo 2^64, and every other buoy and
all of memory stay; a doorbell write publishes its length, and an engine that waits at that doorbell of the partition for a position
the new length covers goes on, while every other run stays as it was (R182, R191). -/
def Obligations.BuoyAndDoorbellWrites : Prop :=
  ∀ (s : State) (rq : Requester) (p v : Nat),
    (PartAccess s rq p (BUY_SIGNAL p) true v → ∃ t, exec (.buySignal rq p v) s = .next t ∧
      t.buoy (fget (BitVec.ofNat 64 v) F.BUY_SIGNAL_BUOY) = BitVec.ofNat 64 (fget (BitVec.ofNat 64 v) F.BUY_SIGNAL_VALUE) ∧
      (∀ b, b < 16384 → b ≠ fget (BitVec.ofNat 64 v) F.BUY_SIGNAL_BUOY → t.buoy b = s.buoy b) ∧ (∀ a, t.byteAt a = s.byteAt a)) ∧
    (PartAccess s rq p (BUY_ADD p) true v → ∃ t, exec (.buyAdd rq p v) s = .next t ∧
      t.buoy (fget (BitVec.ofNat 64 v) F.BUY_ADD_BUOY) =
        s.buoy (fget (BitVec.ofNat 64 v) F.BUY_ADD_BUOY) + BitVec.ofInt 64 (signed 48 (fget (BitVec.ofNat 64 v) F.BUY_ADD_VALUE)) ∧
      (∀ b, b < 16384 → b ≠ fget (BitVec.ofNat 64 v) F.BUY_ADD_BUOY → t.buoy b = s.buoy b) ∧ (∀ a, t.byteAt a = s.byteAt a)) ∧
    (∀ d, d < 64 → PartAccess s rq p (BUY_DOORBELL p d) true v → ∃ t, exec (.doorbellWrite rq p d v) s = .next t ∧
      t.fld (BUY_DOORBELL p d) F.BUY_DOORBELL_PUBLISHED = fget (BitVec.ofNat 64 v) F.BUY_DOORBELL_PUBLISHED ∧
      (∀ e r, Table.get? s.eng.runs e = some r → r.wait = .doorbell → r.part = p → r.doorbell = d →
        r.pos + 64 ≤ fget (BitVec.ofNat 64 v) F.BUY_DOORBELL_PUBLISHED / 64 * 64 → Table.get? t.eng.runs e = some { r with wait := .none }) ∧
      (∀ e r, Table.get? s.eng.runs e = some r → (r.wait ≠ .doorbell ∨ r.part ≠ p ∨ r.doorbell ≠ d ∨
        fget (BitVec.ofNat 64 v) F.BUY_DOORBELL_PUBLISHED / 64 * 64 < r.pos + 64) → Table.get? t.eng.runs e = some r) ∧
      (∀ a, t.byteAt a = s.byteAt a))

/-- GO submits the record that WCH_SUB_ADDR names behind the admission queue, or, with 16 records of the partition in the queue, only sets
SUB_REFUSED; CANCEL of a plan of its partition leaves no slot of it waiting and its ending CANCELLED where nothing had gone wrong, and of
another partition's plan changes no plan (R65, R66, R82). -/
def Obligations.GoAndCancel : Prop :=
  ∀ (s : State) (rq : Requester) (p v : Nat), PartAccess s rq p (WCH_SUB_CTRL p) true v →
    (asks v F.WCH_SUB_CTRL_GO → ¬ asks v F.WCH_SUB_CTRL_CANCEL → ∃ t, exec (.go rq p v) s = .next t ∧ t.adm.plans = s.adm.plans ∧
      ((s.adm.queue.filter (fun q => q.part = p)).length < 16 →
        t.adm.queue = s.adm.queue ++ [⟨p, s.addr (WCH_SUB_ADDR p) F.WCH_SUB_ADDR_ADDR_LO F.WCH_SUB_ADDR_ADDR_HI⟩] ∧
        KeepRegs s t [WCH_SUB_CTRL p, WCH_PART_STATUS p]) ∧
      (16 ≤ (s.adm.queue.filter (fun q => q.part = p)).length →
        t.adm.queue = s.adm.queue ∧ t.flag (WCH_PART_STATUS p) F.WCH_PART_STATUS_SUB_REFUSED = true ∧
        OnlyRegs s t [WCH_SUB_CTRL p, WCH_PART_STATUS p])) ∧
    (asks v F.WCH_SUB_CTRL_CANCEL → ¬ asks v F.WCH_SUB_CTRL_GO → ∃ t, exec (.cancel rq p v) s = .next t ∧
      (∀ pl, Table.get? s.adm.plans (fget (BitVec.ofNat 64 v) F.WCH_SUB_CTRL_PLAN_ID) = some pl → pl.part = p →
        ∀ pl', Table.get? t.adm.plans (fget (BitVec.ofNat 64 v) F.WCH_SUB_CTRL_PLAN_ID) = some pl' →
          (∀ x ∈ pl'.slots, x.state ≠ .waiting) ∧ pl'.ending = (if pl.ending = 0 then 5 else pl.ending)) ∧
      ((∀ pl, Table.get? s.adm.plans (fget (BitVec.ofNat 64 v) F.WCH_SUB_CTRL_PLAN_ID) = some pl → pl.part ≠ p) →
        OnlyRegs s t [WCH_SUB_CTRL p]))

/-- PROBE_START starts the probe of the source die, count and address its registers hold and clears the result, or changes nothing while one
runs; JOIN puts its role in effect, entering FREE, ACQUIRING or LOCKED, or, while a guaranteed plan is held, raises JOIN_REFUSED and
keeps the role; GROUP_APPLY_GO keeps the group's pending values until their watch, or refuses a watch that is not in the future
(R50, R54, R57, R220). -/
def Obligations.ProbeJoinAndGroupApply : Prop :=
  ∀ (s : State) (rq : Requester) (v : Nat),
    (RowAccess s rq KPR_PROBE_CTRL v → asks v F.KPR_PROBE_CTRL_START → ∃ t, exec (.probeStart rq v) s = .next t ∧
      (s.probe = none → t.probe = some (fget (BitVec.ofNat 64 v) F.KPR_PROBE_CTRL_SRC_DIE, fget (BitVec.ofNat 64 v) F.KPR_PROBE_CTRL_COUNT,
          s.addr KPR_PROBE_ADDR F.KPR_PROBE_ADDR_ADDR_LO F.KPR_PROBE_ADDR_ADDR_HI) ∧
        t.reg KPR_PROBE_RESULT = 0 ∧ t.flag KPR_PROBE_CTRL F.KPR_PROBE_CTRL_START = true ∧ KeepRegs s t [KPR_PROBE_CTRL, KPR_PROBE_RESULT]) ∧
      (s.probe.isSome → OnlyRegs s t [KPR_PROBE_CTRL])) ∧
    (RowAccess s rq WCH_TB_CTRL v → asks v F.WCH_TB_CTRL_JOIN → ∃ t, exec (.join rq v) s = .next t ∧ t.mem = s.mem ∧ t.eng = s.eng ∧ t.adm = s.adm ∧
      (s.guaranteedHeld = true → t.flag WCH_ALARM F.WCH_ALARM_JOIN_REFUSED = true ∧ t.tbRole = s.tbRole ∧ t.tbState = s.tbState ∧ t.tb = s.tb) ∧
      (s.guaranteedHeld = false → fget (BitVec.ofNat 64 v) F.WCH_TB_CTRL_ROLE = 0 → t.tbRole = 0 ∧ t.tbState = 0 ∧ t.tb.stepPending = false) ∧
      (s.guaranteedHeld = false → fget (BitVec.ofNat 64 v) F.WCH_TB_CTRL_ROLE = 1 → t.tbRole = 1 ∧ t.tbState = 1 ∧ t.tb.stepPending = true) ∧
      (s.guaranteedHeld = false → fget (BitVec.ofNat 64 v) F.WCH_TB_CTRL_ROLE = 2 → t.tbRole = 2 ∧ t.tbState = 2 ∧ t.tb.stepPending = false)) ∧
    (∀ g w, g < 4 → RowAccess s rq (COL_GRP_APPLY g) v → asks v F.COL_GRP_APPLY_GO →
      w = fget (BitVec.ofNat 64 v) F.COL_GRP_APPLY_WATCH_LO + fget (BitVec.ofNat 64 v) F.COL_GRP_APPLY_WATCH_HI * 2 ^ 32 →
      ∃ t, exec (.groupApplyGo rq g v) s = .next t ∧
      (s.watch < w → (t.group g).pending = some (w, s.groupPending g) ∧ (t.group g).now = (s.group g).now ∧
        t.flag (COL_GRP_APPLY g) F.COL_GRP_APPLY_GO = true ∧ KeepRegs s t [COL_GRP_APPLY g, COL_GRP_STATUS g]) ∧
      (w ≤ s.watch → t.flag (COL_GRP_STATUS g) F.COL_GRP_STATUS_APPLY_REFUSED = true ∧
        OnlyRegs s t [COL_GRP_APPLY g, COL_GRP_STATUS g]))

/-- A CHT_CTRL command that is not already waiting sets its bit, which reads 1 until it ends; it starts at once, with OP_STATUS 1 for busy, where no
command runs, and else waits behind those that wait. One that is already waiting or running changes neither (R552, R553, R566). -/
def Obligations.ChartCommandsStartOrWait : Prop :=
  ∀ (s : State) (rq : Requester) (slot : Nat) (c : Instr) (op : ChtOp) (v : Nat),
    ((c = .chartWrite rq slot ∧ op = .write ∧ v = 1 + slot % 2 * 2 ^ F.CHT_CTRL_SLOT.lo) ∨
     (c = .chartSelect rq slot ∧ op = .select ∧ v = 2 ^ F.CHT_CTRL_SELECT.lo + slot % 2 * 2 ^ F.CHT_CTRL_SLOT.lo) ∨
     (c = .licInstall rq ∧ op = .install ∧ v = 2 ^ F.CHT_CTRL_LIC_INSTALL.lo + s.fld CHT_CTRL F.CHT_CTRL_SLOT % 2 * 2 ^ F.CHT_CTRL_SLOT.lo) ∨
     (c = .invSettings rq ∧ op = .invalidate ∧ v = 2 ^ F.CHT_CTRL_INV_SETTINGS.lo + s.fld CHT_CTRL F.CHT_CTRL_SLOT % 2 * 2 ^ F.CHT_CTRL_SLOT.lo) ∨
     (c = .chartReset rq ∧ op = .reset ∧ v = 2 ^ F.CHT_CTRL_RESET.lo + s.fld CHT_CTRL F.CHT_CTRL_SLOT % 2 * 2 ^ F.CHT_CTRL_SLOT.lo)) →
    RowAccess s rq CHT_CTRL v → ∃ t, exec c s = .next t ∧ (∀ a, t.byteAt a = s.byteAt a) ∧
      (s.flag CHT_CTRL op.bit = true → OnlyRegs s t [CHT_CTRL]) ∧
      (s.flag CHT_CTRL op.bit = false → s.boot.chtRun = none → t.flag CHT_CTRL op.bit = true ∧ t.fld CHT_STATUS F.CHT_STATUS_OP_STATUS = 1 ∧
        t.boot.chtQueue = s.boot.chtQueue ∧ ∃ sl f image, t.boot.chtRun = some (op, sl, f, image)) ∧
      (s.flag CHT_CTRL op.bit = false → s.boot.chtRun.isSome → t.flag CHT_CTRL op.bit = true ∧ t.boot.chtRun = s.boot.chtRun ∧
        t.boot.chtQueue = s.boot.chtQueue ++ [op])

end

section
open Sys2Proof Sys2Proof.Machine Sys2Proof.Claims

/-- ALLOC_GO captures the request its fields describe unless one of the partition runs; TMV_FREE of a base that is no frame of the partition, or
is being freed, sets BAD_FREE and leaves the frames; a frame in transit is marked to be freed when its move ends; any other frame of the
partition is taken from it and marked for zeroing (R290, R293). -/
def Obligations.AllocGoAndFree : Prop :=
  ∀ (s : State) (rq : Requester) (p v base : Nat),
    (PartAccess s rq p (TMV_ALLOC p) true v → asks v F.TMV_ALLOC_GO → ∃ t, exec (.allocGo rq p v) s = .next t ∧
      t.tiers.frames = s.tiers.frames ∧ KeepRegs s t [TMV_ALLOC p] ∧
      (∀ q, Table.get? s.tiers.allocs p = some q → t.tiers.allocs = s.tiers.allocs) ∧
      (Table.get? s.tiers.allocs p = none → t.flag (TMV_ALLOC p) F.TMV_ALLOC_GO = true ∧ ∃ q, Table.get? t.tiers.allocs p = some q ∧
        q.tier = fget (BitVec.ofNat 64 v) F.TMV_ALLOC_TIER ∧ q.lowest = fget (BitVec.ofNat 64 v) F.TMV_ALLOC_LOWEST ∧
        q.count = fget (BitVec.ofNat 64 v) F.TMV_ALLOC_COUNT_M1 + 1 ∧ (q.big = true ↔ asks v F.TMV_ALLOC_SIZE) ∧
        (q.movable = true ↔ asks v F.TMV_ALLOC_MOVABLE))) ∧
    (PartAccess s rq p (TMV_FREE p) true v →
      base = fget (BitVec.ofNat 64 v) F.TMV_FREE_BASE_LO * 2 ^ 16 + fget (BitVec.ofNat 64 v) F.TMV_FREE_BASE_HI * 2 ^ 32 →
      ∃ t, exec (.tmvFree rq p v) s = .next t ∧
      ((∀ f, Table.get? s.tiers.frames base = some f → f.part ≠ p ∨ f.zeroing = true) →
        t.flag (TMV_PART_STATUS p) F.TMV_PART_STATUS_BAD_FREE = true ∧ OnlyRegs s t [TMV_PART_STATUS p]) ∧
      (∀ f, Table.get? s.tiers.frames base = some f → f.part = p → f.zeroing = false → f.transit = true →
        Table.get? t.tiers.frames base = some { f with freeAfter := true } ∧ KeepRegs s t [] ∧ t.mem = s.mem) ∧
      (∀ f, Table.get? s.tiers.frames base = some f → f.part = p → f.zeroing = false → f.transit = false →
        Table.get? t.tiers.frames base = some { f with zeroing := true, transit := false, freeAfter := false }))

/-- TMV_QUOTA_WRITE takes the quota; FW_RESET sets the named partition's used flash-write count to 0; TMV_LEND_WRITE either takes the written value
or is refused with LEND_REFUSED, its register as it was; a DFT_LIFE_MARK with software as the source of step marks enters the mark of
this step, newest first, of at most 17, and with another source changes nothing (R307, R309, R312, R340). -/
def Obligations.TierSettings : Prop :=
  ∀ (s : State) (rq : Requester) (p v : Nat),
    (∀ tier, 1 ≤ tier → tier ≤ 4 → p < 32 → s.mayBlock rq = true → s.keeperOn = true → s.selected rq = some p →
      ∃ t, exec (.tmvQuotaWrite rq p tier v) s = .next t ∧
        t.fld (TMV_QUOTA p (tier - 1)) F.TMV_QUOTA_GIB = fget (BitVec.ofNat 64 v) F.TMV_QUOTA_GIB ∧
        OnlyRegs s t [TMV_QUOTA p (tier - 1), TMV_PART_STATUS p]) ∧
    (RowAccess s rq TMV_FW_RESET v → asks v F.TMV_FW_RESET_GO → ∃ t, exec (.fwReset rq v) s = .next t ∧
      t.reg (TMV_FW_USED (fget (BitVec.ofNat 64 v) F.TMV_FW_RESET_PARTITION)) = 0 ∧
      OnlyRegs s t [TMV_FW_RESET, TMV_FW_USED (fget (BitVec.ofNat 64 v) F.TMV_FW_RESET_PARTITION),
        TMV_PART_STATUS (fget (BitVec.ofNat 64 v) F.TMV_FW_RESET_PARTITION)]) ∧
    (∀ j, j < 8 → RowAccess s rq (TMV_LEND j) v → ∃ t, exec (.tmvLendWrite rq j v) s = .next t ∧
      (Takes t (TMV_LEND j) v [F.TMV_LEND_BORROWER, F.TMV_LEND_TIER, F.TMV_LEND_SIZE, F.TMV_LEND_EN] ∨
       (t.reg (TMV_LEND j) = s.reg (TMV_LEND j) ∧ t.flag TMV_ALARM F.TMV_ALARM_LEND_REFUSED = true ∧ t.tiers = s.tiers ∧ t.mem = s.mem))) ∧
    (RowAccess s rq DFT_LIFE_MARK v → asks v F.DFT_LIFE_MARK_MARK → ∃ t, exec (.dftLifeMark rq v) s = .next t ∧
      (s.fld DFT_LIFE_CTRL F.DFT_LIFE_CTRL_SRC = 1 → t.flash.marks =
        (((s.reg DFT_HOST_WR).toNat, (s.reg DFT_NAND_WR).toNat) :: s.flash.marks).take 17 ∧ KeepRegs s t [DFT_LIFE, DFT_LIFE_STEPS]) ∧
      (s.fld DFT_LIFE_CTRL F.DFT_LIFE_CTRL_SRC ≠ 1 → OnlyRegs s t []))

/-- MMU_RESUME of a held slot makes it runnable, or with ACTION 1 gives its spill slot up, and of a spill slot that holds nothing sets BAD_RESUME;
INVALIDATE starts the invalidation that its registers describe unless one runs, marking each of the partition's cached translations that it
reaches and no other; REGION_INV starts its own (R379, R383, R412). -/
def Obligations.FaultAndInvalidateCommands : Prop :=
  ∀ (s : State) (rq : Requester) (p v : Nat),
    (∀ k, k < 64 → PartAccess s rq p (MMU_RESUME p) true k → ∃ t, exec (.faultResume rq p k) s = .next t ∧
      (∀ h, Table.get? s.eng.held (64 * p + k) = some h → Table.get? t.eng.held (64 * p + k) = some { h with resumed := true } ∧ KeepRegs s t []) ∧
      (s.spillTaken p k = false → t.flag (MMU_PART_STATUS p) F.MMU_PART_STATUS_BAD_RESUME = true ∧ OnlyRegs s t [MMU_PART_STATUS p])) ∧
    (∀ k, k < 64 → PartAccess s rq p (MMU_RESUME p) true (k + oneBit F.MMU_RESUME_ACTION) → ∃ t, exec (.faultAbort rq p k) s = .next t ∧
      (s.spillTaken p k = true → t.spillTaken p k = false) ∧
      (s.spillTaken p k = false → t.flag (MMU_PART_STATUS p) F.MMU_PART_STATUS_BAD_RESUME = true ∧ OnlyRegs s t [MMU_PART_STATUS p])) ∧
    (PartAccess s rq p (MMU_INV p) true v → asks v F.MMU_INV_GO → ∃ t, exec (.invalidate rq p v) s = .next t ∧
      ((Table.get? s.mmu.inv p).isSome → OnlyRegs s t [MMU_INV p]) ∧
      (∀ all va n, Table.get? s.mmu.inv p = none → (all = true ↔ asks v F.MMU_INV_SCOPE) →
        va = s.addr (MMU_INV_VA p) F.MMU_INV_VA_VA_LO F.MMU_INV_VA_VA_HI → n = max 1 (s.fld (MMU_INV_LEN p) F.MMU_INV_LEN_PAGES) * 4096 →
        t.flag (MMU_INV p) F.MMU_INV_GO = true ∧ Table.get? t.mmu.inv p = some (all, va, n) ∧
        t.mmu.tlb = s.mmu.tlb.map (fun e => if e.part = p ∧ (all ∨ (e.va < va + n ∧ va < e.va + e.size)) then { e with old := true } else e))) ∧
    (RowAccess s rq HST_REGION_INV v → asks v F.HST_REGION_INV_GO → ∃ t, exec (.regionInv rq v) s = .next t ∧
      (s.pcie.inv.isSome → OnlyRegs s t [HST_REGION_INV]) ∧
      (s.pcie.inv = none → t.flag HST_REGION_INV F.HST_REGION_INV_GO = true ∧ t.pcie.regions = s.pcie.regions ∧
        (asks v F.HST_REGION_INV_ALL → t.pcie.inv = some 65536) ∧
        (¬ asks v F.HST_REGION_INV_ALL → t.pcie.inv = some (fget (BitVec.ofNat 64 v) F.HST_REGION_INV_ENTRY))))

end

namespace Sys2Proof.Claims
open Sys2Proof.Machine

/-- A write of LNK_PORT_CTRL that keeps its AUTO and HALF and asks for one command. -/
def portAsk (s : State) (n i : Nat) (f : Fld) : Nat :=
  2 ^ f.lo + s.fld (LNK_PORT_CTRL n i) F.LNK_PORT_CTRL_AUTO * 2 ^ F.LNK_PORT_CTRL_AUTO.lo
    + s.fld (LNK_PORT_CTRL n i) F.LNK_PORT_CTRL_HALF * 2 ^ F.LNK_PORT_CTRL_HALF.lo

end Sys2Proof.Claims

section
open Sys2Proof Sys2Proof.Machine Sys2Proof.Claims

/-- RETRAIN and FULL_TRAIN of a port that is in service put it into training, from saved settings or in full, with the command's bit set until it ends; CHANGE of
an UP Morco port asks the peer for the rate by a CTRL body, and of an UP Ethernet port begins the change at once; a port in
state 0 takes none of them (R481, R483, R486). -/
def Obligations.PortCommands : Prop :=
  ∀ (s : State) (rq : Requester) (n i v : Nat), n < 4 → i < 8 →
    (RowAccess s rq (LNK_PORT_CTRL n i) (portAsk s n i F.LNK_PORT_CTRL_RETRAIN) → ∃ t, exec (.retrain rq n i) s = .next t ∧
      (s.portState (8 * n + i) = 0 → OnlyRegs s t []) ∧
      (s.portState (8 * n + i) ≠ 0 → t.portState (8 * n + i) = 1 ∧ (t.port (8 * n + i)).training = 1 ∧
        t.flag (LNK_PORT_CTRL n i) F.LNK_PORT_CTRL_RETRAIN = true)) ∧
    (RowAccess s rq (LNK_PORT_CTRL n i) (portAsk s n i F.LNK_PORT_CTRL_FULL_TRAIN) → ∃ t, exec (.fullTrain rq n i) s = .next t ∧
      (s.portState (8 * n + i) = 0 → OnlyRegs s t []) ∧
      (s.portState (8 * n + i) ≠ 0 → t.portState (8 * n + i) = 1 ∧ (t.port (8 * n + i)).training = 2 ∧
        t.flag (LNK_PORT_CTRL n i) F.LNK_PORT_CTRL_FULL_TRAIN = true)) ∧
    (RowAccess s rq (LNK_PORT_CTRL n i) v → asks v F.LNK_PORT_CTRL_CHANGE → ¬ asks v F.LNK_PORT_CTRL_RETRAIN → ¬ asks v F.LNK_PORT_CTRL_FULL_TRAIN →
      ∃ t, exec (.change rq n i v) s = .next t ∧
      (s.portState (8 * n + i) ≠ 2 → OnlyRegs s t [LNK_PORT_CTRL n i]) ∧
      (s.portState (8 * n + i) = 2 → s.isEth (8 * n + i) = false → t.portState (8 * n + i) = 2 ∧
        t.flag (LNK_PORT_CTRL n i) F.LNK_PORT_CTRL_CHANGE = true ∧ ∃ body, (t.port (8 * n + i)).ctrl = (s.port (8 * n + i)).ctrl ++ [(4, body)]) ∧
      (s.portState (8 * n + i) = 2 → s.isEth (8 * n + i) = true → t.portState (8 * n + i) = 1 ∧ (t.port (8 * n + i)).training = 3 ∧
        ((t.port (8 * n + i)).half = true ↔ asks v F.LNK_PORT_CTRL_HALF)))

/-- ETH_QP_BASE_WRITE with EN loads the 64 handles of the table at BASE, where that lies in PINNED T1 frames of the service partition, and otherwise
leaves no handle; ETH_HANDLE_RESET takes each handle whose error bit it clears back to its entry's first PSN with nothing outstanding, and
leaves every other handle (R492, R495). -/
def Obligations.EthernetHandleWrites : Prop :=
  ∀ (s : State) (rq : Requester) (v : Nat),
    (RowAccess s rq LNK0_ETH_QP_BASE v → ∃ t, exec (.ethQpBaseWrite rq v) s = .next t ∧ t.mem = s.mem ∧
      (¬ asks v F.LNK0_ETH_QP_BASE_EN → t.lnk.handles = []) ∧
      (∀ p a, s.service? = some p → asks v F.LNK0_ETH_QP_BASE_EN →
        a = fget (BitVec.ofNat 64 v) F.LNK0_ETH_QP_BASE_BASE_LO * 4096 + fget (BitVec.ofNat 64 v) F.LNK0_ETH_QP_BASE_BASE_HI * 2 ^ 32 →
        (s.pinnedT1 p a 4096 = false → t.lnk.handles = []) ∧
        (s.pinnedT1 p a 4096 = true → t.lnk.handles = handlesOf 64 0 (s.rdMem a 4096).1))) ∧
    (RowAccess s rq LNK0_ETH_HSTATUS v → ∃ t, exec (.ethHandleReset rq v) s = .next t ∧
      t.reg LNK0_ETH_HSTATUS = s.reg LNK0_ETH_HSTATUS &&& ~~~ BitVec.ofNat 64 v ∧
      ∀ h x, h < 64 → Table.get? s.lnk.handles h = some x →
        (v.testBit h = true → (s.reg LNK0_ETH_HSTATUS).toNat.testBit h = true →
          Table.get? t.lnk.handles h = some { x with psn := leAt x.entry 12 3, sent := [], retries := 0 }) ∧
        (v.testBit h = false ∨ (s.reg LNK0_ETH_HSTATUS).toNat.testBit h = false → Table.get? t.lnk.handles h = some x))

/-- FTS_RUN with GO reserves a test of the unit it names, unless the unit is RETIRED or DEFECTIVE or has windows ahead already, which changes
nothing but the register; LOG_RD_SEL_WRITE takes the selection, clears RD_READY and starts a read of the Logbook (R589, R592). -/
def Obligations.TestAndLogCommands : Prop :=
  ∀ (s : State) (rq : Requester) (v : Nat),
    (RowAccess s rq FTS_RUN v → asks v F.FTS_RUN_GO → ∃ t, exec (.ftsRun rq v) s = .next t ∧ t.mem = s.mem ∧ t.eng = s.eng ∧
      Takes t FTS_RUN v [F.FTS_RUN_UNIT] ∧
      (∀ u, u = fget (BitVec.ofNat 64 v) F.FTS_RUN_UNIT →
        (unitExists u = true → (s.unit u).state < 2 → s.windowsAhead u = [] → (t.unit u).reserved = true ∧ (t.unit u).due = true ∧
          ∃ more, t.ft.windows = s.ft.windows ++ more) ∧
        (unitExists u = false ∨ 2 ≤ (s.unit u).state ∨ s.windowsAhead u ≠ [] → OnlyRegs s t [FTS_RUN]))) ∧
    (RowAccess s rq LOG_RD_SEL v → ∃ t, exec (.logRdSelWrite rq v) s = .next t ∧
      Takes t LOG_RD_SEL v [F.LOG_RD_SEL_AREA, F.LOG_RD_SEL_SLOT, F.LOG_RD_SEL_INDEX] ∧
      t.flag LOG_STATUS F.LOG_STATUS_RD_READY = false ∧ t.log = { s.log with reading := true } ∧ KeepRegs s t [LOG_RD_SEL, LOG_STATUS])

end

section
open Sys2Proof Sys2Proof.Machine Sys2Proof.Claims

/-- R14: a counter advanced by n holds the sum, or 2^64 - 1 where the sum is greater: it counts upward, saturates and does not wrap. -/
def Obligations.CountersSaturate : Prop :=
  ∀ (s : State) (k n : Nat),
    ((s.reg k).toNat + n ≤ 0xFFFFFFFFFFFFFFFF → ((s.count k n).reg k).toNat = (s.reg k).toNat + n) ∧
    (0xFFFFFFFFFFFFFFFF < (s.reg k).toNat + n → (s.count k n).reg k = 0xFFFFFFFFFFFFFFFF#64) ∧
    (s.reg k).toNat ≤ ((s.count k n).reg k).toNat ∧ (∀ j, j ≠ k → (s.count k n).reg j = s.reg j)

/-- R15: a 32-bit read of a counter's lower half answers that half and copies the full value into the snapshot register of the window it came through, in
the block window the block's own and in a partition's alias window that partition's; a 64-bit read answers the whole counter and leaves
every snapshot register, as every other register, unchanged. Counters are those of the register map. -/
def Obligations.CounterSnapshot : Prop :=
  ∀ (s : State) (rq : Requester) (addr : Nat) (h : Hit), s.keeperOn = true → (inBlocks addr || inAliases addr) = true → addr % 8 = 0 →
    h.desc.isCounter = true →
    (s.violKinds ⟨rq, addr, 4, false, 0⟩ = [] → s.hit ⟨rq, addr, 4, false, 0⟩ = some h → ∃ t, exec (.counterLowerHalfRead rq addr) s = .next t ∧
      t.resp = s.reg h.key &&& 0xFFFFFFFF#64 ∧
      (inAliases addr = false → t.reg (h.window * 0x100000 + 0x7FFF8) = s.reg h.key ∧ KeepRegs s t [h.window * 0x100000 + 0x7FFF8]) ∧
      (inAliases addr = true → t.reg (partInst (aliasPart addr) + h.window * 0x100000 + 0x7FFF8) = s.reg h.key ∧
        KeepRegs s t [partInst (aliasPart addr) + h.window * 0x100000 + 0x7FFF8])) ∧
    (s.violKinds ⟨rq, addr, 8, false, 0⟩ = [] → s.hit ⟨rq, addr, 8, false, 0⟩ = some h →
      (s.regRead ⟨rq, addr, 8, false, 0⟩).2 = s.reg h.key ∧ KeepRegs s (s.regRead ⟨rq, addr, 8, false, 0⟩).1 [])

/-- An access that violates R18 is ignored, and a read of that kind answers 0: nothing changes but the violation counters, of the total, of the first kind the
access matches and of the requester's partition, and KPR_VIOL_LAST, which names the kind (R19, R48). -/
def Obligations.ViolationsAreIgnoredAndCounted : Prop :=
  ∀ (s : State) (rq : Requester) (addr bytes v k : Nat) (ks : List Nat), s.keeperOn = true → (inBlocks addr || inAliases addr) = true →
    (s.violKinds ⟨rq, addr, bytes, true, v⟩ = k :: ks → ∃ t, exec (.registerWrite rq addr bytes v) s = .next t ∧
      t.reg KPR_VIOLATIONS = BitVec.ofNat 64 (sat64 (s.reg KPR_VIOLATIONS).toNat 1) ∧
      t.reg (violCounter k) = BitVec.ofNat 64 (sat64 (s.reg (violCounter k)).toNat 1) ∧
      t.fld KPR_VIOL_LAST F.KPR_VIOL_LAST_KIND = k ∧ t.flag KPR_VIOL_LAST F.KPR_VIOL_LAST_VALID = true ∧
      (∀ p, s.reqPart rq = some p → t.reg (KPR_PART_VIOLATIONS p) = BitVec.ofNat 64 (sat64 (s.reg (KPR_PART_VIOLATIONS p)).toNat 1) ∧
        KeepRegs s t [KPR_VIOLATIONS, violCounter k, KPR_VIOL_LAST, KPR_PART_VIOLATIONS p]) ∧
      (s.reqPart rq = none → KeepRegs s t [KPR_VIOLATIONS, violCounter k, KPR_VIOL_LAST]) ∧ t = (s.setRegs t.regs).setFree t.free) ∧
    (s.violKinds ⟨rq, addr, 4, false, 0⟩ = k :: ks → ∃ t, exec (.counterLowerHalfRead rq addr) s = .next t ∧ t.resp = 0 ∧
      t.reg KPR_VIOLATIONS = BitVec.ofNat 64 (sat64 (s.reg KPR_VIOLATIONS).toNat 1) ∧ t = ((s.setRegs t.regs).setFree t.free).setResp 0)

/-- A 64-bit write, by REGISTER_WRITE or in a 32-bit half by SB_REG_WR, of a register without effects of its own: RW bits that the access reaches take the data, W1C bits
written as 1 clear, every other bit of the register and every other register stay, and memory stays. The sideband's writes are answered
with status 0, its reads with the half they name (R9, R10, R602). -/
def Obligations.PlainRegisterWrites : Prop :=
  ∀ (s : State), s.keeperOn = true →
    (∀ (rq : Requester) (addr v : Nat) (h : Hit), (inBlocks addr || inAliases addr) = true → s.violKinds ⟨rq, addr, 8, true, v⟩ = [] →
      s.hit ⟨rq, addr, 8, true, v⟩ = some h → h.desc.hook = .plain → ∃ t, exec (.registerWrite rq addr 8 v) s = .next t ∧
      t.reg h.key = ((s.reg h.key &&& ~~~ h.desc.bits .rw) ||| (BitVec.ofNat 64 v &&& h.desc.bits .rw)) &&& ~~~ (BitVec.ofNat 64 v &&& h.desc.bits .w1c) ∧
      KeepRegs s t [h.key] ∧ (∀ a, t.byteAt a = s.byteAt a) ∧ t.eng = s.eng ∧ t.adm = s.adm) ∧
    (∀ (entry raw : Nat) (h : Hit), s.sbOpen = true → entry % 256 = 0x11 → entry.testBit 41 = false →
      s.violKinds ⟨.sideband, regBase + entry / 65536 % 2 ^ 25 * 8, 4, true, raw % 2 ^ 32⟩ = [] →
      s.hit ⟨.sideband, regBase + entry / 65536 % 2 ^ 25 * 8, 4, true, raw % 2 ^ 32⟩ = some h → h.desc.hook = .plain →
      ∃ t w, exec (.sbRegWr entry raw) s = .next t ∧ t.boot.sideband = s.boot.sideband ++ [w] ∧ w.toNat % 2 ^ 24 = entry % 65536 ∧
      t.reg h.key = ((s.reg h.key &&& ~~~ (h.desc.bits .rw &&& 0xFFFFFFFF#64)) ||| (BitVec.ofNat 64 (raw % 2 ^ 32) &&& (h.desc.bits .rw &&& 0xFFFFFFFF#64)))
        &&& ~~~ (BitVec.ofNat 64 (raw % 2 ^ 32) &&& h.desc.bits .w1c) ∧ KeepRegs s t [h.key]) ∧
    (∀ entry, s.sbOpen = true → entry % 256 = 0x10 → ∃ t w, exec (.sbRegRd entry) s = .next t ∧
      t.boot.sideband = s.boot.sideband ++ [w] ∧ w.toNat % 2 ^ 24 = entry % 65536 ∧
      w.toNat / 2 ^ 24 = (s.regRead ⟨.sideband, regBase + entry / 65536 % 2 ^ 25 * 8 + (if entry.testBit 41 then 4 else 0), 4, false, 0⟩).2.toNat % 2 ^ 32)

end

section
open Sys2Proof Sys2Proof.Machine Sys2Proof.Claims

/-- WATCH_START counts one watch, modulo 2^48, from tick 0, puts the settings of R314 whose watch has come into effect and leaves memory, the engines, the
accepted plans and the frames as they are; EXPERT_SETTING_APPLY puts the other settings whose watch has come into effect and changes
nothing else (R26, R51, R314). -/
def Obligations.WatchStartsAndDeferredSettings : Prop :=
  ∀ (s : State),
    (∃ t, exec .watchStart s = .next t ∧ t.watch = (s.watch + 1) % 2 ^ 48 ∧ t.tick = 0 ∧ t.mem = s.mem ∧ t.eng = s.eng ∧ t.adm = s.adm ∧
      t.tiers.frames = s.tiers.frames ∧
      ∀ d, d ∈ t.deferred ↔ d ∈ s.deferred ∧ ¬ ((d.key = TMV_CFG ∨ d.key = TMV_X_TUNE) ∧ d.watch ≤ (s.watch + 1) % 2 ^ 48)) ∧
    (∃ t, exec .expertSettingApply s = .next t ∧ t = s.setDeferred t.deferred ∧
      (∀ d, d ∈ t.deferred ↔ d ∈ s.deferred ∧ (d.key = TMV_CFG ∨ d.key = TMV_X_TUNE ∨ s.watch < d.watch)) ∧
      ∀ k, s.expertOn k = true → (∀ d ∈ s.deferred, d.key = k → d.key ≠ TMV_CFG ∧ d.key ≠ TMV_X_TUNE ∧ d.watch ≤ s.watch) → t.expert k = s.reg k)

/-- The timebase leaves a state as R54 to R57 say: HOLDOVER_ENTRY after four watches without a message, ACQUIRE_TIMEOUT and HOLDOVER_SPLIT to SPLIT with
its alarm, TB_LOCK after 16 watches in range, TB_LOCK_LOST after 4 out of it with WATCH_UNLOCKED, WATCH_UNLOCKED once the bound of
R55 exceeds 20 ns, and WATCH_COUNT_STEP to the master's count, unless a guaranteed plan is held. Bounds are in 1/32 ns. -/
def Obligations.TimebaseChangesState : Prop :=
  ∀ (s : State),
    (s.tbRole = 1 → s.tbState = 1 ∨ s.tbState = 2 → 4 ≤ s.tb.missed → ∃ t, exec .holdoverEntry s = .next t ∧ t.tbState = 3 ∧ t.tbRole = 1 ∧
      t.tb.holdover = 0 ∧ KeepRegs s t [WCH_TB_STATUS] ∧ t = (s.setRegs t.regs).setTb t.tb) ∧
    (s.tbState = 1 → 16384 ≤ s.tb.acquiring → ∃ t, exec .acquireTimeout s = .next t ∧ t.tbState = 4 ∧
      t.flag WCH_ALARM F.WCH_ALARM_WATCH_SPLIT = true ∧ KeepRegs s t (WCH_TB_STATUS :: WCH_ALARM :: reportRegs) ∧ t = (s.setRegs t.regs).setLog t.log) ∧
    (s.tbState = 1 → 16 ≤ s.tb.inRange → ∃ t, exec .tbLock s = .next t ∧ t.tbState = 2 ∧
      KeepRegs s t [WCH_TB_STATUS] ∧ t = (s.setRegs t.regs).setTb t.tb) ∧
    (s.tbRole = 1 → s.tbState = 2 → 4 ≤ s.tb.outRange → ∃ t, exec .tbLockLost s = .next t ∧ t.tbState = 1 ∧ t.tb.acquiring = 0 ∧
      t.flag WCH_ALARM F.WCH_ALARM_WATCH_UNLOCKED = true ∧ KeepRegs s t (WCH_TB_STATUS :: WCH_ALARM :: reportRegs)) ∧
    (s.tbState = 3 → s.tb.unlocked = false → 20 * 32 < s.tb.offset.natAbs + 8 * s.tb.holdover → ∃ t, exec .watchUnlocked s = .next t ∧
      t.tbState = 3 ∧ t.tb = { s.tb with unlocked := true } ∧ t.flag WCH_ALARM F.WCH_ALARM_WATCH_UNLOCKED = true ∧
      KeepRegs s t (WCH_ALARM :: reportRegs)) ∧
    (s.tbState = 3 → 10000 * 32 < s.tb.offset.natAbs + 8 * s.tb.holdover → ∃ t, exec .holdoverSplit s = .next t ∧ t.tbState = 4 ∧
      t.flag WCH_ALARM F.WCH_ALARM_WATCH_SPLIT = true ∧ KeepRegs s t (WCH_TB_STATUS :: WCH_ALARM :: reportRegs) ∧ t = (s.setRegs t.regs).setLog t.log) ∧
    (∀ n, s.tb.stepPending = true → ∃ t, exec (.watchCountStep n) s = .next t ∧ t.tb.stepPending = false ∧ t.adm = s.adm ∧ t.mem = s.mem ∧
      (s.guaranteedHeld = false → t.watch = n % 2 ^ 48 ∧ KeepRegs s t [WCH_COUNT]) ∧
      (s.guaranteedHeld = true → t.watch = s.watch ∧ t.flag WCH_ALARM F.WCH_ALARM_JOIN_REFUSED = true ∧ KeepRegs s t (WCH_ALARM :: reportRegs)))

/-- TIME_REQ_SEND sends a follower's request on its parent port, TIME_REQ_RECEIVE answers one on its port, and TIME_RSP_RECEIVE measures an offset
unless the response is not LOCKED, comes at tick 200,000 or later or is the second of its watch: an offset within 20 ns, or beyond it, counts one
more watch of its kind and ends the run of the other, and one beyond 10 us makes the timebase SPLIT (R54, R479). -/
def Obligations.TimeMessages : Prop :=
  ∀ (s : State),
    (∀ oe, oe = s.boot.chart.parent → s.tbRole = 1 → oe < 32 → s.portUp oe = true → ∃ t body, exec .timeReqSend s = .next t ∧
      (t.port oe).ctrl = (s.port oe).ctrl ++ [(1, body)] ∧ 1000 ≤ t.tick ∧ (∀ o, o ≠ oe → t.port o = s.port o) ∧ KeepRegs s t [WCH_TB_STATUS]) ∧
    (∀ n i t1, s.portUp (8 * n + i) = true → ∃ t body, exec (.timeReqReceive n i t1) s = .next t ∧
      (t.port (8 * n + i)).ctrl = (s.port (8 * n + i)).ctrl ++ [(2, body)] ∧ (∀ o, o ≠ 8 * n + i → t.port o = s.port o) ∧ KeepRegs s t []) ∧
    (∀ t1 t2 t3 locked, ∃ t, exec (.timeRspReceive t1 t2 t3 locked) s = .next t ∧ t.mem = s.mem ∧ t.eng = s.eng ∧ t.adm = s.adm ∧
      (s.tbRole ≠ 1 ∨ locked = false ∨ s.tb.heard = true → t.tb = s.tb ∧ KeepRegs s t [WCH_TB_STATUS]) ∧
      (s.tbRole = 1 → locked = true → s.tb.heard = false → s.tbState = 1 ∨ s.tbState = 2 →
        (200000 ≤ t.tick ∧ t.tb = s.tb ∧ t.tbState = s.tbState) ∨
        (t.tb.heard = true ∧ t.tb.missed = 0 ∧
          (t.tb.offset.natAbs ≤ 20 * 32 → t.tb.inRange = s.tb.inRange + 1 ∧ t.tb.outRange = 0) ∧
          (20 * 32 < t.tb.offset.natAbs → t.tb.inRange = 0 ∧ t.tb.outRange = s.tb.outRange + 1) ∧
          (10000 * 32 < t.tb.offset.natAbs → t.tbState = 4 ∧ t.flag WCH_ALARM F.WCH_ALARM_WATCH_SPLIT = true) ∧
          (t.tb.offset.natAbs ≤ 10000 * 32 → t.tbState = s.tbState))))

/-- PROBE_DONE of a probe from a die that issues it, of at least one read of a line in HBM, shows DONE, the times and the stack, and counts the bytes read;
any other ends with DONE and ERROR. TRACKER_ENTRY_FREE of a tracker with room lets the first engine that waits there issue, and keeps the order of the others
(R37, R50). -/
def Obligations.ProbeAndTracker : Prop :=
  ∀ (s : State),
    (∀ lo hi mean die n pa, s.probe = some (die, n, pa) → ∃ t, exec (.probeDone lo hi mean) s = .next t ∧ t.probe = none ∧
      t.flag KPR_PROBE_CTRL F.KPR_PROBE_CTRL_START = false ∧ t.flag KPR_PROBE_RESULT F.KPR_PROBE_RESULT_DONE = true ∧ t.mem = s.mem ∧
      (die ≤ 9 → n ≠ 0 → pa < 0x18000000000 → lo < 65536 → hi < 65536 → mean < 65536 →
        t.fld KPR_PROBE_RESULT F.KPR_PROBE_RESULT_MIN_NS = lo ∧ t.fld KPR_PROBE_RESULT F.KPR_PROBE_RESULT_MAX_NS = hi ∧
        t.fld KPR_PROBE_RESULT F.KPR_PROBE_RESULT_MEAN_NS = mean ∧ t.fld KPR_PROBE_RESULT F.KPR_PROBE_RESULT_STACK = hbmStack pa ∧
        t.flag KPR_PROBE_RESULT F.KPR_PROBE_RESULT_ERROR = false ∧
        t.reg (HBM_RD_BYTES (hbmStack pa)) = BitVec.ofNat 64 (sat64 (s.reg (HBM_RD_BYTES (hbmStack pa))).toNat (64 * n)) ∧
        KeepRegs s t [KPR_PROBE_CTRL, KPR_PROBE_RESULT, HBM_RD_BYTES (hbmStack pa)]) ∧
      (9 < die ∨ n = 0 ∨ 0x18000000000 ≤ pa → t.flag KPR_PROBE_RESULT F.KPR_PROBE_RESULT_ERROR = true ∧
        KeepRegs s t [KPR_PROBE_CTRL, KPR_PROBE_RESULT])) ∧
    (∀ die e rest, s.trackerWaits die = e :: rest → s.trackerFull die = false → ∃ t, exec (.trackerEntryFree die) s = .next t ∧
      t.trackerWaits die = rest ∧ (∀ d, d ≠ die → t.trackerWaits d = s.trackerWaits d) ∧ t.mem = s.mem ∧ t.eng = s.eng)

end

namespace Sys2Proof.Claims
open Sys2Proof.Machine

/-- Some slot of a plan has not ended. -/
def Unended (pl : Plan) : Prop := ∃ x ∈ pl.slots, x.state.isOver = false

/-- The plan that an acceptance holds: the submission's partition, what its text says, and the watch granted (R72). -/
def acceptedPlan (q : Submission) (x : PlanText) (w : Nat) : Plan :=
  { part := q.part, guaranteed := decide (x.cls = 0), start := w, buoy := x.buoy, result := x.result, tag := x.tag, slots := x.slots,
    ending := 0, endSlot := 0xFFFFFFFF }

/-- The run a slot begins with (R94, R132). -/
def freshRun (id idx : Nat) (pl : Plan) (x : Slot) : Run :=
  { plan := id, slot := idx, part := pl.part, be := !pl.guaranteed, stream := x.stream }

/-- The state in which a slot's segment header is read: the slot is running and its engine has its empty run. -/
def begun (s : State) (e id idx : Nat) (pl : Plan) (x : Slot) : State :=
  ((s.modPlan id (fun p => p.setSlot idx .running)).trace e 1 pl.part id idx).putRun e (freshRun id idx pl x)

/-- What the start of a slot gives: a lent or feed slot waits on its driver; any other reads its segment header, runs at the segment's first
entry, or has already ended with a segment of length 0 or a header of a wrong form. -/
def Starts (s t : State) (e id idx : Nat) (pl : Plan) (x : Slot) : Prop :=
  (x.isLent = true → driverOver pl.slots x = false → Table.get? t.eng.runs e = some { freshRun id idx pl x with lent := true } ∧
    Table.get? t.adm.plans id = some (pl.setSlot idx .running) ∧ ∀ d, d ≠ e → Table.get? t.eng.runs d = Table.get? s.eng.runs d) ∧
  (x.isLent = false → ∀ h s3, (begun s e id idx pl x).vRead ((freshRun id idx pl x).access e 3) x.stream 64 = .ok (h, s3) →
    (headerCodes x.stream h (!pl.guaranteed) = [] → leAt h 4 4 ≠ 0 → Table.get? t.eng.runs e =
        some { freshRun id idx pl x with length := leAt h 4 4, opened := decide (byteOf h 2 = 1), doorbell := byteOf h 3 } ∧
      Table.get? t.adm.plans id = some (pl.setSlot idx .running) ∧ (∀ d, d ≠ e → Table.get? t.eng.runs d = Table.get? s.eng.runs d) ∧
      ∀ a, t.byteAt a = s.byteAt a) ∧
    (headerCodes x.stream h (!pl.guaranteed) ≠ [] ∨ leAt h 4 4 = 0 → Table.get? t.eng.runs e = none))

/-- The registers that show what an engine runs. -/
def statusRegs (e : Nat) : List Nat := [TD_ME_STATUS (eDie e) (eIdx e), TD_VE_STATUS (eDie e) (eIdx e), TD_CE_STATUS (eDie e) (eIdx e),
  TD_CE_STATUS (eDie e) (4 + eIdx e), UPD_SEQ_STATUS (eDie e), UPD_EXP_STATUS (eDie e - 10)]

end Sys2Proof.Claims

section
open Sys2Proof Sys2Proof.Machine Sys2Proof.Claims

/-- PLAN_ADMIT takes the oldest submission and decides it in the order of R68: what cannot be read is DESCRIPTOR, then a wrong form is SHAPE, an engine not of
the partition ENGINE, a buoy not of it BUOY; a best-effort plan that passes is accepted at once, a guaranteed one is THERMAL in an emergency and else
accepted at the watch its checks grant. A rejection changes no plan; an acceptance gives the next PLAN_ID (R65 to R73). -/
def Obligations.PlanAdmissionDecides : Prop :=
  ∀ (s : State) (q : Submission) (rest : List Submission), s.adm.queue = q :: rest →
    ∀ (rd : PlanRead), rd = ((s.setAdm { s.adm with queue := rest }).showQueue q.part).readPlan q.part q.va →
    (rd.text = none → ∃ t, exec .planAdmit s = .next t ∧ t.adm = { s.adm with queue := rest }) ∧
    (∀ x, rd.text = some x → ¬ x.shape ∨ ¬ rd.state.planEngines q.part x ∨ ¬ rd.state.ownsBuoy q.part x.buoy →
      ∃ t, exec .planAdmit s = .next t ∧ t.adm = { s.adm with queue := rest }) ∧
    (∀ x w, rd.text = some x → x.shape = true → rd.state.planEngines q.part x = true → rd.state.ownsBuoy q.part x.buoy = true →
      (x.cls = 1 ∧ w = 0) ∨ (x.cls = 0 ∧ rd.state.flag PWR_STATUS F.PWR_STATUS_EMERG = false ∧ rd.state.verdict q.part x = .inl w) →
      ∃ t, exec .planAdmit s = .next t ∧ t.adm.queue = rest ∧ t.adm.lastId = s.adm.lastId + 1 ∧
      Table.get? t.adm.plans (s.adm.lastId + 1) = some (acceptedPlan q x w) ∧
      ∀ id, id ≠ s.adm.lastId + 1 → Table.get? t.adm.plans id = Table.get? s.adm.plans id) ∧
    (∀ x c, rd.text = some x → x.shape = true → rd.state.planEngines q.part x = true → rd.state.ownsBuoy q.part x.buoy = true → x.cls = 0 →
      rd.state.flag PWR_STATUS F.PWR_STATUS_EMERG = true ∨ rd.state.verdict q.part x = .inr c →
      ∃ t, exec .planAdmit s = .next t ∧ t.adm = { s.adm with queue := rest })

/-- SLOT_START begins the engine's first waiting slot of the watch, on an engine that is idle; one that is unavailable breaks the promise and runs nothing.
SLOT_WATCHDOG ends a guaranteed slot that has not finished and breaks its promise; SEGMENT_END finishes a slot whose segment is at its end, and with it the plan
where no other slot is left (R74, R77 to R81, R176). -/
def Obligations.GuaranteedSlotsStartAndEnd : Prop :=
  ∀ (s : State) (e : Nat), eExists e = true →
    (∀ id idx x pl, earliest (s.waitingSlots e s.watch) = some (id, idx, x) → x.gran < 250 → Table.get? s.adm.plans id = some pl → Table.get? s.eng.runs e = none →
      ∃ t, exec (.slotStart e) s = .next t ∧ x.gran * 1000 ≤ t.tick ∧
      (s.unavailable e = false → ¬ (s.underTest (s.engineSource e) = some false) →
        Starts (s.toTick (x.gran * 1000)) t e id idx pl x) ∧
      (s.unavailable e = true → Table.get? t.eng.runs e = none ∧ t.reg WCH_BROKEN = BitVec.ofNat 64 (sat64 (s.reg WCH_BROKEN).toNat 1) ∧
        t.flag WCH_ALARM F.WCH_ALARM_PROMISE_BROKEN = true ∧ t.fld WCH_BROKEN_LAST F.WCH_BROKEN_LAST_ENGINE = e)) ∧
    (∀ r pl, Table.get? s.eng.runs e = some r → r.be = false → r.lent = false → Table.get? s.adm.plans r.plan = some pl →
      ∃ t, exec (.slotWatchdog e) s = .next t ∧ Table.get? t.eng.runs e = none ∧ t.reg WCH_BROKEN = BitVec.ofNat 64 (sat64 (s.reg WCH_BROKEN).toNat 1) ∧
      t.flag WCH_ALARM F.WCH_ALARM_PROMISE_BROKEN = true ∧ t.fld WCH_BROKEN_LAST F.WCH_BROKEN_LAST_ENGINE = e) ∧
    (∀ r pl, Table.get? s.eng.runs e = some r → r.lent = false → r.wait = .none → r.length ≤ r.pos → r.mx.loading = false →
      Table.get? s.adm.plans r.plan = some pl → eKind e ≠ 5 → eKind e ≠ 13 → ∃ t, exec (.segmentEnd e) s = .next t ∧ Table.get? t.eng.runs e = none ∧
      (∀ d, d ≠ e → Table.get? t.eng.runs d = Table.get? s.eng.runs d) ∧
      (Unended (pl.setSlot r.slot .finished) → Table.get? t.adm.plans r.plan = some (pl.setSlot r.slot .finished) ∧
        ∀ a, (∀ p ∈ r.pend, p.1 ≠ a) → t.byteAt a = s.byteAt a) ∧
      (¬ Unended (pl.setSlot r.slot .finished) → Table.get? t.adm.plans r.plan = none ∧ (pl.buoy < 16384 → t.buoy pl.buoy = s.buoy pl.buoy + 1)))

/-- BE_SLOT_START begins one of the best-effort slots ready on a free engine; BE_SUSPEND moves a run that must give way into the engine's save bank, whole, and
BE_RESUME brings it back; SPILL_COPY_DONE makes a slot on its way to a spill slot held there, and HELD_SLOT_RESTORE brings a resumed one back and frees the spill
slot. Nothing else runs or waits differently (R76, R376, R379). -/
def Obligations.BestEffortSlotsComeAndGo : Prop :=
  ∀ (s : State) (e : Nat),
    (∀ id idx x pl, (s.readySlots e)[s.anyNat % (s.readySlots e).length]? = some (id, idx, x) → s.freeFor e false = true →
      Table.get? s.adm.plans id = some pl → ¬ (s.underTest (s.engineSource e) = some false) →
      ∃ t, exec (.beSlotStart e) s = .next t ∧ Starts s.tookFree t e id idx pl x) ∧
    (∀ r, Table.get? s.eng.runs e = some r → r.be = true → s.mustSuspend e = true → ∃ t, exec (.beSuspend e) s = .next t ∧
      Table.get? t.eng.runs e = none ∧ Table.get? t.eng.banks e = some r ∧ (∀ d, d ≠ e → Table.get? t.eng.runs d = Table.get? s.eng.runs d ∧
        Table.get? t.eng.banks d = Table.get? s.eng.banks d) ∧ KeepRegs s t (statusRegs e ++ reportRegs) ∧
      t.adm = { s.adm with plans := Table.mod s.adm.plans r.plan (fun pl => pl.setSlot r.slot .suspended) } ∧
      t = (((s.setRegs t.regs).setEng t.eng).setAdm t.adm).setLog t.log) ∧
    (∀ r, Table.get? s.eng.banks e = some r → s.freeFor e true = true → ∃ t, exec (.beResume e) s = .next t ∧ Table.get? t.eng.banks e = none ∧
      (r.fetch = none → Table.get? t.eng.runs e = some r ∧ (∀ d, d ≠ e → Table.get? t.eng.runs d = Table.get? s.eng.runs d) ∧
        t.adm.plans = Table.mod s.adm.plans r.plan (fun pl => pl.setSlot r.slot .running) ∧ ∀ a, t.byteAt a = s.byteAt a)) ∧
    (∀ p slot h, Table.get? s.eng.held (64 * p + slot) = some h → h.resumed = true → s.freeFor h.engine false = true →
      ∃ t, exec (.heldSlotRestore p slot) s = .next t ∧ Table.get? t.eng.held (64 * p + slot) = none ∧
      (h.run.fetch = none → Table.get? t.eng.runs h.engine = some h.run ∧ (∀ d, d ≠ h.engine → Table.get? t.eng.runs d = Table.get? s.eng.runs d) ∧
        ∀ a, t.byteAt a = s.byteAt a)) ∧
    (∀ k r, s.eng.spilling.find? (fun x => x.1 = e) = some (e, k, r) → ∃ t, exec (.spillCopyDone e) s = .next t ∧
      Table.get? t.eng.held (64 * r.part + k) = some ⟨e, r, false⟩ ∧ (∀ x ∈ t.eng.spilling, x ∈ s.eng.spilling ∧ x.1 ≠ e) ∧ t.eng.runs = s.eng.runs ∧
      t.eng.banks = s.eng.banks ∧ t.adm = s.adm ∧ ∀ i, i ≠ 64 * r.part + k → Table.get? t.eng.held i = Table.get? s.eng.held i)

end

namespace Sys2Proof.Claims
open Sys2Proof.Machine

/-- A command stands next on an engine of the package and may run: the engine runs a slot r of its own and waits for nothing, its die's tracker has room, the entry of
its opcode lies within the segment and any published limit, and the entry's bytes can be read, with s1 the state after reading them (R175, R176, R181). -/
def Issues (s : State) (e op : Nat) (r : Run) (entry : List Byte) (s1 : State) : Prop :=
  eExists e = true ∧ Table.get? s.eng.runs e = some r ∧ r.lent = false ∧ r.wait = .none ∧ r.pos + entrySize op ≤ r.length ∧
  e ∉ s.trackerWaits (eDie e) ∧ s.trackerFull (eDie e) = false ∧ (r.opened = true → r.pos + entrySize op ≤ s.published r) ∧
  (op < 8 ∨ (16 ≤ op ∧ opDefined (eKind e) op = true)) ∧ (∃ f s0, s.fetchEntry e r 64 = .ok (f, s0) ∧ byteOf f 0 = op) ∧
  s.fetchEntry e r (entrySize op) = .ok (entry, s1) ∧ byteOf entry 0 = op

/-- The registers that reading memory for partition p may advance (R33, R48, R346, R350). -/
def readRegs (p : Nat) : List Nat := (List.range 16).map HBM_RD_BYTES ++ (List.range 16).map HBM_NARROW ++
  [DFT_HOST_RD, KPR_VIOLATIONS, KPR_VIOL_PHYS, KPR_VIOL_LAST, KPR_PART_VIOLATIONS p]

/-- The busy and wait counters of an engine (R127, R171, R215). -/
def cycleRegs (e : Nat) : List Nat := [TD_ME_CYC_BUSY (eDie e) (eIdx e), TD_ME_WAIT (eDie e) (eIdx e), TD_VE_CYC_BUSY (eDie e) (eIdx e),
  TD_VE_WAIT (eDie e) (eIdx e), TD_CE_CYC_BUSY (eDie e) (eIdx e), TD_CE_WAIT (eDie e) (eIdx e), TD_CE_CYC_BUSY (eDie e) (4 + eIdx e),
  TD_CE_WAIT (eDie e) (4 + eIdx e)]

/-- What counts the cycles of a shadow load that no stream hid (R119, R121, R123). -/
def exposedRegs (e : Nat) : List Nat := [TD_ME_CYC_ADV (eDie e) (eIdx e), TD_ME_FROZEN (eDie e) (eIdx e), TD_ME_FRZ_FEED_B (eDie e) (eIdx e)]

/-- The engine has gone on past an entry of size bytes with run r, and no other engine's run has changed. -/
def Passed (s t : State) (e size : Nat) (r : Run) : Prop :=
  Table.get? t.eng.runs e = some { r with pos := r.pos + size, idx := r.idx + 1, wait := .none } ∧
  ∀ d, d ≠ e → Table.get? t.eng.runs d = Table.get? s.eng.runs d

/-- The engine stays at its entry with run r, and no other engine's run has changed. -/
def Waits (s t : State) (e : Nat) (r : Run) : Prop :=
  Table.get? t.eng.runs e = some r ∧ ∀ d, d ≠ e → Table.get? t.eng.runs d = Table.get? s.eng.runs d

/-- What a command may change that works within its engine: the engines' runs, registers, and what reading memory touches (stamps, flash reads, requests to
lenders). Memory, cluster SRAM, poison, coherence, plans, translations, boot state and everything else are as before. -/
def WithinEngine (s t : State) : Prop :=
  t = (((((s.setRegs t.regs).setEng t.eng).setTiers t.tiers).setFlash t.flash).setLnk t.lnk).setFree t.free

end Sys2Proof.Claims

section
open Sys2Proof Sys2Proof.Machine Sys2Proof.Claims

/-- The common commands NOP, END, BWAIT, BSIGNAL, BADD and MPOST of any engine: NOP changes nothing, END finishes the slot, BSIGNAL sets a buoy of the partition
to OPERAND and BADD adds OPERAND modulo 2^64, BWAIT goes on where its condition holds and else waits for it, MPOST posts OPERAND to the partition's
engine-to-host mailbox or counts a drop where that is full or in reset (R176 to R178, R185, R210). -/
def Obligations.CommonCommandsRun : Prop :=
  ∀ (s : State) (e op : Nat) (r : Run) (b : List Byte) (s1 : State), Issues s e op r b s1 → r.mx.loading = false → s1.commonCodes r b = [] →
    (op = 0 → ∃ t, exec (.nop e) s = .next t ∧ Passed s t e 64 r ∧ WithinEngine s t ∧ KeepRegs s t (readRegs r.part ++ cycleRegs e ++ exposedRegs e)) ∧
    (op = 1 → ∃ t, exec (.endSegment e) s = .next t ∧ Table.get? t.eng.runs e = none) ∧
    (op = 2 → condHolds (byteOf b 1) (s.buoy (leAt b 2 2)) (word64 b 8) = true → ∃ t, exec (.bwait e) s = .next t ∧ Passed s t e 64 r ∧ WithinEngine s t ∧
      KeepRegs s t (readRegs r.part ++ cycleRegs e ++ exposedRegs e)) ∧
    (op = 2 → condHolds (byteOf b 1) (s.buoy (leAt b 2 2)) (word64 b 8) = false → ∃ t, exec (.bwait e) s = .next t ∧
      Waits s t e { r with wait := .buoy (byteOf b 1) (leAt b 2 2) (word64 b 8) (leAt b 4 4) } ∧ WithinEngine s t ∧
      KeepRegs s t (readRegs r.part ++ cycleRegs e ++ exposedRegs e)) ∧
    (op = 3 → ∃ t, exec (.bsignal e) s = .next t ∧ Passed s t e 64 r ∧ t.buoy (leAt b 2 2) = word64 b 8 ∧
      (∀ x, x < 16384 → x ≠ leAt b 2 2 → t.buoy x = s.buoy x) ∧ ∀ a, t.byteAt a = s.byteAt a) ∧
    (op = 4 → ∃ t, exec (.badd e) s = .next t ∧ Passed s t e 64 r ∧ t.buoy (leAt b 2 2) = s.buoy (leAt b 2 2) + word64 b 8 ∧
      (∀ x, x < 16384 → x ≠ leAt b 2 2 → t.buoy x = s.buoy x) ∧ ∀ a, t.byteAt a = s.byteAt a) ∧
    (op = 6 → ∃ t, exec (.mpost e) s = .next t ∧ Passed s t e 64 r ∧ (∀ x, t.buoy x = s.buoy x ∨ 16384 ≤ x) ∧ (∀ a, t.byteAt a = s.byteAt a) ∧
      ((s.mbox (3 * r.part)).resetting = false → (s.mbox (3 * r.part)).entries.length < 256 →
        (t.mbox (3 * r.part)).entries = (s.mbox (3 * r.part)).entries ++ [word64 b 8] ∧ t.reg (MBX_DROPS r.part) = s.reg (MBX_DROPS r.part)) ∧
      ((s.mbox (3 * r.part)).resetting = true ∨ 256 ≤ (s.mbox (3 * r.part)).entries.length → t.xq = s.xq ∧
        t.reg (MBX_DROPS r.part) = BitVec.ofNat 64 (sat64 (s.reg (MBX_DROPS r.part)).toNat 1)))

/-- A waiting BWAIT ends when its condition holds, and when its limit passes before that its slot ends and the expiry is counted; BCMP writes the value it finds to
ADDR and sets the buoy to OPERAND2 where that value is OPERAND; TSTAMP writes the watch count and the tick to ADDR. Where the address lies in HBM the bytes
stand there, and no other byte of memory changes (R178, R185 to R190). -/
def Obligations.WaitsComparesAndStamps : Prop :=
  ∀ (s : State) (e : Nat) (r : Run), eExists e = true → Table.get? s.eng.runs e = some r →
    (∀ c b v l, r.wait = .buoy c b v l → condHolds c (s.buoy b) v = true → ∃ t, exec (.bwaitSatisfied e) s = .next t ∧ Passed s t e 64 r ∧
      KeepRegs s t (cycleRegs e) ∧ t = ((s.setRegs t.regs).setEng t.eng).setFree t.free) ∧
    (∀ c b v l, r.wait = .buoy c b v l → l ≠ 0 → condHolds c (s.buoy b) v = false → ∃ t, exec (.bwaitExpired e) s = .next t ∧
      Table.get? t.eng.runs e = none ∧ t.reg BUY_WAIT_EXPIRED = BitVec.ofNat 64 (sat64 (s.reg BUY_WAIT_EXPIRED).toNat 1)) ∧
    (∀ b s1, Issues s e 5 r b s1 → r.mx.loading = false → s1.commonCodes r b = [] →
      ∀ pa, s1.translate (r.access e 1) (leAt b 24 8) = .ok pa → pa % 8 = 0 → s1.inTransit pa 8 = false → s1.region pa = .hbm →
      ∃ t, exec (.bcmp e) s = .next t ∧ (∀ i, i < 8 → t.byteAt (pa + i) = (leBytes 8 (s.buoy (leAt b 2 2)).toNat)[i]?.getD 0) ∧
      (∀ a, a < pa ∨ pa + 8 ≤ a → t.byteAt a = s.byteAt a) ∧ (∀ d, d ≠ e → Table.get? t.eng.runs d = Table.get? s.eng.runs d) ∧
      t.buoy (leAt b 2 2) = (if s.buoy (leAt b 2 2) = word64 b 8 then word64 b 16 else s.buoy (leAt b 2 2)) ∧
      (∀ x, x < 16384 → x ≠ leAt b 2 2 → t.buoy x = s.buoy x)) ∧
    (∀ b s1, Issues s e 7 r b s1 → r.mx.loading = false → s1.commonCodes r b = [] →
      ∀ pa, (s1.someTick.commonCycles e true).translate (r.access e 1) (leAt b 24 8) = .ok pa → pa % 16 = 0 → s1.inTransit pa 16 = false → s1.region pa = .hbm →
      ∃ t, exec (.tstamp e) s = .next t ∧
      (∀ i, i < 16 → t.byteAt (pa + i) = (leBytes 8 s.watch ++ leBytes 4 t.tick ++ leBytes 4 0)[i]?.getD 0) ∧
      (∀ a, a < pa ∨ pa + 16 ≤ a → t.byteAt a = s.byteAt a) ∧ (∀ d, d ≠ e → Table.get? t.eng.runs d = Table.get? s.eng.runs d))

end

namespace Sys2Proof.Claims
open Sys2Proof.Machine

/-- The registers of a matrix engine that its commands advance (R127). -/
def meRegs (e : Nat) : List Nat := [TD_ME_STATUS (eDie e) (eIdx e), TD_ME_CYC_BUSY (eDie e) (eIdx e), TD_ME_CYC_ADV (eDie e) (eIdx e), TD_ME_FROZEN (eDie e) (eIdx e),
  TD_ME_FRZ_FEED_A (eDie e) (eIdx e), TD_ME_FRZ_FEED_B (eDie e) (eIdx e), TD_ME_FRZ_DRAIN (eDie e) (eIdx e), TD_ME_FRZ_SHADOW (eDie e) (eIdx e),
  TD_ME_ROWS (eDie e) (eIdx e), TD_ME_LOADS (eDie e) (eIdx e), TD_ME_OUT_NAN (eDie e) (eIdx e), TD_ME_OUT_SAT (eDie e) (eIdx e)]

/-- A run with other pending stores and planes. -/
def ranWith (r : Run) (pend : List (Nat × Byte)) (bad : List Nat) (mx : MatrixState) : Run := { r with pend := pend, bad := bad, mx := mx }

/-- A run's clean stores stand where they belong, each byte of HBM in memory and each of cluster SRAM in its SRAM, and memory outside them is as before (R117, R156,
R196). -/
def Drained (s t : State) (r : Run) : Prop :=
  (∀ a, (∀ p ∈ r.pend, p.1 ≠ a) → t.byteAt a = s.byteAt a) ∧
  ((r.pend.map (·.1)).Nodup → (∀ p ∈ r.pend, p.1 + 1 ≠ 2 ^ 52) → r.bad = [] → ∀ p ∈ r.pend,
    ((∀ x, x / 64 = p.1 / 64 → s.region x = .hbm) → t.byteAt p.1 = p.2) ∧ (2 ^ 52 ≤ p.1 → Sparse.get t.sram (p.1 - 2 ^ 52) = p.2))

end Sys2Proof.Claims

section
open Sys2Proof Sys2Proof.Machine Sys2Proof.Claims

/-- MLOAD puts the operand it reads into the shadow plane, whose load then runs; SHADOW_LOAD_DONE ends the load; MSTREAM streams its rows through the active plane,
or waits where it swaps and the load still runs; SWAP exchanges the planes and streams; MFENCE waits, and MFENCE_COMPLETE makes the
engine's stores visible. Until then memory is as it was, and beside the engine's own run and counters nothing changes (R89 to R92, R101, R117, R120). -/
def Obligations.MatrixCommandsRun : Prop :=
  ∀ (s : State) (e : Nat) (r : Run),
    (∀ b s1 p s2, Issues s e 0x10 r b s1 → mloadCodes b s1.fp4 = [] → s1.readPlane (r.access e 0) e (leAt b 2 2) (descAt b 8) = .ok (p, s2) →
      ∃ t n, exec (.mload e) s = .next t ∧ n ≤ r.mx.since ∧
      Passed s t e 64 { r with mx := { r.mx with shadow := some p, loading := true, streamed := n } } ∧
      p.kr = leAt b 2 2 ∧ p.nc = (descAt b 8).width ∧ p.fmt = (descAt b 8).format ∧
      t.flag (TD_ME_STATUS (eDie e) (eIdx e)) F.TD_ME_STATUS_SHADOW_READY = false ∧
      t.flag (TD_ME_STATUS (eDie e) (eIdx e)) F.TD_ME_STATUS_ACTIVE_VALID = r.mx.active.isSome ∧ WithinEngine s t ∧ KeepRegs s t (readRegs r.part ++ meRegs e)) ∧
    (Table.get? s.eng.runs e = some r → eKind e = 0 → r.mx.loading = true → ∃ t, exec (.shadowLoadDone e) s = .next t ∧
      Waits s t e { r with mx := { r.mx with loading := false } } ∧
      t.flag (TD_ME_STATUS (eDie e) (eIdx e)) F.TD_ME_STATUS_SHADOW_READY = r.mx.shadow.isSome ∧ KeepRegs s t (meRegs e) ∧
      t = (s.setRegs t.regs).setEng t.eng) ∧
    (∀ b s1 p s2, Issues s e 0x11 r b s1 → mSwap b = false → r.mx.active = some p → mstreamCodes b (some p) s1.fp4 = [] →
      foldM (fun s i => s.streamOne r e s.free p b i) (List.range (leAt b 4 4)) s1 = .ok s2 → ∃ t pend bad, exec (.mstream e) s = .next t ∧
      Passed s t e 128 (ranWith r pend bad { r.mx with streamed := r.mx.streamed + streamCycles (descAt b 16).format (leAt b 4 4), since := r.mx.since + streamCycles (descAt b 16).format (leAt b 4 4) }) ∧
      WithinEngine s t ∧ KeepRegs s t (readRegs r.part ++ meRegs e)) ∧
    (∀ b s1 p, Issues s e 0x11 r b s1 → mSwap b = true → r.mx.shadow = some p → mstreamCodes b (some p) s1.fp4 = [] → r.mx.loading = true →
      ∃ t, exec (.mstream e) s = .next t ∧ Waits s t e { r with wait := .swap } ∧ t = s.setEng t.eng) ∧
    (∀ b s1 p s2, Table.get? s.eng.runs e = some r → r.wait = .swap → r.mx.loading = false → r.mx.shadow = some p →
      (s.modRun e (fun r => { r with wait := .none })).fetchEntry e r 128 = .ok (b, s1) →
      foldM (fun s i => s.streamOne { r with wait := .none, mx := r.mx.exchange } e s.free p b i) (List.range (leAt b 4 4))
        ((s1.modRun e (fun r => { r with mx := r.mx.exchange })).showPlanes e) = .ok s2 → ∃ t pend bad, exec (.swap e) s = .next t ∧
      Passed s t e 128 
        (ranWith r pend bad { r.mx with active := some p, shadow := r.mx.active, streamed := 256 + streamCycles (descAt b 16).format (leAt b 4 4), since := streamCycles (descAt b 16).format (leAt b 4 4) }) ∧ WithinEngine s t) ∧
    (∀ b s1, Issues s e 0x12 r b s1 → zerosAt b 1 63 = true → ∃ t, exec (.mfence e) s = .next t ∧ Waits s t e { r with wait := .fence } ∧ WithinEngine s t ∧
      KeepRegs s t (readRegs r.part)) ∧
    (Table.get? s.eng.runs e = some r → eKind e = 0 → r.wait = .fence → ∃ t, exec (.mfenceComplete e) s = .next t ∧
      Passed s t e 64 { r with pend := [], bad := [] } ∧ Drained s t r)

end

namespace Sys2Proof.Claims
open Sys2Proof.Machine

/-- The registers of a vector engine that its commands advance (R153, R166, R171). -/
def veRegs (e : Nat) : List Nat := [TD_VE_STATUS (eDie e) (eIdx e), TD_VE_CYC_BUSY (eDie e) (eIdx e), TD_VE_CYC_ACT (eDie e) (eIdx e), TD_VE_WAIT_MEM (eDie e) (eIdx e),
  TD_VE_WAIT_DEP (eDie e) (eIdx e), TD_VE_CMDS (eDie e) (eIdx e), TD_VE_EXC_INVALID (eDie e) (eIdx e), TD_VE_EXC_DIVZERO (eDie e) (eIdx e),
  TD_VE_EXC_OVERFLOW (eDie e) (eIdx e), TD_VE_EXC_SAT (eDie e) (eIdx e), TD_VE_SIDE_USE (eDie e) (eIdx e)]

/-- A vector command of size bytes has run, and leaves vector state v: nothing else changes beside the engine's counters and what reading touches. -/
def VecRan (s t : State) (e size : Nat) (r : Run) (v : VectorState) : Prop :=
  Passed s t e size { r with vx := v } ∧ WithinEngine s t ∧ KeepRegs s t (readRegs r.part ++ veRegs e)

/-- Two vector states differ in one tile, and perhaps in a count register, only. -/
def OnlyTile (u v : VectorState) (dst : Nat) (cnt : Option Nat) : Prop :=
  (∀ k i j, k ≠ dst → i < 64 → j < 256 → Sparse.get v.tiles (k * 16384 + i * 256 + j) = Sparse.get u.tiles (k * 16384 + i * 256 + j)) ∧
  (∀ c, some c ≠ cnt → Sparse.get v.cnt c = Sparse.get u.cnt c) ∧ v.carry = u.carry ∧ v.side = u.side ∧ v.sideArm = u.sideArm

/-- The codes an element of a type can hold. -/
def codes (ty : Nat) : Nat := 2 ^ (8 * elemBytes ty)

/-- Four bytes are among a run's pending stores at a key or physical address. -/
def Pends4 (r : Run) (k v : Nat) : Prop := ∀ i, i < 4 → Table.get? r.pend (k + i) = (leBytes 4 v)[i]?

/-- Where a word store at ADDR in SPACE goes: its cluster's SRAM, or the physical address its translation gives, outside flash. -/
def WordAt (s : State) (r : Run) (e : Nat) (b : List Byte) (k : Nat) : Prop :=
  (byteOf b 24 = 0 ∧ k = sramKey (eCluster e) (leAt b 16 8)) ∨
  (byteOf b 24 = 1 ∧ s.translate (r.access e 1) (leAt b 16 8) = .ok k ∧ s.inTransit k 4 = false ∧ s.region k ≠ .flash)

end Sys2Proof.Claims

section
open Sys2Proof Sys2Proof.Machine Sys2Proof.Claims

/-- VLOAD converts the rows it reads into the destination tile, with zeros up to a row's end; VSTORE puts the converted rows among the engine's pending stores;
VCNT_STORE and VSIDE_STORE put a count register and the side accumulator there, as four bytes. Memory, the other tiles and the other registers are as they
were (R135 to R137, R156, R159, R166). -/
def Obligations.VectorLoadsAndStores : Prop :=
  ∀ (s : State) (e : Nat) (r : Run) (b : List Byte) (s1 : State) (h : VHdr) (d : Desc), h = vhdr b → d = descAt b 16 →
    (∀ rows sc s2, Issues s e 0x20 r b s1 → vloadCodes b s.fp4 = [] → s1.loadRows (r.access e 0) e d h.rows = .ok ((rows, sc), s2) →
      ∃ t v, exec (.vload e) s = .next t ∧ VecRan s t e 64 r v ∧ OnlyTile { r.vx with side := v.side, sideArm := v.sideArm } v h.dst none ∧
      (∀ i j, i < h.rows → j < perRow h.ty → v.el h.ty h.dst i j =
        (((loadRow d h.ty (bit h.flags 0) ((rows[i]?).getD []) ((sc[i]?).getD [])).1[j]?).getD 0) % codes h.ty) ∧
      (h.ty ≠ 6 ∨ r.vx.sideArm = 0 → v.side = r.vx.side ∧ v.sideArm = r.vx.sideArm) ∧ (h.ty = 6 → v.sideArm = 0)) ∧
    (∀ s2, Issues s e 0x21 r b s1 → vstoreCodes b r.vx s1.fp4 = [] → bit h.flags 1 = false →
      s1.storeRows (r.access e 1) e d ((List.range h.rows).map (fun i => storeRow d h.ty (bit h.flags 0) (r.vx.codes h.ty h.src i d.width))) = .ok s2 →
      ∃ t x, exec (.vstore e) s = .next t ∧ Passed s t e 64 x ∧ x = { r with pend := x.pend, bad := x.bad } ∧ WithinEngine s t ∧
      KeepRegs s t (readRegs r.part ++ veRegs e) ∧
      (d.space = 0 → d.bs = false → ∀ i k, i < h.rows → k < d.len → Table.get? x.pend (sramKey (eCluster e) (d.base + i * d.stride) + k) =
        (storeRow d h.ty (bit h.flags 0) (r.vx.codes h.ty h.src i d.width)).1[k]?)) ∧
    (∀ k, Issues s e 0x28 r b s1 → byteOf b 1 % 4 = 2 → vcntCodes b = [] → WordAt s1 r e b k → ∃ t x, exec (.vcntStore e) s = .next t ∧ Passed s t e 64 x ∧
      x = { r with pend := x.pend, bad := x.bad } ∧ Pends4 x k (Sparse.get r.vx.cnt (byteOf b 7)).toNat ∧ WithinEngine s t ∧
      KeepRegs s t (readRegs r.part ++ veRegs e)) ∧
    (∀ k, Issues s e 0x2A r b s1 → byteOf b 1 % 4 = 2 → vsideCodes b = [] → WordAt s1 r e b k → ∃ t x, exec (.vsideStore e) s = .next t ∧ Passed s t e 64 x ∧
      x = { r with pend := x.pend, bad := x.bad } ∧ Pends4 x k r.vx.side ∧ (∀ a, t.byteAt a = s.byteAt a) ∧
      KeepRegs s t (readRegs r.part ++ veRegs e ++ reportRegs))

/-- The vector commands that compute from tiles to a tile: VCHAIN its stages at each element a mask leaves, VRED one result for each row or column, VSCAN
running sums, VCOMPRESS the selected elements packed, VEXPAND packed elements at the selected places, VXPOSE a transposed block. Every other tile,
memory, and every register but the engine's counters and the count register they set are as before (R140, R157, R160, R161, R163 to R165). -/
def Obligations.VectorComputeCommandsRun : Prop :=
  ∀ (s : State) (e : Nat) (r : Run) (b : List Byte) (s1 : State) (h : VHdr), h = vhdr b →
    (∀ st b0 s2 b1 s3, Issues s e 0x22 r b s1 → vchainCodes b = [] → st = chainStages b →
      s1.readBcast (r.access e 0) e (usesCode st 0x40) (descAt b 48) h.rows = .ok (b0, s2) →
      s2.readBcast (r.access e 0) e (usesCode st 0x41) (descAt b 80) h.rows = .ok (b1, s3) →
      ∃ t v, exec (.vchain e) s = .next t ∧ VecRan s t e 128 r v ∧ OnlyTile r.vx v h.dst none ∧
      ∀ i j, i < h.rows → j < perRow (byteOf b 8) → v.el (byteOf b 8) h.dst i j =
        if bit h.flags 1 ∧ r.vx.el (byteOf b 8) h.aux i j = 0 then r.vx.el (byteOf b 8) h.dst i j
        else if j < perRow h.ty then
          (ChainEnv.result ⟨h.ty, r.vx, (descAt b 48).ty, b0, (descAt b 80).ty, b1⟩ st h.src (byteOf b 8) i j (bit h.flags 0)).1 % codes (byteOf b 8)
        else 0) ∧
    (Issues s e 0x23 r b s1 → vredCodes b = [] → ∃ t v, exec (.vred e) s = .next t ∧ VecRan s t e 64 r v ∧ OnlyTile r.vx v h.dst none ∧
      (bit h.sel 4 = false → ∀ k, k < h.rows → v.el 6 h.dst k 0 = (redResult r.vx h k).1 % 2 ^ 32) ∧
      (bit h.sel 4 = true → ∀ k, k < perRow h.ty → v.el 6 h.dst (k / 64) (k % 64) = (redResult r.vx h k).1 % 2 ^ 32)) ∧
    (Issues s e 0x24 r b s1 → vscanCodes b = [] → ∃ t v, exec (.vscan e) s = .next t ∧ VecRan s t e 64 r v ∧
      OnlyTile { r.vx with carry := v.carry } v h.dst none ∧ (bit h.flags 3 = false → v.carry = r.vx.carry) ∧
      ∀ q ∈ scanSeqs h.sel h.rows, ∀ res, res = scanSeq (decide (h.ty = 6)) (bit h.flags 0) (bit h.flags 1)
          (q.2.map (fun p => (p, r.vx.el h.ty h.src p.1 p.2, bit h.flags 1 && decide (r.vx.el h.ty h.aux p.1 (if h.sel = 1 then 0 else p.2) ≠ 0))))
          (if bit h.flags 2 then (Sparse.get r.vx.carry q.1).toNat else 0) →
        (∀ x ∈ res.1, v.el h.ty h.dst x.1.1 x.1.2 = x.2.1 % 2 ^ 32) ∧ (bit h.flags 3 = true → Sparse.get v.carry q.1 = BitVec.ofNat 32 res.2)) ∧
    (∀ taken, Issues s e 0x25 r b s1 → vcompressCodes b 0 = [] → taken = ((positions h.rows (perRow h.ty)).filter (fun p =>
        r.vx.el h.ty h.aux p.1 p.2 ≠ 0)).map (fun p => r.vx.el h.ty h.src p.1 p.2) →
      ∃ t v, exec (.vcompress e) s = .next t ∧ VecRan s t e 64 r v ∧ OnlyTile r.vx v h.dst (some h.sel) ∧
      Sparse.get v.cnt h.sel = BitVec.ofNat 32 taken.length ∧
      ∀ k, k < 64 * perRow h.ty → v.el h.ty h.dst (k / perRow h.ty) (k % perRow h.ty) = (taken[k]?).getD 0) ∧
    (∀ sel, Issues s e 0x26 r b s1 → vcompressCodes b 1 = [] → sel = (positions h.rows (perRow h.ty)).filter (fun p => r.vx.el h.ty h.aux p.1 p.2 ≠ 0) →
      ∃ t v, exec (.vexpand e) s = .next t ∧ VecRan s t e 64 r v ∧ OnlyTile r.vx v h.dst (some h.sel) ∧
      Sparse.get v.cnt h.sel = BitVec.ofNat 32 sel.length ∧
      (∀ k p, sel[k]? = some p → v.el h.ty h.dst p.1 p.2 = r.vx.el h.ty h.src (k / perRow h.ty) (k % perRow h.ty)) ∧
      ∀ i j, i < h.rows → j < perRow h.ty → r.vx.el h.ty h.aux i j = 0 →
        v.el h.ty h.dst i j = if bit h.flags 0 then r.vx.el h.ty h.dst i j else 0) ∧
    (Issues s e 0x27 r b s1 → vxposeCodes b = [] → ∃ t v, exec (.vxpose e) s = .next t ∧ VecRan s t e 64 r v ∧ OnlyTile r.vx v h.dst none ∧
      ∀ i j, i < 64 → j < 64 → v.el h.ty h.dst j (64 * (h.sel / 16 % 4) + i) = r.vx.el h.ty h.src i (64 * (h.sel % 4) + j))

/-- VCNT_SET and VCNT_ADD set a count register to VALUE and to its sum with VALUE modulo 2^32; VSIDE_ARM_SUM and VSIDE_ARM_MAX arm the side reducer at +0 and at
negative infinity; VFENCE waits, and VFENCE_COMPLETE makes the engine's stores visible; tiles and memory are as they were until then (R156, R159, R166). -/
def Obligations.VectorRegistersAndFences : Prop :=
  ∀ (s : State) (e : Nat) (r : Run) (b : List Byte) (s1 : State),
    (Issues s e 0x28 r b s1 → byteOf b 1 % 4 = 0 → vcntCodes b = [] → ∃ t v, exec (.vcntSet e) s = .next t ∧ VecRan s t e 64 r v ∧
      v = { r.vx with cnt := v.cnt } ∧ Sparse.get v.cnt (byteOf b 7) = BitVec.ofNat 32 (leAt b 8 4) ∧
      ∀ c, c ≠ byteOf b 7 → Sparse.get v.cnt c = Sparse.get r.vx.cnt c) ∧
    (Issues s e 0x28 r b s1 → byteOf b 1 % 4 = 1 → vcntCodes b = [] → ∃ t v, exec (.vcntAdd e) s = .next t ∧ VecRan s t e 64 r v ∧
      v = { r.vx with cnt := v.cnt } ∧ Sparse.get v.cnt (byteOf b 7) = Sparse.get r.vx.cnt (byteOf b 7) + BitVec.ofNat 32 (leAt b 8 4) ∧
      ∀ c, c ≠ byteOf b 7 → Sparse.get v.cnt c = Sparse.get r.vx.cnt c) ∧
    (∀ c arm start, (c = .vsideArmSum e ∧ byteOf b 1 % 4 = 0 ∧ arm = 1 ∧ start = 0) ∨ (c = .vsideArmMax e ∧ byteOf b 1 % 4 = 1 ∧ arm = 2 ∧ start = 0xFF800000) →
      Issues s e 0x2A r b s1 → vsideCodes b = [] → ∃ t, exec c s = .next t ∧ Passed s t e 64 { r with vx := { r.vx with side := start, sideArm := arm } } ∧
      t.flag (TD_VE_STATUS (eDie e) (eIdx e)) F.TD_VE_STATUS_SIDE_ARMED = true ∧ (∀ a, t.byteAt a = s.byteAt a) ∧
      KeepRegs s t (readRegs r.part ++ veRegs e ++ reportRegs)) ∧
    (Issues s e 0x29 r b s1 → byteOf b 1 = 0 → byteOf b 2 = 0 → zerosAt b 7 57 = true → ∃ t, exec (.vfence e) s = .next t ∧
      Waits s t e { r with wait := .fence } ∧ WithinEngine s t ∧ KeepRegs s t (readRegs r.part)) ∧
    (Table.get? s.eng.runs e = some r → eKind e = 1 → r.wait = .fence → ∃ t, exec (.vfenceComplete e) s = .next t ∧
      Passed s t e 64 { r with pend := [], bad := [] } ∧ Drained s t r)

end

section
open Sys2Proof Sys2Proof.Machine Sys2Proof.Claims

/-- CCOPY and CFILL put the bytes of each destination row among the engine's pending stores, a fill's being its pattern repeated; without RECORD they complete at
once, with it they wait, and COMPLETION_RECORD_WRITE then makes the engine's stores visible, writes the value and the visibility epoch, and completes;
CFENCE waits and CFENCE_COMPLETE makes the stores visible (R195 to R197). -/
def Obligations.CopyCommandsRun : Prop :=
  ∀ (s : State) (e : Nat) (r : Run),
    (∀ c op b s1 s2, (c = .ccopy e ∧ op = 0x30) ∨ (c = .cfill e ∧ op = 0x31) → Issues s e op r b s1 → copyCodes b (eKind e = 2) = [] →
      s1.copyBytes e r (copyCmd b) = .ok s2 → ∃ t x, exec c s = .next t ∧ x = { r with pend := x.pend, bad := x.bad } ∧ WithinEngine s t ∧
      ((copyCmd b).record = false → Passed s t e 128 x) ∧
      ((copyCmd b).record = true → Waits s t e { x with wait := .record (copyCmd b).recAddr (copyCmd b).recValue }) ∧
      (op = 0x31 → (copyCmd b).dstSpace = 0 → (copyCmd b).rows = 1 → ∀ i, i < (copyCmd b).rowBytes →
        Table.get? x.pend (sramKey (4 * eDie e + (copyCmd b).dstCluster) (copyCmd b).dst + i) = some (((copyCmd b).pattern[i % 8]?).getD 0)) ∧
      (op = 0x30 → (copyCmd b).dstSpace = 0 → (copyCmd b).srcSpace = 0 → (copyCmd b).rows = 1 → (copyCmd b).xpose = false → ∀ i,
        i < (copyCmd b).rowBytes → Table.get? x.pend (sramKey (4 * eDie e + (copyCmd b).dstCluster) (copyCmd b).dst + i) =
          some ((Table.get? r.pend (sramKey (4 * eDie e + (copyCmd b).srcCluster) (copyCmd b).src + i)).getD
            (Sparse.get s.sram ((4 * eDie e + (copyCmd b).srcCluster) * 2 ^ 26 + (copyCmd b).src + i))))) ∧
    (∀ addr v pa s1, Table.get? s.eng.runs e = some r → eKind e = 2 ∨ eKind e = 3 → r.wait = .record addr v → s1 = s.drain e → addr % 16 = 0 →
      s1.translate (r.access e 1) addr = .ok pa → pa % 16 = 0 → s1.inTransit pa 16 = false → s1.region pa = .hbm →
      ∃ t x, exec (.completionRecordWrite e) s = .next t ∧ Passed s t e 128 x ∧ x = { r with pend := [], bad := [] } ∧
      (∀ i, i < 16 → t.byteAt (pa + i) = (leBytes 8 v ++ leBytes 8 (s.reg HST_VIS_EPOCH).toNat)[i]?.getD 0) ∧
      ∀ a, a < pa ∨ pa + 16 ≤ a → (∀ p ∈ r.pend, p.1 ≠ a) → t.byteAt a = s.byteAt a) ∧
    (∀ b s1, Issues s e 0x32 r b s1 → zerosAt b 1 63 = true → ∃ t, exec (.cfence e) s = .next t ∧ Waits s t e { r with wait := .fence } ∧ WithinEngine s t ∧
      KeepRegs s t (readRegs r.part)) ∧
    (Table.get? s.eng.runs e = some r → eKind e = 2 ∨ eKind e = 3 → r.wait = .fence → ∃ t, exec (.cfenceComplete e) s = .next t ∧
      Passed s t e 64 { r with pend := [], bad := [] } ∧ Drained s t r)

end

section
open Sys2Proof Sys2Proof.Machine Sys2Proof.Claims

/-- XQ_POINTER_MISMATCH resets a crossing queue: its entries are gone, the reset is counted and shown with their number; XQ_RESET_DONE and, for a reset
by command, MBX_RESET_DONE end it. No other queue and no memory changes (R205, R206, R212). -/
def Obligations.CrossingQueuesReset : Prop :=
  ∀ (s : State),
    (∀ i, (s.mbox i).resetting = false → (s.mbox i).entries.length ≤ 256 → ∃ t, exec (.xqPointerMismatch (.mailbox i)) s = .next t ∧
      t.mbox i = { entries := [], resetting := true, commanded := false } ∧ (∀ j, j ≠ i → t.mbox j = s.mbox j) ∧ t.xq.resetting = s.xq.resetting ∧
      t.reg BUY_XQ_RESETS = BitVec.ofNat 64 (sat64 (s.reg BUY_XQ_RESETS).toNat 1) ∧ t.flag BUY_XQ_LAST F.BUY_XQ_LAST_VALID = true ∧
      t.fld BUY_XQ_LAST F.BUY_XQ_LAST_LOST = (s.mbox i).entries.length ∧ KeepRegs s t (MBX_STATUS (i / 3) :: BUY_XQ_RESETS :: BUY_XQ_LAST :: reportRegs) ∧
      t = (((s.setRegs t.regs).setXq t.xq).setLog t.log).setFree t.free) ∧
    (∀ d, ¬ QueueId.log d ∈ s.xq.resetting → ∃ t, exec (.xqPointerMismatch (.log d)) s = .next t ∧ t.logQueue d = [] ∧ .log d ∈ t.xq.resetting ∧
      t.xq.mail = s.xq.mail ∧ t.reg BUY_XQ_RESETS = BitVec.ofNat 64 (sat64 (s.reg BUY_XQ_RESETS).toNat 1) ∧
      KeepRegs s t (BUY_XQ_RESETS :: BUY_XQ_LAST :: reportRegs)) ∧
    (∀ die wr rd held, ¬ QueueId.other die wr rd held ∈ s.xq.resetting → ∃ t, exec (.xqPointerMismatch (.other die wr rd held)) s = .next t ∧
      t.xq = { s.xq with resetting := .other die wr rd held :: s.xq.resetting } ∧
      t.reg BUY_XQ_RESETS = BitVec.ofNat 64 (sat64 (s.reg BUY_XQ_RESETS).toNat 1) ∧ KeepRegs s t (BUY_XQ_RESETS :: BUY_XQ_LAST :: reportRegs)) ∧
    (∀ i, (s.mbox i).resetting = true → (s.mbox i).commanded = false → ∃ t, exec (.xqResetDone (.mailbox i)) s = .next t ∧
      t.mbox i = { s.mbox i with resetting := false } ∧ (∀ j, j ≠ i → t.mbox j = s.mbox j) ∧ t = s.setXq t.xq) ∧
    (∀ q, (∀ i, q ≠ .mailbox i) → ∃ t, exec (.xqResetDone q) s = .next t ∧ (∀ x, x ∈ t.xq.resetting ↔ x ∈ s.xq.resetting ∧ x ≠ q) ∧
      t.xq.mail = s.xq.mail ∧ t = s.setXq t.xq) ∧
    (∀ p m, m < 3 → (s.mbox (3 * p + m)).resetting = true → (s.mbox (3 * p + m)).commanded = true → ∃ t, exec (.mbxResetDone p m) s = .next t ∧
      t.mbox (3 * p + m) = { s.mbox (3 * p + m) with resetting := false, commanded := false } ∧ (∀ j, j ≠ 3 * p + m → t.mbox j = s.mbox j) ∧
      t.flag (MBX_CTRL p) ⟨m, m⟩ = false ∧ KeepRegs s t [MBX_CTRL p] ∧ t = (s.setRegs t.regs).setXq t.xq)

end

namespace Sys2Proof.Claims
open Sys2Proof.Machine

/-- What a command of a collective engine may change beside its run and what reading touches: the exchange's own state and the messages that wait. -/
def WithinExchange (s t : State) : Prop :=
  t = ((((((s.setRegs t.regs).setEng t.eng).setTiers t.tiers).setFlash t.flash).setLnk t.lnk).setFree t.free).setCol t.col

end Sys2Proof.Claims

section
open Sys2Proof Sys2Proof.Machine Sys2Proof.Claims

/-- GROUP_APPLY_EFFECT puts a group's captured values in effect in their watch; CSTEP opens its step on its engine, with empty sums and its threshold, and captures the
header where the group captures; CREDUCE starts the exchange of its input among the members and waits; COLL data is kept for its CREDUCE, or
discarded where that has stopped (R220, R223 to R230, R244, R245, R472). -/
def Obligations.ExchangeStepsStart : Prop :=
  ∀ (s : State),
    (∀ g w v, (s.group g).pending = some (w, v) → w ≤ s.watch → ∃ t, exec (.groupApplyEffect g) s = .next t ∧
      t.group g = { s.group g with now := v, pending := none } ∧ (∀ h, h ≠ g → t.group h = s.group h) ∧
      t.flag (COL_GRP_APPLY g) F.COL_GRP_APPLY_GO = false ∧ t.flag (COL_GRP_STATUS g) F.COL_GRP_STATUS_APPLY_PENDING = false ∧
      t.fld (COL_GRP_STATUS g) F.COL_GRP_STATUS_MEMBERS = v.members.length % 512 ∧ t.fld (COL_GRP_STATUS g) F.COL_GRP_STATUS_EPOCH = v.epoch % 65536 ∧
      KeepRegs s t [COL_GRP_APPLY g, COL_GRP_STATUS g] ∧ t = (s.setRegs t.regs).setCol t.col) ∧
    (∀ e r b s1, Issues s e 0x40 r b s1 → s1.cstepCodes r b = [] → s1.stepOpen (byteOf b 2) (leAt b 8 8) = true ∨ s1.capMode (byteOf b 2) ≠ 1 →
      ∃ t, exec (.cstep e) s = .next t ∧ Passed s t e 64 r ∧ WithinExchange s t ∧
      t.openStep (eDie e - 10) (byteOf b 2) = some { step := leAt b 8 8, thresh := leAt b 16 4 } ∧ leAt b 8 8 ∉ (t.group (byteOf b 2)).closed ∧
      (∀ n g, stepKey n g ≠ stepKey (eDie e - 10) (byteOf b 2) → t.openStep n g = s.openStep n g) ∧
      KeepRegs s t (COL_CAP_STATUS (byteOf b 2) :: readRegs r.part)) ∧
    (∀ e r b s1 g at1 pa, Issues s e 0x40 r b s1 → s1.cstepCodes r b = [] → g = byteOf b 2 → s1.stepOpen g (leAt b 8 8) = false → s1.capMode g = 1 →
      64 ≤ s1.addr (COL_CAP_SIZE g) F.COL_CAP_SIZE_SIZE_LO F.COL_CAP_SIZE_SIZE_HI → at1 = s1.addr (COL_CAP_ADDR g) F.COL_CAP_ADDR_ADDR_LO F.COL_CAP_ADDR_ADDR_HI →
      s1.translate (r.access e 1) at1 = .ok pa → pa % 64 = 0 → s1.inTransit pa 64 = false → s1.region pa = .hbm →
      ∃ t, exec (.cstep e) s = .next t ∧ (t.group g).cap = { step := leAt b 8 8, mode := 1, opened := true, addr := at1,
                                                             size := (t.group g).cap.size, entries := 0, used := 64 } ∧
      t.openStep (eDie e - 10) g = some { step := leAt b 8 8, thresh := leAt b 16 4 } ∧
      (∀ i, i < 8 → t.byteAt (pa + i) = (leBytes 4 0x50414342 ++ leBytes 2 1 ++ leBytes 1 1 ++ leBytes 1 (s.group g).now.members.length)[i]?.getD 0) ∧
      ∀ a, a < pa ∨ pa + 64 ≤ a → t.byteAt a = s.byteAt a) ∧
    (∀ e r b s1 bs s2 g, Issues s e 0x41 r b s1 → s1.creduceCodes (eDie e - 10) r b = [] → s1.reduceInput (r.access e 0) b = .ok (bs, s2) → g = byteOf b 2 →
      s1.capturing g (leAt b 8 8) 2 = false → ∃ t d, exec (.creduce e) s = .next t ∧ Waits s t e { r with wait := .busy } ∧ WithinExchange s t ∧
      Table.get? t.col.running (eDie e - 10) = some d ∧ d.group = g ∧ d.step = leAt b 8 8 ∧ d.tag = leAt b 44 4 ∧ d.count = leAt b 32 8 ∧ d.outAddr = leAt b 24 8 ∧
      d.inFmt = byteOf b 4 ∧ d.wire = byteOf b 5 ∧ d.outFmt = byteOf b 6 ∧ d.members = (s.group g).now.members ∧
      d.x = schedX (byteOf b 3) (s.group g).now.x (s.group g).now.members.length ∧ d.input = rowCodes (byteOf b 4) (leAt b 32 8) bs ∧
      (∀ n, n ≠ eDie e - 10 → Table.get? t.col.running n = Table.get? s.col.running n) ∧ t.col.inbox = s.col.inbox ∧ KeepRegs s t (readRegs r.part)) ∧
    (∀ g tag step src off data, ∃ t, exec (.coll g tag step src off data) s = .next t ∧ t = (s.setCol t.col).setLnk t.lnk ∧
      (s.col.stopped.contains (g, step, tag) = true → t = s) ∧
      (s.col.stopped.contains (g, step, tag) = false → t.col = { s.col with inbox := s.col.inbox ++ [⟨g, tag, step, src, off, data⟩] } ∧
        ∃ more, t.lnk.out = s.lnk.out ++ more))

/-- CREDUCE_COMPLETE writes the outputs of a CREDUCE that has them all and goes on; EXCH_FAILED, where its data is wanting or its exchange is cut off, marks the step,
counts the failure, keeps late data out and goes on (R225 to R230). -/
def Obligations.ExchangesEnd : Prop :=
  ∀ (s : State) (e : Nat) (r : Run) (d : Reduce), Table.get? s.eng.runs e = some r → r.wait = .busy → Table.get? s.col.running (eDie e - 10) = some d →
    (∀ codes s1, s.fld WCH_TB_STATUS F.WCH_TB_STATUS_STATE ≠ 4 → d.self < d.members.length → s.outputs d = some codes →
      d.flags.testBit 2 = false ∨ s.capturing d.group d.step 1 = false → s.vStore (r.access e 1) d.outAddr (rowBytes d.outFmt codes) = .ok s1 →
      ∃ t x, exec (.creduceComplete e) s = .next t ∧ Passed s t e 128 x ∧ x = { r with pend := x.pend, bad := x.bad } ∧
      (∀ a, t.byteAt a = s1.byteAt a) ∧ t.regs = s1.regs ∧ Table.get? t.col.running (eDie e - 10) = none ∧
      (∀ y ∈ t.col.inbox, y ∈ s.col.inbox ∧ ¬ (y.group = d.group ∧ y.tag = d.tag ∧ y.step = d.step)) ∧
      (∀ o, s.openStep (eDie e - 10) d.group = some o → t.openStep (eDie e - 10) d.group = some (if d.flags.testBit 1 then
        { o with reduced := o.reduced + (codes.filter (nonFinite d.outFmt)).length } else o))) ∧
    (∀ s1, d.group < 4 → s.cutOff d = true ∨ s.outputs d = none →
      foldM (fun s l => s.vStore (r.access e 1) l.1 l.2) (if d.self < d.members.length then s.partOutput d else []) s = .ok s1 →
      ∃ t x, exec (.exchFailed e) s = .next t ∧ Passed s t e 128 x ∧ x = { r with pend := x.pend, bad := x.bad } ∧
      Table.get? t.col.running (eDie e - 10) = none ∧ (d.group, d.step, d.tag) ∈ t.col.stopped ∧ (∀ a, t.byteAt a = s1.byteAt a) ∧
      t.reg (COL_EXCH_FAILED d.group) = BitVec.ofNat 64 (sat64 (s.reg (COL_EXCH_FAILED d.group)).toNat 1) ∧ KeepRegs s1 t [COL_EXCH_FAILED d.group] ∧
      (∀ o, s.openStep (eDie e - 10) d.group = some o → o.step = d.step → t.openStep (eDie e - 10) d.group = some { o with failed := true }))

end

section
open Sys2Proof Sys2Proof.Machine Sys2Proof.Claims

/-- A CBEACON in time freezes its vote, closes the step on every engine and waits in the round with its own bit in KNOWN, and in SKIP where a reason holds;
SUBROUND_OPEN opens the next sub-round and sends the member's message towards every other member; a timely BEACON_MESSAGE is merged and any other counted as dropped;
BEACON_DECIDE commits where every member is in KNOWN and none in SKIP, and skips else; FLIP_TOGGLE toggles what is due (R229, R232 to R241). -/
def Obligations.BeaconRoundsRun : Prop :=
  ∀ (s : State) (g : Nat), g < 4 →
    (∀ e r b s1, Issues s e 0x42 r b s1 → s1.cbeaconCodes e r b = [] → g = byteOf b 2 → bit (byteOf b 1) 1 = false → s1.capturing g (leAt b 8 8) 2 = false →
      s1.granule = 0 → ∃ t x, exec (.cbeacon e) s = .next t ∧ Waits s t e { r with wait := .busy } ∧ WithinExchange s t ∧ (t.group g).round = some x ∧
      x.engine = e ∧ x.step = leAt b 8 8 ∧ x.sub = 0 ∧ x.result = leAt b 24 8 ∧ x.flips = leAt b 32 8 ∧ x.known = 2 ^ (s.group g).now.rank ∧
      x.reason = s1.reasons g (leAt b 8 8) b (combine (s1.openSteps g (leAt b 8 8))) ∧ x.skip = (if x.reason = 0 then 0 else 2 ^ (s.group g).now.rank) ∧
      leAt b 8 8 ∈ (t.group g).closed ∧ t.stepOpen g (leAt b 8 8) = false ∧ (∀ h, h ≠ g → t.group h = s.group h) ∧ KeepRegs s t (readRegs r.part)) ∧
    (∀ x, (s.group g).round = some x → x.sub < x.f + 1 → x.sub * x.sg < 249 → ∃ t, exec (.subroundOpen g) s = .next t ∧
      t.group g = { s.group g with round := some { x with sub := x.sub + 1 } } ∧ (∀ h, h ≠ g → t.group h = s.group h) ∧ 1000 * (1 + x.sub * x.sg) ≤ t.tick ∧
      KeepRegs s t [WCH_TB_STATUS] ∧ t = ((s.setRegs t.regs).setCol t.col).setLnk t.lnk ∧
      (s.fld WCH_TB_STATUS F.WCH_TB_STATUS_STATE ≠ 4 → ∀ m ∈ (s.group g).now.others, ∀ oe rest, s.upPorts (s.rankPkg g m) = oe :: rest →
        ∃ body, (3, body) ∈ (t.port oe).ctrl)) ∧
    (∀ x data, (s.group g).round = some x → s.timely g x data = true → ∃ t y, exec (.beaconMessage g data) s = .next t ∧ (t.group g).round = some y ∧
      y.known = x.known ||| leAt data 32 32 ∧ y.skip = x.skip ||| leAt data 64 32 ∧ y.step = x.step ∧ y.sub = x.sub ∧
      (x.sub = x.f + 1 → y.known ≠ x.known ∨ y.skip ≠ x.skip → y.unstable = true ∧ t.flag (COL_BCN_ALARM g) F.COL_BCN_ALARM_UNSTABLE = true) ∧
      KeepRegs s t (COL_BCN_ALARM g :: reportRegs) ∧ t = ((s.setRegs t.regs).setCol t.col).setLog t.log) ∧
    (∀ data, (∀ x, (s.group g).round = some x → s.timely g x data = false) → ∃ t, exec (.beaconMessage g data) s = .next t ∧
      t.reg (COL_BCN_DROPPED g) = BitVec.ofNat 64 (sat64 (s.reg (COL_BCN_DROPPED g)).toNat 1) ∧ OnlyRegs s t [COL_BCN_DROPPED g]) ∧
    (∀ x r v s0 s2, (s.group g).round = some x → x.sub = x.f + 1 → Table.get? s.eng.runs x.engine = some r → x.capture = false →
      s0 = s.toTick (1000 * (1 + (x.f + 1) * x.sg)) → v = s0.decide' g x → s0.vStore (r.access x.engine 1) x.result (s0.beaconRecord g x v) = .ok s2 →
      ∃ t y, exec (.beaconDecide g) s = .next t ∧ Passed s t x.engine 64 y ∧ y = { r with pend := y.pend, bad := y.bad } ∧ (∀ a, t.byteAt a = s2.byteAt a) ∧
      (v.decision = 1 ↔ (∀ m ∈ (s.group g).now.members, x.known.testBit m = true ∧ x.skip.testBit m = false) ∧
        s.fld WCH_TB_STATUS F.WCH_TB_STATUS_STATE ≠ 4) ∧ (v.decision ≠ 1 → v.decision = 2 ∧ v.flips = 0) ∧
      t.group g = { s.group g with decision := v.decision, decided := x.step, round := none } ∧
      t.fld (COL_BCN_LAST g) F.COL_BCN_LAST_DECISION = v.decision ∧ t.reg (COL_BCN_ROUNDS g) = BitVec.ofNat 64 (sat64 (s.reg (COL_BCN_ROUNDS g)).toNat 1) ∧
      t.col.flips = (if v.flips = 0 then s.col.flips else s.col.flips ++ [(s.watch + 1, v.flips)])) ∧
    (∃ t, exec .flipToggle s = .next t ∧ t.reg COL_FLIP_SEL = (s.col.flips.filter (fun f => f.1 ≤ s.watch)).foldl (fun w f => w ^^^ BitVec.ofNat 64 f.2)
        (s.reg COL_FLIP_SEL) ∧ t.col = { s.col with flips := s.col.flips.filter (fun f => s.watch < f.1) } ∧ KeepRegs s t [COL_FLIP_SEL] ∧
      t = (s.setRegs t.regs).setCol t.col)

end

section
open Sys2Proof Sys2Proof.Machine Sys2Proof.Claims

/-- UAPPLY whose entry, parameters and progress are in order starts its items on the lent engines and waits with what they stage; UAPPLY_COMPLETE writes all of it,
counts the items, and a command without non-finite values adds 1 to its buoy, where that is the partition's (R255 to R257, R265, R267). -/
def Obligations.UpdatesApply : Prop :=
  ∀ (s : State) (e : Nat) (r : Run),
    (∀ b s1 eb s2 pb s3 x p h s4, Issues s e 0x50 r b s1 → s1.uapplyCodes e r b = [] → s1.vRead (r.access e 0) (leAt b 16 8) 128 = .ok (eb, s2) →
      s2.vRead (r.access e 0) (leAt b 24 8) 64 = .ok (pb, s3) → x = tensorOf eb → p = s3.paramsOf e r.part (leAt b 8 8) pb →
      s3.entryCodes r.part eb x = [] → paramCodes pb = [] → engineCodes x (leAt b 4 4) = [] →
      x.rule = 3 ∨ leAt b 32 8 + leAt b 40 4 ≤ (groupsOf x p).foldl (· + ·) 0 →
      (s3.putFld (UPD_SEQ_STATUS (eDie e)) F.UPD_SEQ_STATUS_TENSOR_ID x.id).seedDiffers r.part x p (leAt b 32 8) = false →
      (s3.putFld (UPD_SEQ_STATUS (eDie e)) F.UPD_SEQ_STATUS_TENSOR_ID x.id).progress (r.access e 0) x p (leAt b 32 8) = .ok ((true, h), s4) →
      (∀ l s5, x.rule ≠ 3 →
        ((s4.noteSeed r.part x p (leAt b 32 8)).modRun e (fun r => { r with wait := .busy })).readLive (r.access e 0) x (leAt b 32 8) (leAt b 40 4) = .ok (l, s5) →
        ∀ ws bad s6, s5.stageItems (r.access e 1) x p l ((List.range (leAt b 40 4)).map (leAt b 32 8 + ·)) = .ok ((ws, bad), s6) →
        ∃ t, ∃ y : Run, exec (.uapply e) s = .next t ∧ Waits s t e { y with wait := .busy } ∧ y = { r with pend := y.pend, bad := y.bad } ∧
        Table.get? t.upd.running (eDie e) = some ⟨leAt b 2 2, leAt b 32 8, ws, bad, h⟩ ∧ ws.length = leAt b 40 4 ∧ (x.rule = 0 → t.mem = s.mem ∧ t.coh = s.coh)) ∧
      (x.rule = 3 → ∃ t, exec (.uapply e) s = .next t ∧ Waits s t e { r with wait := .busy } ∧
        Table.get? t.upd.running (eDie e) = some ⟨leAt b 2 2, leAt b 32 8, [], 0, none⟩ ∧ t.mem = s.mem ∧ t.coh = s.coh ∧
        KeepRegs s t (UPD_SEQ_STATUS (eDie e) :: readRegs r.part))) ∧
    (∀ u, eExists e = true → Table.get? s.eng.runs e = some r → Table.get? s.upd.running (eDie e) = some u → r.wait = .busy → eKind e = 5 →
      ∃ t, exec (.uapplyComplete e) s = .next t ∧ Passed s t e 64 r ∧ Table.get? t.upd.running (eDie e) = none ∧
      t.reg (UPD_SEQ_ITEMS (eDie e)) = BitVec.ofNat 64 (sat64 (s.reg (UPD_SEQ_ITEMS (eDie e))).toNat u.items.length) ∧
      t.flag (UPD_SEQ_STATUS (eDie e)) F.UPD_SEQ_STATUS_NONFINITE_LAST = decide (u.nonfinite ≠ 0) ∧
      (∀ k, k < 16384 → t.buoy k = if k = u.buoy ∧ u.nonfinite = 0 ∧ s.ownsBuoy r.part k = true then s.buoy k + 1 else s.buoy k) ∧
      (u.header = none → (∀ a, (∀ p ∈ u.items.flatten, p.1 ≠ a) → t.byteAt a = s.byteAt a) ∧
        ((u.items.flatten.map (·.1)).Nodup → ∀ p ∈ u.items.flatten, (∀ x, x / 64 = p.1 / 64 → s.region x = .hbm) → t.byteAt p.1 = p.2)))

/-- XOPEN opens the exporter's stream with the live sides of the sets it holds, and writes its header where it has room; XSHARD appends shards, none once the stream is torn or
has overflowed; XCLOSE writes the trailer and waits, and STREAM_CLOSE_COMPLETE closes the stream and releases the holds once its bytes are acknowledged; XRELAY
copies a stored stream, unless it would pass the open stream's limit (R270 to R279, R493). -/
def Obligations.ExporterStreamsRun : Prop :=
  ∀ (s : State) (e : Nat) (r : Run),
    (∀ b s1 n, Issues s e 0x58 r b s1 → s1.openCodes e r b = [] → n = eDie e - 10 →
      (leAt b 24 8 < 128 → ∃ t st, exec (.xopen e) s = .next t ∧ Passed s t e 64 r ∧ t.stream? e = some st ∧ st.overflow = true ∧ st.pos = 0 ∧ st.part = r.part ∧
        t.flag (UPD_EXP_STATUS n) F.UPD_EXP_STATUS_OPEN = true ∧ t.mem = s.mem ∧ t.coh = s.coh ∧ KeepRegs s t (UPD_EXP_STATUS n :: readRegs r.part)) ∧
      (128 ≤ leAt b 24 8 → byteOf b 3 = 0 → s1.ethPaused (leAt b 16 2) = false → ∃ t st, exec (.xopen e) s = .next t ∧ Passed s t e 64 r ∧
        t.stream? e = some st ∧ st.overflow = false ∧ st.pos = (s1.streamHeader r b).length ∧ st.limit = leAt b 24 8 ∧
        st.sides = (setBits (leAt b 32 8) 64).map (fun x => (x, s.liveSide x)) ∧ t.flag (UPD_EXP_STATUS n) F.UPD_EXP_STATUS_OPEN = true ∧
        t.mem = s.mem ∧ t.coh = s.coh) ∧
      (∀ pa, 128 ≤ leAt b 24 8 → byteOf b 3 = 1 → s1.translate (r.access e 1) (leAt b 16 8) = .ok pa → pa % 64 = 0 → s1.inTransit pa 64 = false →
        s1.region pa = .hbm → ∃ t st, exec (.xopen e) s = .next t ∧ t.stream? e = some st ∧ st.pos = 64 ∧ st.base = leAt b 16 8 ∧
        st.sides = (setBits (leAt b 32 8) 64).map (fun x => (x, s.liveSide x)) ∧
        (∀ i, i < 64 → t.byteAt (pa + i) = (s1.streamHeader r b)[i]?.getD 0) ∧ ∀ a, a < pa ∨ pa + 64 ≤ a → t.byteAt a = s.byteAt a)) ∧
    (∀ b s1 s2, Issues s e 0x59 r b s1 → s1.shardCodes e r b = [] → s1.shardEntries (r.access e 0) b (List.range (leAt b 4 4)) = .ok (some s2) →
      ∃ t x, exec (.xshard e) s = .next t ∧ Passed s t e 64 x ∧ x = { r with pend := x.pend, bad := x.bad } ∧ t.exp = s2.exp ∧ (∀ a, t.byteAt a = s2.byteAt a) ∧
      (∀ st, s.stream? e = some st → st.torn = true ∨ st.overflow = true → t.exp = s.exp ∧ t.mem = s.mem ∧ t.lnk.handles = s.lnk.handles)) ∧
    (∀ b s1 st, Issues s e 0x5A r b s1 → s.stream? e = some st → st.closing = false → st.part = r.part → zerosAt b 1 63 = true →
      (st.dest = 0 → s1.ethPaused st.handle = false → ∃ t st', exec (.xclose e) s = .next t ∧ Waits s t e { r with wait := .busy } ∧ t.stream? e = some st' ∧
        st' = { st with pos := st.pos + 64, closing := true } ∧ t.mem = s.mem ∧ t.coh = s.coh) ∧
      (∀ pa, st.dest ≠ 0 → s1.translate (r.access e 1) (st.base + st.pos) = .ok pa → (st.base + st.pos) % 64 = 0 → pa % 64 = 0 → s1.inTransit pa 64 = false →
        s1.region pa = .hbm → ∃ t st', exec (.xclose e) s = .next t ∧ t.stream? e = some st' ∧ st'.closing = true ∧ st'.pos = st.pos + 64 ∧
        (∀ i, i < 64 → t.byteAt (pa + i) = (st.trailer (s1.trailerStatus st))[i]?.getD 0) ∧ ∀ a, a < pa ∨ pa + 64 ≤ a → t.byteAt a = s.byteAt a)) ∧
    (∀ st, Table.get? s.eng.runs e = some r → eKind e = 7 → s.stream? e = some st → st.closing = true → r.wait = .busy →
      st.dest ≠ 0 ∨ (∀ h, Table.get? s.lnk.handles st.handle = some h → h.sent = []) →
      ∃ t, exec (.streamCloseComplete e) s = .next t ∧ Passed s t e 64 r ∧ t.stream? e = none ∧
      t.flag (UPD_EXP_STATUS (eDie e - 10)) F.UPD_EXP_STATUS_OPEN = false ∧ KeepRegs s t [UPD_EXP_STATUS (eDie e - 10)] ∧
      t = (((s.setRegs t.regs).setEng t.eng).setExp t.exp).setFree t.free) ∧
    (∀ b s1 n, Issues s e 0x5B r b s1 → s1.relayCodes r b = [] → n = eDie e - 10 →
      (∀ st, s.stream? e = some st → st.limit < leAt b 24 8 + 64 → ∃ t, exec (.xrelay e) s = .next t ∧ Passed s t e 64 r ∧
        t.stream? e = some { st with overflow := true } ∧ t.mem = s.mem ∧ t.coh = s.coh) ∧
      (∀ bs s2, (∀ st, s.stream? e = some st → leAt b 24 8 + 64 ≤ st.limit) → byteOf b 3 = 0 → s1.ethPaused (leAt b 16 2) = false →
        s1.vRead (r.access e 0) (leAt b 8 8) (leAt b 24 8) = .ok (bs, s2) → ∃ t, exec (.xrelay e) s = .next t ∧ Passed s t e 64 r ∧ t.mem = s.mem ∧ t.coh = s.coh ∧
        t.reg (UPD_EXP_BYTES n) = BitVec.ofNat 64 (sat64 (s.reg (UPD_EXP_BYTES n)).toNat (leAt b 24 8)) ∧
        KeepRegs s t (UPD_EXP_BYTES n :: readRegs r.part)) ∧
      (∀ s2, (∀ st, s.stream? e = some st → leAt b 24 8 + 64 ≤ st.limit) → byteOf b 3 ≠ 0 →
        foldM (fun s i => s.relayLine (r.access e 0) b i) (List.range (leAt b 24 8 / 64)) s1 = .ok s2 →
        ∃ t x, exec (.xrelay e) s = .next t ∧ Passed s t e 64 x ∧ x = { r with pend := x.pend, bad := x.bad } ∧ (∀ a, t.byteAt a = s2.byteAt a) ∧
        t.reg (UPD_EXP_BYTES n) = BitVec.ofNat 64 (sat64 (s.reg (UPD_EXP_BYTES n)).toNat (leAt b 24 8))))

end

section
open Sys2Proof Sys2Proof.Machine Sys2Proof.Claims

/-- ALLOC_COMPLETE gives out a zeroed run in the first tier that takes it, or says that the request is bad, over quota or full; FRAME_ZEROED returns a freed frame to the
pool, all zero; FRAME_MOVE_DONE ends a move: the source's data stands at the destination, and the source's frames go to be zeroed; DEMOTION starts the move of a frame down
from a tier over quota, or sets DEMOTE_BLOCKED (R288, R290, R291, R293, R296, R311). -/
def Obligations.FramesComeAndGo : Prop :=
  ∀ (s : State), s.Inv →
    (∀ p q s1, Table.get? s.tiers.allocs p = some q →
      s1 = (s.setTiers { s.tiers with allocs := Table.del s.tiers.allocs p }).clrBit (TMV_ALLOC p) F.TMV_ALLOC_GO →
      (q.ok = false → ∃ t, exec (.allocComplete p) s = .next t ∧ t.reg (TMV_ALLOC_RESULT p) = allocResult 0 4 0 ∧ t.tiers = s1.tiers ∧
        t.flag (TMV_ALLOC p) F.TMV_ALLOC_GO = false ∧ KeepRegs s t [TMV_ALLOC p, TMV_ALLOC_RESULT p] ∧ t.mem = s.mem) ∧
      (∀ quota, q.ok = true → s1.tryTiers p (q.count * q.size) q.size q.tier ((List.range (q.lowest + 1 - q.tier)).map (q.tier + ·)) false = (none, quota) →
        ∃ t, exec (.allocComplete p) s = .next t ∧ t.reg (TMV_ALLOC_RESULT p) = allocResult 0 (if quota then 2 else 3) 0 ∧ t.tiers = s1.tiers ∧
        KeepRegs s t [TMV_ALLOC p, TMV_ALLOC_RESULT p] ∧ t.mem = s.mem) ∧
      (∀ tier base quota, q.ok = true →
        s1.tryTiers p (q.count * q.size) q.size q.tier ((List.range (q.lowest + 1 - q.tier)).map (q.tier + ·)) false = (some (tier, base), quota) →
        ∃ t, exec (.allocComplete p) s = .next t ∧ t.reg (TMV_ALLOC_RESULT p) = allocResult tier 1 base ∧
        (∀ i, i < q.count → ∃ f, Table.get? t.tiers.frames (base + i * q.size) = some f ∧ f.part = p ∧ f.big = q.big ∧ f.movable = q.movable ∧
          f.va = q.va + i * q.size ∧ f.run = s.tiers.nextRun ∧ f.transit = false ∧ f.zeroing = false) ∧
        (∀ b, (∀ i, i < q.count → b ≠ base + i * q.size) → Table.get? t.tiers.frames b = Table.get? s.tiers.frames b) ∧
        (∀ a, base ≤ a → a < base + q.count * q.size → t.byteAt a = 0) ∧ (∀ a, a < base ∨ base + q.count * q.size ≤ a → t.byteAt a = s.byteAt a) ∧
        KeepRegs s t [TMV_ALLOC p, TMV_ALLOC_RESULT p, TMV_PART_STATUS p])) ∧
    (∀ base f, Table.get? s.tiers.frames base = some f → f.zeroing = true → base % 0x10000 = 0 → ∃ t, exec (.frameZeroed base) s = .next t ∧
      Table.get? t.tiers.frames base = none ∧ (∀ b, b ≠ base → Table.get? t.tiers.frames b = Table.get? s.tiers.frames b) ∧
      (∀ a, base ≤ a → a < base + f.size → t.byteAt a = 0) ∧ (∀ a, a < base ∨ base + f.size ≤ a → t.byteAt a = s.byteAt a) ∧ KeepRegs s t []) ∧
    (∀ m p, s.tiers.moves.find? (fun x => x.src = m.src) = some m → p = s.movePart m → (∀ x ∈ s.eng.runs, x.2.fetch = none) →
      (s.regionRaw m.dst).tier ≠ 3 ∨ (s.budgetSpent p = false ∧ s.flashWritable = true) → s.lostAt m.src = false → s.lostAt m.dst = false →
      (∀ x ∈ s.tiers.frames, inRun m.src m.bytes x.1 = true → x.2.freeAfter = false) →
      ∃ t, exec (.frameMoveDone m.src) s = .next t ∧ m ∉ t.tiers.moves ∧ t.adm = s.adm ∧
      (∀ b x, Table.get? s.tiers.frames b = some x → inRun m.src m.bytes b = true → ∃ y, Table.get? t.tiers.frames b = some y ∧ y.zeroing = true ∧
        y.transit = false ∧ y.part = x.part) ∧
      (s.region m.dst = .hbm ∨ s.region m.dst = .hdram → s.flag (MMU_ROOT p) F.MMU_ROOT_EN = false → s.flag (HST_SV57_ROOT p) F.HST_SV57_ROOT_EN = false →
        m.src + m.bytes ≤ m.dst ∨ m.dst + m.bytes ≤ m.src → m.dst % 64 = 0 → m.bytes % 64 = 0 → m.src % 64 = 0 → (∀ c ∈ s.coh, inRun m.src m.bytes c.1 = false) →
        (∀ i, i < m.bytes → t.byteAt (m.dst + i) = s.byteAt (m.src + i)) ∧ (∀ a, a < m.dst ∨ m.dst + m.bytes ≤ a → t.byteAt a = s.byteAt a))) ∧
    (∀ p tier movable, 1 ≤ tier → tier ≤ 4 → s.overQuota p tier = true → movable = s.tiers.frames.filter (fun e => decide (e.2.part = p) && e.2.movable &&
        !e.2.zeroing && decide ((s.regionRaw e.1).tier = tier)) →
      (movable = [] → ∃ t, exec (.demotion p tier) s = .next t ∧ t.flag (TMV_PART_STATUS p) F.TMV_PART_STATUS_DEMOTE_BLOCKED = true ∧
        OnlyRegs s t [TMV_PART_STATUS p]) ∧
      (∀ base f, movable ≠ [] → oldest (movable.filter (fun e => !e.2.transit)) = some (base, f) →
        ((Table.get? s.tiers.demoted p).getD 0) + (s.moveUnit base f).2 ≤ s.demoteRate →
        (∀ s1, s.demoteTo p base f ((List.range (4 - tier)).map (tier + 1 + ·)) = some s1 → ∃ t x, exec (.demotion p tier) s = .next t ∧
          t.tiers.moves = s.tiers.moves ++ [x] ∧ x.engine = none ∧ (x.src, x.bytes) = s.moveUnit base f ∧
          Table.get? t.tiers.demoted p = some ((Table.get? s.tiers.demoted p).getD 0 + x.bytes) ∧ t.mem = s.mem ∧ KeepRegs s t [TMV_PART_STATUS p]) ∧
        (s.demoteTo p base f ((List.range (4 - tier)).map (tier + 1 + ·)) = none → ∃ t, exec (.demotion p tier) s = .next t ∧
          t.flag (TMV_PART_STATUS p) F.TMV_PART_STATUS_DEMOTE_BLOCKED = true ∧ OnlyRegs s t [TMV_PART_STATUS p])))

/-- TMOVE arms its route, starts the move of a frame that is not in its tier, and completes as a HIT where all of its frames are there already; STOP_POINT cuts an ACTIVATION
or SAMPLE fetch short as a MISS and cancels its moves; TIER_LATE reports a late STATE fetch once; ROUTE_SETTLE selects side 1 after any MISS, else side 0, and disarms
the route (R294, R295, R298, R299, R301, R302). -/
def Obligations.FetchesAndRoutesRun : Prop :=
  ∀ (s : State),
    (∀ e r b s1 fs, Issues s e 0x60 r b s1 → s1.moveCodes r b = [] → fs = s1.framesAt r.part (leAt b 8 8) (leAt b 16 8) → s.movesOf e = [] →
      (byteOf b 3 < 2 → (∀ x ∈ fs, (s.regionRaw x.1).tier = byteOf b 2 ∧ s.moving x.1 = false) →
        ∃ t, exec (.tmove e) s = .next t ∧ Passed s t e 64 { r with fetch := none } ∧ (∀ a, t.byteAt a = s.byteAt a) ∧
        ∀ k, k < 16384 → t.buoy k = if k = leAt b 56 2 then s.buoy k + 1 else s.buoy k) ∧
      (2 ≤ byteOf b 3 → 4 ≤ byteOf b 6 → ∃ t arm, exec (.tmove e) s = .next t ∧ Table.get? t.tiers.routes (leAt b 4 2) = some arm ∧
        ∃ x ∈ arm.fetches, x.engine = e ∧ x.step = leAt b 32 8 ∧ x.tag = leAt b 40 8 ∧ x.alt = leAt b 48 8 ∧ x.cls = byteOf b 3) ∧
      (∀ base x s3, byteOf b 3 < 2 → fs = [(base, x)] → Table.get? s.tiers.frames base = some x → (s.regionRaw base).tier ≠ byteOf b 2 → s.lostAt base = false →
        s.moving base = false → x.part = r.part → x.zeroing = false →
        ((s1.modRun e (fun r => { r with wait := .busy, fetch := some (Machine.fetchOf b [base]) })).putFetch e (some (Machine.fetchOf b []))).startMove base
          (byteOf b 2) x (some e) = some s3 →
        ∃ t, exec (.tmove e) s = .next t ∧ t = s3 ∧ (∃ m ∈ t.tiers.moves, m.engine = some e) ∧
        Waits s t e { r with wait := .busy, fetch := some (Machine.fetchOf b []) } ∧ t.mem = s.mem)) ∧
    (∀ e r f, s.fetchOf e = some (r, f) → 2 ≤ f.cls → f.replay = false → r.be = false ∨ f.deadline ≤ s.watch → ∃ t, exec (.stopPoint e) s = .next t ∧
      Passed s t e 64 { r with fetch := none } ∧ (∀ m ∈ t.tiers.moves, m.engine ≠ some e) ∧
      (∀ n arm, Table.get? t.tiers.routes n = some arm → ∀ x ∈ arm.fetches, x.engine = e → x.outcome ≠ 0)) ∧
    (∀ e r f, s.fetchOf e = some (r, f) → f.cls = 1 → f.late = false → f.deadline ≤ s.watch → ∃ t, exec (.tierLate e) s = .next t ∧
      Waits s t e { r with fetch := some { f with late := true } } ∧ t.flag TMV_ALARM F.TMV_ALARM_TIER_LATE = true ∧
      t.reg TMV_LATE = BitVec.ofNat 64 (sat64 (s.reg TMV_LATE).toNat 1) ∧ KeepRegs s t (TMV_ALARM :: TMV_LATE :: reportRegs) ∧
      t = ((s.setRegs t.regs).setEng t.eng).setLog t.log) ∧
    (∀ n arm, n < 256 → Table.get? s.tiers.routes n = some arm → arm.deadline ≤ s.watch → ∃ t, exec (.routeSettle n) s = .next t ∧
      Table.get? t.tiers.routes n = none ∧ (∀ k, k ≠ n → Table.get? t.tiers.routes k = Table.get? s.tiers.routes k) ∧
      ((∀ x ∈ arm.fetches, x.outcome = 1) → t.routeSide n = 0 ∧ (∀ k, k < 256 → k ≠ n → t.routeSide k = s.routeSide k) ∧ t.mem = s.mem ∧
        KeepRegs s t [TMV_ROUTE_SEL (n / 64)]) ∧
      (∀ x ∈ arm.fetches, x.outcome ≠ 1 → t.routeSide n = 1))

end

namespace Sys2Proof.Claims
open Sys2Proof.Machine

/-- The registers that programming flash may change, beside those of reports (R336 to R339). -/
def flashRegs : List Nat := [DFT_STATUS, DFT_NAND_WR, DFT_LIFE, DFT_ALARM] ++ reportRegs

/-- A register counts by n, saturating (R14). -/
def Counts (s t : State) (k n : Nat) : Prop := t.reg k = BitVec.ofNat 64 (sat64 (s.reg k).toNat n)

/-- Memory, cached copies and poison are as before. -/
def SameData (s t : State) : Prop := t.mem = s.mem ∧ t.coh = s.coh ∧ t.poison = s.poison ∧ t.sram = s.sram

end Sys2Proof.Claims

section
open Sys2Proof Sys2Proof.Machine Sys2Proof.Claims

/-- STRIPE_CLOSE programs a partial stripe two watches after its first write, WRITE_CACHE_ROOM programs a full stripe with its fifteen pages, and DURABLE_ADVANCE makes the
next watch that is over durable once every stripe with its writes is programmed, and tells the durability buoys; none of them happens after a power-fail warning.
READ_LIMIT_RELOCATE and FLASH_PATROL start relocations, RELOCATION_DONE frees the block; FLASH_STACK_LOST marks a stack LOST and the tier degraded, STACK_REBUILD_DONE
marks it rebuilt. None of them changes data (R320, R322, R323, R325 to R328, R336, R341, R342). -/
def Obligations.FlashTierWorks : Prop :=
  (∀ (s : State),
    (s.flash.stripe ≠ 0 → s.flash.stripeWatch + 2 ≤ s.watch → s.log.final = false → ∃ t, exec .stripeClose s = .next t ∧ t.flash.stripe = 0 ∧
      t.flash.full = s.flash.full ∧ t.flash.cache = s.flash.cache - s.flash.stripe ∧ Counts s t DFT_NAND_WR (ceilDiv s.flash.stripe 16384 * 16384) ∧
      KeepRegs s t flashRegs ∧ SameData s t) ∧
    (s.flash.full ≠ 0 → s.log.final = false → ∃ t, exec .writeCacheRoom s = .next t ∧ t.flash.full = s.flash.full - 1 ∧ t.flash.stripe = s.flash.stripe ∧
      t.flash.cache = s.flash.cache - stripeBytes ∧ Counts s t DFT_NAND_WR (15 * 16384) ∧ KeepRegs s t flashRegs ∧ SameData s t) ∧
    (s.durable + 1 < s.watch → s.flash.stripe = 0 ∨ s.durable + 1 < s.flash.stripeWatch → s.log.final = false → ∃ t, exec .durableAdvance s = .next t ∧
      t.durable = s.durable + 1 ∧ t.flash.full = 0 ∧ (∀ a, a ∈ t.flash.accepted ↔ a ∈ s.flash.accepted ∧ s.durable + 1 < a.watch) ∧ SameData s t ∧
      (∀ d ∈ s.boot.chart.parts, s.flag (DFT_DUR_BUOY d.num) F.DFT_DUR_BUOY_EN = true → s.ownsBuoy d.num (s.fld (DFT_DUR_BUOY d.num) F.DFT_DUR_BUOY_BUOY) = true →
        t.buoy (s.fld (DFT_DUR_BUOY d.num) F.DFT_DUR_BUOY_BUOY) = BitVec.ofNat 64 (s.durable + 2)) ∧
      (∀ b, b < 16384 → (∀ d ∈ s.boot.chart.parts, s.flag (DFT_DUR_BUOY d.num) F.DFT_DUR_BUOY_EN = true → b ≠ s.fld (DFT_DUR_BUOY d.num) F.DFT_DUR_BUOY_BUOY) →
        t.buoy b = s.buoy b)) ∧
    (s.log.final = true → exec .stripeClose s = .next s ∧ exec .writeCacheRoom s = .next s ∧ exec .durableAdvance s = .next s)) ∧
  (∀ (s : State) (block f : Nat) (weak : Bool),
    (∃ t, exec (.readLimitRelocate block) s = .next t ∧ t = s.setFlash t.flash ∧ t.flash = { s.flash with relocating := t.flash.relocating } ∧
      (block ∈ t.flash.relocating ↔ block ∈ s.flash.relocating ∨ s.readLimit ≤ (Table.get? s.flash.reads block).getD 0)) ∧
    (∃ t, exec (.flashPatrol block weak) s = .next t ∧ t = s.setFlash t.flash ∧
      Table.get? t.flash.reads block = some ((Table.get? s.flash.reads block).getD 0 + 1) ∧
      (block ∈ t.flash.relocating ↔ block ∈ s.flash.relocating ∨ weak = true) ∧
      ∀ b, b ≠ block → Table.get? t.flash.reads b = Table.get? s.flash.reads b ∧ (b ∈ t.flash.relocating ↔ b ∈ s.flash.relocating)) ∧
    (block ∈ s.flash.relocating → ∃ t, exec (.relocationDone block) s = .next t ∧ block ∉ t.flash.relocating ∧ Table.get? t.flash.reads block = none ∧
      (∀ b, b ≠ block → Table.get? t.flash.reads b = Table.get? s.flash.reads b ∧ (b ∈ t.flash.relocating ↔ b ∈ s.flash.relocating)) ∧
      (∃ pages, Counts s t DFT_NAND_WR (pages * 16384) ∧ Counts s t DFT_RELOC (pages * 16384)) ∧ KeepRegs s t (DFT_RELOC :: flashRegs) ∧ SameData s t) ∧
    (f < 16 → s.fld (DFT_STACK f) F.DFT_STACK_STATE = 0 → ∃ t, exec (.flashStackLost f) s = .next t ∧ t.fld (DFT_STACK f) F.DFT_STACK_STATE = 1 ∧
      t.fld (DFT_STACK f) F.DFT_STACK_REBUILD_PCT = 0 ∧ t.flag DFT_STATUS F.DFT_STATUS_DEGRADED = true ∧
      t.flag DFT_ALARM F.DFT_ALARM_FLASH_STACK_LOST = true ∧ (1 ∈ s.otherStacks f → t.flash.double.isSome = true ∧ t.flash.clean = []) ∧
      (1 ∉ s.otherStacks f → t.flash = s.flash) ∧
      t.flag DFT_STATUS F.DFT_STATUS_READ_ONLY = (s.flag DFT_STATUS F.DFT_STATUS_READ_ONLY || decide (2 ∈ s.otherStacks f)) ∧
      KeepRegs s t ([DFT_STACK f, DFT_STATUS, DFT_ALARM] ++ reportRegs) ∧ SameData s t) ∧
    (f < 16 → s.fld (DFT_STACK f) F.DFT_STACK_STATE = 1 → ∃ t, exec (.stackRebuildDone f) s = .next t ∧ t.fld (DFT_STACK f) F.DFT_STACK_STATE = 2 ∧
      t.fld (DFT_STACK f) F.DFT_STACK_REBUILD_PCT = 100 ∧ (1 ∉ s.otherStacks f → t.flag DFT_STATUS F.DFT_STATUS_DEGRADED = false) ∧
      (1 ∈ s.otherStacks f → t.flag DFT_STATUS F.DFT_STATUS_DEGRADED = s.flag DFT_STATUS F.DFT_STATUS_DEGRADED) ∧
      (∃ pages, Counts s t DFT_NAND_WR (pages * 16384)) ∧ KeepRegs s t (DFT_STACK f :: flashRegs) ∧ SameData s t))

end

namespace Sys2Proof.Claims
open Sys2Proof.Machine

/-- The registers of HBM stack n that a scrub may change, beside those of reports. -/
def scrubRegs (n : Nat) : List Nat :=
  [HBM_RD_BYTES n, HBM_WR_BYTES n, HBM_STATUS n, HBM_CE n, HBM_UE n, HBM_ERR_LAST n, HBM_ALARM n, HBM_REPAIR n] ++ reportRegs

/-- Does a leaf grant an access of a kind (R371)? -/
def grants (l : Leaf) (acc : Nat) : Bool := if acc = 1 then l.w else if acc = 2 then l.a else l.r

/-- The translation that a walk installs (R369, R374). -/
def installed (w : Walk) (l : Leaf) : TlbEntry :=
  ⟨w.die, w.part, w.va - w.va % l.size, l.size, l.pa0, l.pa1, l.sided, l.set, l.r, l.w, l.a, l.pinned, false⟩

end Sys2Proof.Claims

section
open Sys2Proof Sys2Proof.Machine Sys2Proof.Claims

/-- HBM_BAND_START begins a stack's counts anew with the LC budget of the settings; HBM_QUEUE_ADMIT takes MAINT within three per cent of the stack's share, LC within its budget
and GR always, and any other request only where the band has room, else it waits; HBM_REFRESH doubles the refresh rate at 85 degrees. HBM_SCRUB reads a granule as MAINT
traffic: a corrected error is counted and recorded, one that cannot be corrected poisons its granule and raises HBM_UNCORRECTABLE (R346 to R348, R352, R353, R356,
R357, R362, R363). -/
def Obligations.HbmControllersWork : Prop :=
  (∀ (s : State) (n cls : Nat) (write : Bool) (addr bytes temp : Nat) (x : HbmStack) (b : Nat), n < 16 → x = s.stack n → b = transferred addr bytes →
    (∃ t, exec (.hbmBandStart n) s = .next t ∧ t.stack n = { x with maint := 0, lc := 0, gr := 0, be := 0, budget := s.lcBudget n } ∧
      (∀ m, m ≠ n → t.stack m = s.stack m) ∧ t = s.setHbm t.hbm) ∧
    (∃ t, exec (.hbmQueueAdmit n cls write addr bytes) s = .next t ∧ (∀ m, m ≠ n → t.stack m = s.stack m) ∧
      t = ((s.setRegs t.regs).setHbm t.hbm).setFree t.free ∧ KeepRegs s t [HBM_LC_BYTES n] ∧
      (cls = 0 → x.maint + b ≤ s.stackShare * 3 / 100 →
        t.stack n = { x with maint := x.maint + b, waiting := x.waiting.erase (cls, write, addr, bytes) }) ∧
      (cls = 2 → t.stack n = { x with gr := x.gr + b, waiting := x.waiting.erase (cls, write, addr, bytes) }) ∧
      (cls = 1 → x.lc + b ≤ x.budget → t.stack n = { x with lc := x.lc + b, waiting := x.waiting.erase (cls, write, addr, bytes) } ∧
        Counts s t (HBM_LC_BYTES n) b) ∧
      ((cls = 0 ∧ s.stackShare * 3 / 100 < x.maint + b) ∨
          (((cls = 1 ∧ x.budget < x.lc + b) ∨ 3 ≤ cls) ∧ s.stackShare < x.maint + x.lc + x.gr + x.be + b) →
        t.stack n = { x with waiting := x.waiting.erase (cls, write, addr, bytes) ++ [(cls, write, addr, bytes)] } ∧ t.regs = s.regs)) ∧
    (temp < 256 → ∃ t, exec (.hbmRefresh n temp) s = .next t ∧ t.fld (HBM_STATUS n) F.HBM_STATUS_TEMP_C = temp ∧ OnlyRegs s t [HBM_STATUS n] ∧
      t.flag (HBM_STATUS n) F.HBM_STATUS_REFRESH_2X = (decide (85 ≤ temp) || decide (s.xfld (HBM_X_TUNE n) F.HBM_X_TUNE_REFRESH_2X = 1)))) ∧
  (∀ (s : State) (n off : Nat) (ecc : Ecc), n < 16 → off < hbmBytes / 16 → ∃ t, exec (.hbmScrub n off ecc) s = .next t ∧ t.mem = s.mem ∧ t.coh = s.coh ∧
    KeepRegs s t (scrubRegs n) ∧ Counts s t (HBM_RD_BYTES n) 32 ∧ (t.stack n).maint = (s.stack n).maint + 32 ∧
    (t.stack n).scrubbed = ((s.stack n).scrubbed + 1) % stackGranules ∧ (∀ m, m ≠ n → t.stack m = s.stack m) ∧
    ((s.stack n).scrubbed + 1 = stackGranules → (t.stack n).rows = []) ∧
    (ecc = .clean → t.poison = s.poison ∧ t.log = s.log ∧ KeepRegs s t [HBM_RD_BYTES n, HBM_STATUS n] ∧ (t.stack n).repair = (s.stack n).repair) ∧
    (ecc = .correctable → t.poison = s.poison ∧ Counts s t (HBM_CE n) 1 ∧ t.reg (HBM_ERR_LAST n) = hbmRecord (off - off % 32) 3 18) ∧
    (ecc = .uncorrectable → Counts s t (HBM_UE n) 1 ∧ t.reg (HBM_ERR_LAST n) = hbmRecord (off - off % 32) 2 18 ∧
      t.flag (HBM_ALARM n) F.HBM_ALARM_HBM_UNCORRECTABLE = true ∧
      hbmAddress n (off - off % 32) - hbmAddress n (off - off % 32) % 32 ∈ t.poison ∧ ∀ g ∈ s.poison, g ∈ t.poison))

/-- A miss in the TLB of an engine's die is counted and takes a walker, where one is left for its class, else it waits. WALK_COMPLETE installs the translation found, or ends a
guaranteed slot whose access the walk does not serve; INVALIDATE_COMPLETE leaves no entry that its invalidation covers (R371, R373, R374, R380, R381, R383). -/
def Obligations.TranslationsMissAndArrive : Prop :=
  ∀ (s : State),
    (∀ e va acc r w, Table.get? s.eng.runs e = some r → w = Walk.mk (walkDie e) e r.part va acc (!r.be) →
      (s.mmu.tlb.any (fun t => decide (t.die = walkDie e ∧ t.part = r.part ∧ t.va ≤ va ∧ va < t.va + t.size)) = true → exec (.tlbMiss e va acc) s = .next s) ∧
      (s.mmu.tlb.any (fun t => decide (t.die = walkDie e ∧ t.part = r.part ∧ t.va ≤ va ∧ va < t.va + t.size)) = false → ∃ t, exec (.tlbMiss e va acc) s = .next t ∧
        Counts s t (MMU_TLB_MISSES (walkDie e)) 1 ∧ t.mmu.tlb = s.mmu.tlb ∧ t = (s.setRegs t.regs).setMmu t.mmu ∧
        KeepRegs s t [MMU_TLB_MISSES (walkDie e), MMU_WALKS (walkDie e), MMU_WLK_STATUS (walkDie e)] ∧
        (s.walkerFree w = true → t.mmu.walks = s.mmu.walks ++ [(s.mmu.nextWalk, w)] ∧ t.mmu.waiting = s.mmu.waiting ∧ Counts s t (MMU_WALKS (walkDie e)) 1 ∧
          t.fld (MMU_WLK_STATUS (walkDie e)) F.MMU_WLK_STATUS_BUSY = (s.walksOn (walkDie e)).length + 1) ∧
        (s.walkerFree w = false → t.mmu.walks = s.mmu.walks ∧ t.mmu.waiting = s.mmu.waiting ++ [w]))) ∧
    (∀ k w, Table.get? s.mmu.walks k = some w → k < s.mmu.nextWalk →
      (∀ l, s.walk w.part w.va = .ok l → grants l w.acc = true → (w.guaranteed = true → l.pinned = true) → ∃ t, exec (.walkComplete k) s = .next t ∧
        Table.get? t.mmu.walks k = none ∧ installed w l ∈ t.mmu.tlb ∧ (∀ x ∈ t.mmu.tlb, x = installed w l ∨ x ∈ s.mmu.tlb) ∧
        t.eng = s.eng ∧ t.mem = s.mem ∧ t.adm = s.adm) ∧
      (∀ r, Table.get? s.eng.runs w.engine = some r → r.part = w.part → r.be = false →
        ((∀ l, s.walk w.part w.va ≠ .ok l) ∨ ∃ l, s.walk w.part w.va = .ok l ∧ (grants l w.acc = false ∨ (w.guaranteed = true ∧ l.pinned = false))) →
        ∃ t, exec (.walkComplete k) s = .next t ∧ Table.get? t.eng.runs w.engine = none)) ∧
    (∀ p x, Table.get? s.mmu.inv p = some x → ∃ t, exec (.invalidateComplete p) s = .next t ∧ Table.get? t.mmu.inv p = none ∧
      (∀ y, y ∈ t.mmu.tlb ↔ y ∈ s.mmu.tlb ∧ ¬(y.part = p ∧ y.old = true)) ∧ t.flag (MMU_INV p) F.MMU_INV_GO = false ∧
      t = (s.setRegs t.regs).setMmu t.mmu ∧ KeepRegs s t [MMU_INV p])

end

section
open Sys2Proof Sys2Proof.Machine Sys2Proof.Claims

/-- The requests to the home of a line of memory do what the protocol says: RD_SHARED adds its requester as a holder, RD_ONCE changes no holder, and both answer the line's data or
ask its owner; RD_UNIQUE and UPGRADE give the line to their requester in M with its bytes stored; WR_LINE writes memory and leaves no holder; WRITEBACK writes the owner's data
to memory and EVICT removes a clean holder; FORWARD_ANSWER serves the oldest forward, and COH_TIMEOUT poisons the line whose owner is silent (R396 to R398). -/
def Obligations.CoherenceProtocolWorks : Prop :=
  ∀ (s : State) (a : Agent) (pa at0 : Nat) (l : Line), at0 = pa - pa % 64 → l = s.line at0 →
    ((s.region pa).isMemory = true → ∀ ecc,
      (∀ o, l.owner = some o → o ≠ a → ∃ t, exec (.rdShared a pa ecc) s = .next t ∧ t = s.setCoh t.coh ∧
        t.line at0 = { l with forwards := l.forwards ++ [{ owner := o, requester := a, kind := .shared }] } ∧ (∀ x, x ≠ at0 → t.line x = s.line x)) ∧
      (∀ o, l.owner = some o → ∃ t, exec (.rdOnce a pa ecc) s = .next t ∧ t = s.setCoh t.coh ∧
        t.line at0 = { l with forwards := l.forwards ++ [{ owner := o, requester := a, kind := .once }] } ∧ (∀ x, x ≠ at0 → t.line x = s.line x)) ∧
      (l.owner = some a → ∃ t, exec (.rdShared a pa ecc) s = .next t ∧ t.coh = s.coh ∧ t.mem = s.mem ∧ t.resp = answer (s.lineData at0) pa) ∧
      (l.owner = none → ∃ t, exec (.rdShared a pa ecc) s = .next t ∧ t.mem = s.mem ∧ t.resp = answer (s.memLine at0) pa ∧ (∀ x, x ≠ at0 → t.line x = s.line x) ∧
        (caches a = false → t.coh = s.coh) ∧ (caches a = true → l.sharers = [] → t.line at0 = { l with owner := some a }) ∧
        (caches a = true → l.sharers ≠ [] → a ∉ l.sharers → t.line at0 = { l with sharers := l.sharers ++ [a] })) ∧
      (l.owner = none → ∃ t, exec (.rdOnce a pa ecc) s = .next t ∧ t.mem = s.mem ∧ t.coh = s.coh ∧ t.resp = answer (s.memLine at0) pa)) ∧
    ((s.region pa).isMemory = true → caches a = true → ∀ c off bs, off < 64 → bs.length ≤ 64 - off → c = Instr.rdUnique a pa bs off ∨ c = Instr.upgrade a pa bs off →
      ∃ t, exec c s = .next t ∧ t.mem = s.mem ∧ (t.line at0).owner = some a ∧ (t.line at0).dirty = true ∧ (t.line at0).sharers = [] ∧
      (∀ i, i < bs.length → t.byteAt (at0 + off + i) = bs[i]?.getD 0) ∧ (∀ x, x < at0 + off ∨ at0 + off + bs.length ≤ x → t.byteAt x = s.byteAt x) ∧
      (∀ o, l.owner = some o → o ≠ a → (t.line at0).forwards = l.forwards ++ [{ owner := o, requester := a, kind := .unique, off := off, store := bs }]) ∧
      (l.owner = none ∨ l.owner = some a → (t.line at0).forwards = l.forwards)) ∧
    ((s.region pa).isMemory = true → s.region at0 = .hbm ∨ s.region at0 = .hdram → ∀ bs : List Byte, bs.length = 64 →
      (∀ poisoned, ∃ t, exec (.wrLine a pa bs poisoned) s = .next t ∧ (∀ i, i < 64 → t.byteAt (at0 + i) = bs[i]?.getD 0) ∧
        (∀ x, x < at0 ∨ at0 + 64 ≤ x → t.byteAt x = s.byteAt x) ∧ (t.line at0).owner = none ∧ (t.line at0).sharers = [] ∧
        (∀ o, l.owner = some o → o ≠ a → (t.line at0).forwards = l.forwards ++ [{ owner := o, requester := a, kind := .writeLine }])) ∧
      (l.owner = some a → a ∉ l.silent → ∃ t, exec (.writeback a pa bs) s = .next t ∧ (∀ i, i < 64 → t.byteAt (at0 + i) = bs[i]?.getD 0) ∧
        (∀ x, x < at0 ∨ at0 + 64 ≤ x → t.byteAt x = s.byteAt x) ∧ (t.line at0).owner = none ∧ (t.line at0).sharers = l.sharers)) ∧
    ((s.region pa).isMemory = true → a ∈ l.silent → ∀ bs, ∃ t, exec (.writeback a pa bs) s = .next t ∧ t = s.setCoh t.coh ∧ t.line at0 = { l with silent := l.silent.erase a }) ∧
    (∃ t, exec (.evict a pa) s = .next t ∧ t = s.setCoh t.coh ∧ (t.line at0).owner ≠ some a ∧ (l.owner ≠ some a → a ∉ (t.line at0).sharers) ∧
      (∀ b, b ≠ a → (b ∈ (t.line at0).sharers ↔ b ∈ l.sharers)) ∧ (∀ x, x ≠ at0 → t.line x = s.line x)) ∧
    (∀ f rest d, l.forwards = f :: rest → d.length = 64 → ∃ t, exec (.forwardAnswer pa (some d)) s = .next t ∧ t.mem = s.mem ∧ (t.line at0).forwards = rest ∧
      (∀ x, x ≠ at0 → t.line x = s.line x) ∧
      (f.kind = .shared → l.owner = some f.owner → l.dirty = true ∨ d ≠ s.memLine at0 → (t.line at0).owner = some f.owner ∧ (t.line at0).data = some d ∧
        (caches f.requester = true → f.requester ∈ (t.line at0).sharers)) ∧
      (f.kind = .shared → l.owner = some f.owner → l.dirty = false → d = s.memLine at0 → (t.line at0).owner = none ∧ f.owner ∈ (t.line at0).sharers) ∧
      (f.kind = .unique → l.owner.isSome = true → (t.line at0).owner = l.owner ∧ (t.line at0).data = some (storesOver d (f :: rest))) ∧
      (f.kind = .shared ∨ f.kind = .once → t.resp = answer d at0)) ∧
    (∀ f rest, l.forwards = f :: rest → ∃ t, exec (.cohTimeout pa) s = .next t ∧ t.mem = s.mem ∧ t.line at0 = { silent := l.silent ++ [f.owner] } ∧
      (∀ i, i < 64 → t.isPoisoned (at0 + i) = true) ∧ (∀ x, x ≠ at0 → t.line x = s.line x) ∧ Counts s t COH_TIMEOUTS 1 ∧
      t.flag COH_ALARM F.COH_ALARM_COH_TIMEOUT = true ∧ t.fld COH_TO_LAST F.COH_TO_LAST_DIE = agentDie f.owner % 32)

end

section
open Sys2Proof Sys2Proof.Machine Sys2Proof.Claims

/-- An inbound request that a region entry accepts reads or writes device memory, or applies its AtomicOp, at the address its entry and the Compass give; one that nothing accepts
is counted, a read of it answered with zeros. Fence reads discard what was fetched ahead and complete in order; relays and outbound accesses pass on as bus accesses;
a read outstanding ends with its data, or with poison on a timeout or an error; a region invalidation and an epoch tick drop what they must (R389, R401 to R412). -/
def Obligations.PciePortsWork : Prop :=
  ∀ (s : State) (port addr len : Nat) (kind : PcieKind) (data : List Byte), port < 8 →
    (addr.testBit 63 = false → s.inFence port addr = true → kind = .write → exec (.pcieInboundRequest port kind addr len data) s = .next s) ∧
    (∀ c, c = Instr.fenceRead port ∨ (c = Instr.pcieInboundRequest port kind addr len data ∧ addr.testBit 63 = false ∧ s.inFence port addr = true ∧ kind = .read) →
      ∃ t, exec c s = .next t ∧ t = s.setPcie t.pcie ∧ t.pcie.fences = s.pcie.fences ++ [port] ∧ (∀ x, x ∈ t.pcie.ahead ↔ x ∈ s.pcie.ahead ∧ x.1 ≠ port) ∧
      t.pcie = { s.pcie with fences := t.pcie.fences, ahead := t.pcie.ahead }) ∧
    (port ∈ s.pcie.fences → ∃ t, exec (.fenceReadComplete port) s = .next t ∧ t.pcie = { s.pcie with fences := s.pcie.fences.erase port } ∧ t.resp = 0 ∧
      t = (s.setPcie t.pcie).setResp t.resp) ∧
    (∀ c, addr.testBit 63 = false → c = Instr.pcieRelay port kind addr len data ∨ (c = Instr.pcieInboundRequest port kind addr len data ∧ s.inFence port addr = false) →
      (∀ q, s.rangePort addr = some q → (s.fld (HST_PORT_CFG port) F.HST_PORT_CFG_RELAY).testBit q = true → ∃ t, exec c s = .next t ∧ t = s.setPcie t.pcie ∧
        (kind = .write → t.pcie = { s.pcie with posted := (q, addr, data) :: s.pcie.posted }) ∧
        (kind ≠ .write → t.pcie = { s.pcie with reads := s.pcie.reads ++ [⟨q, s.pcie.nextTag, .port port, addr, len⟩], nextTag := s.pcie.nextTag + 1 })) ∧
      ((∀ q, s.rangePort addr = some q → (s.fld (HST_PORT_CFG port) F.HST_PORT_CFG_RELAY).testBit q = false) → ∃ t, exec c s = .next t ∧
        Counts s t (HST_PORT_VIOL port) 1 ∧ KeepRegs s t [HST_PORT_VIOL port] ∧ t.mem = s.mem ∧ (kind = .write → t.pcie = s.pcie) ∧
        (kind ≠ .write → t.pcie = { s.pcie with done := (port, false, List.replicate len 0) :: s.pcie.done }))) ∧
    (∀ s1, addr.testBit 63 = true → s.regionEntry (bits addr 62 31 % 65536) = (s1, none) → ∃ t, exec (.pcieInboundRequest port kind addr len data) s = .next t ∧
      Counts s1 t (HST_PORT_VIOL port) 1 ∧ t.mem = s.mem ∧ t.coh = s.coh) ∧
    (∀ s1 r n pa, addr.testBit 63 = true → s.regionEntry (bits addr 62 31 % 65536) = (s1, some r) → n = requestBytes kind len data →
      r.accepts (bits addr 62 31) (bits addr 30 0) n (kindAcc kind) = true → r.ports.testBit port = true → atomicShape kind (bits addr 30 0) n = true →
      r.flags.testBit 4 = false → s1.regionPieces r (4 * (port / 4)) (bits addr 30 0) n (kindAcc kind) = some [(pa, n)] → 0 < n → pa % 64 + n ≤ 64 → s1.region pa = .hbm →
      ∃ t, exec (.pcieInboundRequest port kind addr len data) s = .next t ∧ (∀ x, x < pa ∨ pa + n ≤ x → t.byteAt x = s.byteAt x) ∧
      (kind = .write → (∀ i, i < n → t.byteAt (pa + i) = data[i]?.getD 0) ∧ t.pcie.done = s.pcie.done) ∧
      (kind = .read → s.aheadOf port = [] → (∀ i, i < n → t.byteAt (pa + i) = s.byteAt (pa + i)) ∧
        ∃ bad, t.pcie.done = (port, bad, (List.range n).map (fun i => s.byteAt (pa + i))) :: s.pcie.done) ∧
      (kindAcc kind = 2 → ∀ old, old = (List.range n).map (fun i => s.byteAt (pa + i)) →
        (∀ i, i < n → t.byteAt (pa + i) = (leBytes n (atomicNew kind n (leNat old) data))[i]?.getD 0) ∧ ∃ bad, t.pcie.done = (port, bad, old) :: s.pcie.done)) ∧
    (∀ a q, s.region addr = .pcie q →
      (∃ t, exec (.outboundWindowAccess a addr true data) s = .next t ∧ t = s.setPcie { s.pcie with posted := (q, s.busAddr q addr, data) :: s.pcie.posted }) ∧
      (∃ t, exec (.outboundWindowAccess a addr false data) s = .next t ∧
        t = s.setPcie { s.pcie with reads := s.pcie.reads ++ [⟨q, s.pcie.nextTag, a, s.busAddr q addr, 8⟩], nextTag := s.pcie.nextTag + 1 })) ∧
    (∀ tag r, s.outstanding port tag = some r →
      (∃ t, exec (.outboundReadCompletion port tag true data) s = .next t ∧ t.pcie.reads = s.pcie.reads.erase r ∧ t.resp = BitVec.ofNat 64 (leAt data 0 8) ∧
        (∀ q, r.agent = .port q → t.pcie.done = (q, false, data) :: s.pcie.done) ∧ t = (s.setPcie t.pcie).setResp t.resp) ∧
      (∀ c, c = Instr.pcieReadTimeout port tag ∨ c = Instr.outboundReadCompletion port tag false data → ∃ t, exec c s = .next t ∧
        t.pcie.reads = s.pcie.reads.erase r ∧ Counts s t (HST_PORT_POISON port) 1 ∧ t.mem = s.mem ∧
        (∀ h, r.agent = .hart h → Counts s t COH_POISON_USED 1) ∧ ∀ q, r.agent = .port q → t.pcie.done = (q, true, List.replicate r.len 0) :: s.pcie.done)) ∧
    (∀ hart eiid, exec (.downstreamMsi port hart eiid) s = .next (s.setPcie { s.pcie with msis := (hart, eiid) :: s.pcie.msis })) ∧
    (∀ e, s.pcie.inv = some e → ∃ t, exec .regionInvComplete s = .next t ∧ t.pcie.inv = none ∧ (e = 65536 → t.pcie.regions = []) ∧
      (e ≠ 65536 → Table.get? t.pcie.regions e = none ∧ ∀ k, k ≠ e → Table.get? t.pcie.regions k = Table.get? s.pcie.regions k) ∧
      t.flag HST_REGION_INV F.HST_REGION_INV_GO = false ∧ t = (s.setRegs t.regs).setPcie t.pcie ∧ KeepRegs s t [HST_REGION_INV]) ∧
    (∃ t, exec .epochTick s = .next t ∧ Counts s t HST_VIS_EPOCH 1 ∧ KeepRegs s t [HST_VIS_EPOCH] ∧ t = ((s.setRegs t.regs).setLnk t.lnk).setFree t.free ∧
      (∀ n, n < 4 → s.applied n ≤ t.applied n ∧ (t.reg HST_VIS_EPOCH).toNat ≤ t.applied n + 2 ∧ t.applied n ≤ max (s.applied n) (t.reg HST_VIS_EPOCH).toNat) ∧
      ∀ x, x.1 < 4 → (x ∈ t.lnk.ahead ↔ x ∈ s.lnk.ahead ∧ t.applied x.1 ≤ x.2.1))

end

section
open Sys2Proof Sys2Proof.Machine Sys2Proof.Claims

/-- IOPEN copies its source table, its profile and the partition's seed into a FREE context; IRUN runs the draw, which waits for its samples, and completes at once on a DONE
context; IRUN_BUDGET_EXPIRE completes it early; ICLOSE frees the context; SAMPLE_FINISH writes the outputs of a sample and its header into the slot, counts it, and
completes the IRUN with the last one (R424 to R431, R442, R449). -/
def Obligations.IntakeDrawsRun : Prop :=
  ∀ (s : State) (e : Nat) (r : Run), eExists e = true → eKind e = 13 →
    (∀ b s1 h s2 ct s3 pt s4 d, Issues s e 0x70 r b s1 → s1.iopenCodes e r b = [] → s1.vRead (r.access e 0) (leAt b 32 8) 64 = .ok (h, s2) →
      1 ≤ leAt h 12 4 → leAt h 12 4 ≤ 4096 → 1 ≤ byteOf h 8 → byteOf h 8 ≤ 8 → s2.vRead (r.access e 0) (leAt b 32 8 + 64) (32 * leAt h 12 4) = .ok (ct, s3) →
      s3.vRead (r.access e 0) (leAt b 40 8) (64 * byteOf h 8) = .ok (pt, s4) →
      d = drawOf r b (s.reg (UPD_SEED r.part)).toNat (leAt h 0 8) (byteOf h 8) (containersOf (leAt h 12 4) ct) (profileOf (byteOf h 8) pt) →
      drawSourceOk d.n (byteOf h 8) d.containers = true → d.profile.all entryOk = true → layoutOk d.profile d.slotBytes = true → d.pos + d.count ≤ d.n →
      s.lacksFeed e r d.profile = false →
      ∃ t, exec (.iopen e) s = .next t ∧ Passed s t e 128 r ∧ t.draw e (byteOf b 2) = some d ∧ (∀ c, c < 4 → c ≠ byteOf b 2 → t.draw e c = s.draw e c) ∧
      t.mem = s.mem ∧ t.coh = s.coh ∧ KeepRegs s t (INT_CTX_STATUS (eDie e - 14) (byteOf b 2) :: readRegs r.part)) ∧
    (∀ b s1 d, Issues s e 0x71 r b s1 → s1.drawCodes e r (byteOf b 2) (zerosAt b 1 1 && zerosAt b 3 1 && zerosAt b 8 56) = [] → 10000 ≤ leAt b 4 4 →
      leAt b 4 4 ≤ 250000 → s.draw e (byteOf b 2) = some d →
      (d.finished.length = d.count → ∃ t, exec (.irun e) s = .next t ∧ Passed s t e 64 r ∧ t.draws = s.draws ∧ WithinEngine s t) ∧
      (d.finished.length ≠ d.count → ∃ t, exec (.irun e) s = .next t ∧ Waits s t e { r with wait := .busy, ctx := byteOf b 2 } ∧ t.draws = s.draws ∧
        WithinEngine s t)) ∧
    (Table.get? s.eng.runs e = some r → r.wait = .busy → ∃ t, exec (.irunBudgetExpire e) s = .next t ∧ Passed s t e 64 r ∧
      t = (s.setEng t.eng).setFree t.free) ∧
    (∀ b s1, Issues s e 0x72 r b s1 → s1.drawCodes e r (byteOf b 2) (zerosAt b 1 1 && zerosAt b 3 61) = [] → ∃ t, exec (.iclose e) s = .next t ∧
      Passed s t e 64 r ∧ t.draw e (byteOf b 2) = none ∧ (∀ c, c < 4 → c ≠ byteOf b 2 → t.draw e c = s.draw e c) ∧ t.mem = s.mem ∧ t.coh = s.coh ∧
      t.reg (INT_CTX_STATUS (eDie e - 14) (byteOf b 2)) = 0 ∧ KeepRegs s t (INT_CTX_STATUS (eDie e - 14) (byteOf b 2) :: readRegs r.part)) ∧
    (∀ d slot x m s1 s2 s3 base, Table.get? s.eng.runs e = some r → r.wait = .busy → s.draw e r.ctx = some d → s.slotDue d slot = true →
      s.pickSample (r.access e 0) d slot = .ok (some x) → s.tookFree.makeSample (r.access e 0) d x.n = .ok (m, s1) → m.bad = [] →
      base = d.dest + slot * d.slotBytes → foldM (fun s o => s.vStore (r.access e 1) (base + o.1) o.2) m.outs s1 = .ok s2 →
      s2.vStore (r.access e 1) base (s2.slotHeader d x m 0 (decide (m.steered ≠ 0))) = .ok s3 →
      ∃ t, exec (.sampleFinish e slot) s = .next t ∧
      t.draw e r.ctx = some { d with finished := slot :: d.finished, taken := x.n :: d.taken } ∧
      Counts s t (INT_SAMPLES (eDie e - 14)) 1 ∧ Counts s t (INT_BYTES_IN (eDie e - 14)) m.bytes ∧
      (s.fld (INT0_IDL_CTRL d.part) F.INT0_IDL_CTRL_LOG2 < 4 → (∀ a, t.byteAt a = s3.byteAt a) ∧ Counts s t (INT0_IDL_LOST d.part) 1) ∧
      (d.finished.length + 1 = d.count → ∃ y, Passed s t e 64 y ∧ y = { r with pend := y.pend, bad := y.bad }) ∧
      (d.finished.length + 1 ≠ d.count → ∃ y, Waits s t e y ∧ y = { r with pend := y.pend, bad := y.bad }))

end

section
open Sys2Proof Sys2Proof.Machine Sys2Proof.Claims

/-- On a port that is UP: FLIT_RECEIVE discards damaged flits and counts them, takes the acknowledgement and credit fields of every good one, accepts the flit expected next and
asks once for a replay after a gap; FLIT_SLOT sends a replay first, then a CTRL flit, then a STREAM flit with one of its channel's credits, else an IDLE flit, and no new
sequenced one while 1,024 are held; a replay request and a timeout resend what is held, and sixteen timeouts in a row take the port out of UP (R453 to R467). -/
def Obligations.FlitsAreSequencedAndReplayed : Prop :=
  ∀ (s : State) (die port oe : Nat) (p : Port), die < 4 → port < 8 → oe = 8 * die + port → p = s.port oe → s.portUp oe = true →
    (∀ data, ∃ t, exec (.flitReceive die port .uncorrectable data) s = .next t ∧ Counts s t (LNK_PORT_BAD_FLITS die port) 5 ∧
      OnlyRegs s t [LNK_PORT_BAD_FLITS die port]) ∧
    (∀ fec data, fec ≠ .uncorrectable → data.length ≠ 256 ∨ leAt data 252 4 ≠ crc32c (data.take 252) → ∃ t, exec (.flitReceive die port fec data) s = .next t ∧
      Counts s t (LNK_PORT_BAD_FLITS die port) 1 ∧ OnlyRegs s t [LNK_PORT_BAD_FLITS die port, LNK_PORT_FEC_CORR die port] ∧
      (fec = .correctable → Counts s t (LNK_PORT_FEC_CORR die port) 1)) ∧
    (∀ fec data kind d, fec ≠ .uncorrectable → data.length = 256 → leAt data 252 4 = crc32c (data.take 252) → kind = leAt data 0 2 / 4096 →
      d = (leAt data 0 2 % 4096 + 4096 - p.expect) % 4096 →
      (kind ≠ 1 → kind ≠ 2 → ∃ t, exec (.flitReceive die port fec data) s = .next t ∧ t.port oe = p.takeFields data ∧ (∀ q, q ≠ oe → t.port q = s.port q) ∧
        t = (s.setRegs t.regs).setLnk t.lnk) ∧
      (kind = 1 ∨ kind = 2 → d ≠ 0 → d < 2048 → p.asked ≠ some p.expect → ∃ t, exec (.flitReceive die port fec data) s = .next t ∧
        t.port oe = { p.takeFields data with asked := some p.expect, ask := true } ∧ (∀ q, q ≠ oe → t.port q = s.port q)) ∧
      (kind = 1 ∨ kind = 2 → d ≠ 0 → 2048 ≤ d ∨ p.asked = some p.expect → ∃ t, exec (.flitReceive die port fec data) s = .next t ∧
        t.port oe = p.takeFields data ∧ (∀ q, q ≠ oe → t.port q = s.port q)) ∧
      (kind = 1 → d = 0 → Table.get? p.part (byteOf data 4 % 4) = none → byteOf data 12 = 0 → ∃ t, exec (.flitReceive die port fec data) s = .next t ∧
        (t.port oe).expect = (p.expect + 1) % 4096 ∧ (t.port oe).asked = none ∧
        countOf (t.port oe).drained (byteOf data 4 % 4) = countOf p.drained (byteOf data 4 % 4) + 1 ∧ ∀ q, q ≠ oe → t.port q = s.port q)) ∧
    (∀ q rest f, p.replay = q :: rest → Table.get? p.held q = some f → ∃ t, exec (.flitSlot die port) s = .next t ∧
      t.port oe = ({ p with replay := rest } : Port).resend q f ∧ Counts s t (LNK_PORT_REPLAYED die port) 1 ∧ t = (s.setRegs t.regs).setLnk t.lnk) ∧
    (p.replay = [] → 1024 ≤ p.held.length ∨ (p.nextCtrl = none ∧ s.nextChannel oe = none) → ∃ t, exec (.flitSlot die port) s = .next t ∧
      t.port oe = p.didSend (p.flit 0 0 0 []) ∧ t = s.setLnk t.lnk) ∧
    (∀ c, p.replay = [] → p.held.length < 1024 → p.nextCtrl = some c → c.1 ≠ 4 → ∃ t, exec (.flitSlot die port) s = .next t ∧
      t.port oe = ({ p with ctrl := p.ctrl.erase c } : Port).sendNew 2 0 (s.stamped c) ∧ Counts s t (LNK_PORT_FLITS die port) 1 ∧
      t = ((s.setRegs t.regs).setLnk t.lnk).setFree t.free) ∧
    (∀ v, p.replay = [] → p.held.length < 1024 → p.nextCtrl = none → s.nextChannel oe = some v → ∃ t f, exec (.flitSlot die port) s = .next t ∧
      (t.port oe).sent = f ∧ (t.port oe).held = p.held ++ [(p.next, f)] ∧ (t.port oe).next = (p.next + 1) % 4096 ∧
      countOf (t.port oe).used v = countOf p.used v + 1 ∧ Counts s t (LNK_PORT_FLITS die port) 1 ∧ t = (s.setRegs t.regs).setLnk t.lnk) ∧
    (∀ seq, ∃ t, exec (.replayReqReceive die port seq) s = .next t ∧ t.port oe = p.replayFrom seq ∧ (∀ q, q ≠ oe → t.port q = s.port q) ∧ t = s.setLnk t.lnk) ∧
    (p.asked = some p.expect → ∃ t, exec (.replayReqRepeat die port) s = .next t ∧ t.port oe = { p with ask := true } ∧
      (∀ q, q ≠ oe → t.port q = s.port q) ∧ t = s.setLnk t.lnk) ∧
    (p.held ≠ [] → p.timeouts < 15 → ∃ t, exec (.replayTimeout die port) s = .next t ∧
      t.port oe = { p with timeouts := p.timeouts + 1, replay := p.held.map (·.1) } ∧ t = s.setLnk t.lnk) ∧
    (p.held ≠ [] → 15 ≤ p.timeouts → ∃ t, exec (.replayTimeout die port) s = .next t ∧ t.portUp oe = false ∧ t.fld (portStatus oe) F.LNK_PORT_STATUS_FAIL = 6 ∧
      Counts s t (LNK_PORT_DOWNS die port) 1 ∧ t.flag (LNK_ALARM die) F.LNK_ALARM_LINK_DOWN = true ∧ (t.port oe).held = [])

end

namespace Sys2Proof.Claims
open Sys2Proof.Machine

/-- A port has left UP: it is DOWN, or trains at once where AUTO is set and it has light, and its exit is counted (R481, R484). -/
def LeftUp (s t : State) (oe : Nat) : Prop :=
  t.portState oe = (if s.flag (portCtrl oe) F.LNK_PORT_CTRL_AUTO = true ∧ (s.port oe).dark = false then 1 else 3) ∧
  Counts s t (LNK_PORT_DOWNS (oe / 8) (oe % 8)) 1 ∧ (t.port oe).held = [] ∧ (t.port oe).used = []

end Sys2Proof.Claims

section
open Sys2Proof Sys2Proof.Machine Sys2Proof.Claims

/-- TRAINING_COMPLETE brings a port UP with fresh credits where its peer is the Chart's, else the port is miswired; TRAINING_FAIL leaves it FAILED, waiting for another try, or
DOWN after an aborted change; TRAINING_RETRY trains again; PORT_DOWN and LASER_LOW take ports out of UP with their alarms, LASER_RESTORED lets them train, and
PORT_CHANGE retrains at the setting asked for (R452, R481 to R486). -/
def Obligations.PortsTrainAndLeaveUp : Prop :=
  ∀ (s : State) (die port oe : Nat) (p : Port), die < 4 → port < 8 → oe = 8 * die + port → p = s.port oe →
    (∀ pkg peer, s.portState oe = 1 → p.training ≠ 0 → p.dark = false →
      (s.isEth oe = true ∨ s.expectedPeer oe = some (pkg, peer) → ∃ t, exec (.trainingComplete die port pkg peer) s = .next t ∧ t.portState oe = 2 ∧
        t.port oe = { half := p.half } ∧ t.fld (portStatus oe) F.LNK_PORT_STATUS_PEER_PKG = pkg % 4096 ∧
        t.fld (portStatus oe) F.LNK_PORT_STATUS_PEER_PORT = peer % 32 ∧ t.fld (portStatus oe) F.LNK_PORT_STATUS_FAIL = 0 ∧
        t.flag (portStatus oe) F.LNK_PORT_STATUS_HALF = p.half ∧ ∀ q, q ≠ oe → t.port q = s.port q) ∧
      (s.isEth oe = false → s.expectedPeer oe ≠ some (pkg, peer) → ∃ t, exec (.trainingComplete die port pkg peer) s = .next t ∧ t.portState oe = 4 ∧
        t.fld (portStatus oe) F.LNK_PORT_STATUS_FAIL = 3 ∧ t.flag (LNK_ALARM die) F.LNK_ALARM_LINK_MISWIRED = true)) ∧
    (∀ cause, s.portState oe = 1 → p.training ≠ 0 → 1 ≤ cause → cause ≤ 5 →
      (cause = 3 → ∃ t, exec (.trainingFail die port cause) s = .next t ∧ t.portState oe = 4 ∧ t.fld (portStatus oe) F.LNK_PORT_STATUS_FAIL = 3 ∧
        t.flag (LNK_ALARM die) F.LNK_ALARM_LINK_MISWIRED = true) ∧
      (p.training = 3 → cause = 1 → ∃ t, exec (.trainingFail die port cause) s = .next t ∧ t.fld (portStatus oe) F.LNK_PORT_STATUS_FAIL = 7 ∧
        t.flag (LNK_ALARM die) F.LNK_ALARM_PORT_CHANGE_ABORTED = true ∧ (t.port oe).half = p.back.getD p.half ∧ (t.portState oe = 3 ∨ t.portState oe = 1)) ∧
      (cause ≠ 3 → ¬(p.training = 3 ∧ cause = 1) → s.flag (portCtrl oe) F.LNK_PORT_CTRL_AUTO = true → ∃ t, exec (.trainingFail die port cause) s = .next t ∧
        t.portState oe = 1 ∧ t.port oe = { p with training := 0 } ∧ t.fld (portStatus oe) F.LNK_PORT_STATUS_FAIL = cause ∧
        KeepRegs s t [portCtrl oe, portStatus oe]) ∧
      (cause ≠ 3 → ¬(p.training = 3 ∧ cause = 1) → s.flag (portCtrl oe) F.LNK_PORT_CTRL_AUTO = false → ∃ t, exec (.trainingFail die port cause) s = .next t ∧
        t.portState oe = 4 ∧ t.port oe = { p with training := 0 } ∧ t.fld (portStatus oe) F.LNK_PORT_STATUS_FAIL = cause ∧
        KeepRegs s t [portCtrl oe, portStatus oe])) ∧
    (s.portState oe = 1 → p.training = 0 → p.dark = false → ∃ t, exec (.trainingRetry die port) s = .next t ∧ t.portState oe = 1 ∧
      t.port oe = { p with training := 1 } ∧ (∀ q, q ≠ oe → t.port q = s.port q) ∧ KeepRegs s t [portStatus oe]) ∧
    (s.portState oe = 2 → ∃ t, exec (.portDown die port) s = .next t ∧ LeftUp s t oe ∧ t.flag (LNK_ALARM die) F.LNK_ALARM_LINK_DOWN = true) ∧
    (∀ value, s.portState oe = 2 → ∃ t, exec (.portChange die port value) s = .next t ∧ t.portState oe = 1 ∧ (t.port oe).half = value.testBit 0 ∧
      (t.port oe).training = 3 ∧ (t.port oe).held = [] ∧ Counts s t (LNK_PORT_DOWNS die port) 1) ∧
    (∀ k, k < 8 → ∃ t, exec (.laserLow k) s = .next t ∧ t.flag (LNK_ALARM (k / 2)) F.LNK_ALARM_LASER_LOW = true ∧
      ∀ q ∈ connectorPorts k, (t.port q).dark = true ∧ t.portState q = (if s.portState q = 2 then 3 else s.portState q)) ∧
    (∀ k, k < 8 → ∃ t, exec (.laserRestored k) s = .next t ∧ (∀ q ∈ connectorPorts k, (t.port q).dark = false ∧
        ((s.port q).dark = true → s.portState q = 3 → t.portState q = 1 ∧ (t.port q).training = 1) ∧
        ((s.port q).dark = false ∨ s.portState q ≠ 3 → t.portState q = s.portState q)) ∧
      KeepRegs s t ((connectorPorts k).map portStatus) ∧ t = (s.setRegs t.regs).setLnk t.lnk)

end

namespace Sys2Proof.Claims
open Sys2Proof.Machine

/-- A response on channel RSP to the source of a request joins the messages that wait (R469, R470). -/
def Responds (s t : State) (m : LinkMsg) (type : Nat) (data : List Byte) : Prop :=
  ∃ poison, t.lnk.out = s.lnk.out ++ [⟨1, m.gr, m.src, none,
    messageBytes { type := type, gr := m.gr, poison := poison, dest := m.src, src := s.pkg, addr := m.addr, tag := m.tag } data⟩]

/-- The commands that carry a message, with the channel they come on. -/
def carries (c : Instr) (die chan : Nat) (m : LinkMsg) : Prop :=
  (chan = 0 ∧ (c = .rdReq die m ∨ c = .wrReq die m ∨ c = .regRd die m ∨ c = .regWr die m)) ∨
  (chan = 1 ∧ (c = .rdRsp die m ∨ c = .wrAck die m ∨ c = .regRsp die m))

end Sys2Proof.Claims

section
open Sys2Proof Sys2Proof.Machine Sys2Proof.Claims

/-- A message for another package goes on with one hop less or is dropped; a read request that passes its checks waits for its epoch and is answered with the data it reads, a write is
performed and acknowledged, a register request reads or writes the partition's alias window, and one that fails a check is counted and answered without effect.
A response ends its request, and a request without one times out and makes its destination unreachable (R403, R469 to R476). -/
def Obligations.LinkMessagesAreServed : Prop :=
  ∀ (s : State) (die : Nat) (m : LinkMsg), die < 4 →
    (∀ c chan, carries c die chan m → m.dst ≠ s.pkg →
      (m.hops ≤ 1 → ∃ t, exec c s = .next t ∧ Counts s t (LNK_MSG_DROPPED die) 1 ∧ OnlyRegs s t [LNK_MSG_DROPPED die]) ∧
      (2 ≤ m.hops → m.hops < 256 → ∃ t x, exec c s = .next t ∧ t = s.setLnk t.lnk ∧ t.lnk.out = s.lnk.out ++ [x] ∧ x.chan = chan ∧ x.gr = m.gr ∧
        x.dest = m.dst % 4096 ∧ byteOf x.bytes 21 = m.hops - 1)) ∧
    (m.dst = s.pkg → ∀ x, s.remotePieces die m m.len 0 = some x → ∃ t, exec (.rdReq die m) s = .next t ∧ t = s.setLnk t.lnk ∧
      t.lnk.reads = s.lnk.reads ++ [(die, { m with epoch := min m.epoch (s.reg HST_VIS_EPOCH).toNat })]) ∧
    (m.dst = s.pkg → s.remotePieces die m m.len 0 = none → ∃ t, exec (.rdReq die m) s = .next t ∧ Counts s t (LNK_REMOTE_VIOL die) 1 ∧
      Responds s t m 0x11 (List.replicate m.len 0) ∧ t = (s.setRegs t.regs).setLnk t.lnk ∧ KeepRegs s t [LNK_REMOTE_VIOL die]) ∧
    (∀ i x pa, s.waitingRead die i = some x → x.2 = m → m.epoch = 0 ∨ m.epoch ≤ s.applied die → m.space ≠ 2 → s.remotePieces die m m.len 0 = some [(pa, m.len)] →
      0 < m.len → pa % 64 + m.len ≤ 64 → (if m.space = 0 then s.regionRaw pa else s.region pa) = .hbm → s.linkAhead die = [] →
      ∃ t, exec (.remoteReadServe die i) s = .next t ∧ t.lnk.reads = s.lnk.reads.erase x ∧ (∀ a, t.byteAt a = s.byteAt a) ∧
      Responds s t m 0x11 ((List.range m.len).map (fun k => s.byteAt (pa + k)))) ∧
    (m.dst = s.pkg → s.remotePieces die m m.data.length 1 = none → ∃ t, exec (.wrReq die m) s = .next t ∧ Counts s t (LNK_REMOTE_VIOL die) 1 ∧
      t.lnk.writes = s.lnk.writes ++ [(die, { m with data := [] }, false)] ∧ t = (s.setRegs t.regs).setLnk t.lnk ∧ KeepRegs s t [LNK_REMOTE_VIOL die]) ∧
    (m.dst = s.pkg → ∀ pa, s.remotePieces die m m.data.length 1 = some [(pa, m.data.length)] → 0 < m.data.length → pa % 64 + m.data.length ≤ 64 →
      (if m.space = 0 then s.regionRaw pa else s.region pa) = .hbm → ∃ t, exec (.wrReq die m) s = .next t ∧
      t.lnk.writes = s.lnk.writes ++ [(die, { m with data := [] }, false)] ∧ (∀ k, k < m.data.length → t.byteAt (pa + k) = m.data[k]?.getD 0) ∧
      ∀ a, a < pa ∨ pa + m.data.length ≤ a → t.byteAt a = s.byteAt a) ∧
    (m.dst = s.pkg → s.regRefused m false = true → ∃ t, exec (.regRd die m) s = .next t ∧ Counts s t (LNK_REMOTE_VIOL die) 1 ∧
      Responds s t m 0x13 (List.replicate 8 0) ∧ t.mem = s.mem) ∧
    (m.dst = s.pkg → s.regRefused m false = false → ∃ t, exec (.regRd die m) s = .next t ∧
      Responds (s.regRead (regAccOf m false)).1 t m 0x13 (leBytes 8 (s.regRead (regAccOf m false)).2.toNat) ∧
      t = (s.regRead (regAccOf m false)).1.setLnk t.lnk) ∧
    (m.dst = s.pkg → s.regRefused m true = true → ∃ t, exec (.regWr die m) s = .next t ∧ Counts s t (LNK_REMOTE_VIOL die) 1 ∧
      t.lnk.writes = s.lnk.writes ++ [(die, { m with data := [] }, true)] ∧ t.mem = s.mem) ∧
    (m.dst = s.pkg → s.regRefused m true = false → ∃ t, exec (.regWr die m) s = .next t ∧
      t.lnk.writes = (s.regWrite (regAccOf m true)).lnk.writes ++ [(die, { m with data := [] }, true)] ∧ t = (s.regWrite (regAccOf m true)).setLnk t.lnk) ∧
    (∀ i x, s.waitingWrite die i = some x → ∃ t, exec (.remoteWriteAcked die i) s = .next t ∧ t = s.setLnk t.lnk ∧ t.lnk.writes = s.lnk.writes.erase x ∧
      Responds s t x.2.1 (if x.2.2 then 0x13 else 0x12) (if x.2.2 then List.replicate 8 0 else [])) ∧
    (∀ c, carries c die 1 m → m.dst = s.pkg →
      (s.requestOf m = none → ∃ t, exec c s = .next t ∧ Counts s t (LNK_MSG_DROPPED die) 1 ∧ OnlyRegs s t [LNK_MSG_DROPPED die]) ∧
      (∀ r, s.requestOf m = some r → ∃ t, exec c s = .next t ∧ t.lnk.reqs = s.lnk.reqs.erase r ∧ m.src ∉ t.lnk.silent ∧ t.mem = s.mem ∧ t.regs = s.regs ∧
        (r.write = false → t.resp = BitVec.ofNat 64 (leAt m.data 0 8)) ∧ (r.write = true ∨ m.poison = false → t.poison = s.poison))) ∧
    (∀ tag r, s.lnk.reqs.find? (fun r => decide (r.die = die) && decide (r.tag = tag)) = some r → ∃ t, exec (.rspTimeout die tag) s = .next t ∧
      t.lnk.reqs = s.lnk.reqs.erase r ∧ t.unreachable r.dest = true ∧ Counts s t (LNK_RSP_TIMEOUTS die) 1 ∧ t.mem = s.mem ∧
      (s.unreachable r.dest = false → t.flag (LNK_ALARM die) F.LNK_ALARM_LINK_PEER_LOST = true))

end

section
open Sys2Proof Sys2Proof.Machine Sys2Proof.Claims

/-- The requester's side of RDMA: acknowledgements release writes, a timeout resends the oldest at most seven times, a queue pair in error drops its writes and ends its stream,
congestion halves a handle's rate and recovery returns five per cent, and a pause stops one priority of one engine. An inbound request is matched to a handle and
checked against its region entry, then performed, or refused and counted (R489 to R494; the size of a recovery step is the model's reading). -/
def Obligations.EthernetHandlesWork : Prop :=
  ∀ (s : State) (h : Nat), h < 64 →
    (∀ x, Table.get? s.lnk.handles h = some x →
      (∀ c, x.sent ≠ [] → c = Instr.ethQpError h ∨ (c = Instr.localAckTimeout h ∧ 7 ≤ x.retries) → ∃ t, exec c s = .next t ∧
        Table.get? t.lnk.handles h = some { x with sent := [], retries := 0 } ∧ t.fld LNK0_ETH_HSTATUS ⟨h, h⟩ = 1 ∧
        t.flag (LNK_ALARM 0) F.LNK_ALARM_ETH_QP_ERROR = true ∧ (∀ e ∈ t.exp, ¬(e.2.dest = 0 ∧ e.2.handle = h)) ∧
        (∀ k, k ≠ h → Table.get? t.lnk.handles k = Table.get? s.lnk.handles k) ∧ t.mem = s.mem) ∧
      (x.sent ≠ [] → x.retries < 7 → ∃ t, exec (.localAckTimeout h) s = .next t ∧ t = s.setLnk t.lnk ∧
        Table.get? t.lnk.handles h = some { x with retries := x.retries + 1 } ∧ ∀ k, k ≠ h → Table.get? t.lnk.handles k = Table.get? s.lnk.handles k) ∧
      (∀ psn nak first w n, x.sent.head? = some (first, w) → n = (psn + 2 ^ 24 - first) % 2 ^ 24 + (if nak then 0 else 1) → n ≤ x.sent.length →
        (s.reg LNK0_ETH_HSTATUS).toNat.testBit h = false → ∃ t, exec (.roceAckReceive h psn nak) s = .next t ∧ t = s.setLnk t.lnk ∧
        Table.get? t.lnk.handles h = some { x with sent := x.sent.drop n, retries := if n = 0 then x.retries else 0 } ∧
        ∀ k, k ≠ h → Table.get? t.lnk.handles k = Table.get? s.lnk.handles k)) ∧
    (∀ c f, (c = Instr.congestionNotification h ∧ f = fun (x : Handle) => { x with rate := x.rate / 2 }) ∨
        (c = Instr.rateRecovery h ∧ f = fun (x : Handle) => { x with rate := min 1000 (x.rate + 50) }) → ∃ t, exec c s = .next t ∧ t = s.setLnk t.lnk ∧
      Table.get? t.lnk.handles h = (Table.get? s.lnk.handles h).map f ∧ ∀ k, k ≠ h → Table.get? t.lnk.handles k = Table.get? s.lnk.handles k) ∧
    (∀ oe prio pause, ∃ t, exec (.priorityFlowControl oe prio pause) s = .next t ∧ t = s.setLnk t.lnk ∧
      (8 * (oe % 8) + prio % 8 ∈ t.lnk.paused ↔ pause = true) ∧ ∀ k, k ≠ 8 * (oe % 8) + prio % 8 → (k ∈ t.lnk.paused ↔ k ∈ s.lnk.paused)) ∧
    (∀ qpn ip srcQpn rkey addr len write data,
      (s.lnk.handles.any (fun h => h.2.matches qpn ip srcQpn) = false → ∃ t, exec (.rdmaInbound qpn ip srcQpn rkey addr len write data) s = .next t ∧
        Counts s t (LNK_REMOTE_VIOL 0) 1 ∧ t.lnk.answers = (qpn, none) :: s.lnk.answers ∧ t = (s.setRegs t.regs).setLnk t.lnk) ∧
      (∀ s1 r n pa, s.lnk.handles.any (fun h => h.2.matches qpn ip srcQpn) = true → s.regionEntry (rkey % 65536) = (s1, some r) →
        n = (if write then data.length else len) → r.accepts rkey addr n (if write then 1 else 0) = true → r.ports = 0 → r.flags.testBit 4 = false →
        s1.regionPieces r 0 addr n (if write then 1 else 0) = some [(pa, n)] → 0 < n → pa % 64 + n ≤ 64 → s1.region pa = .hbm →
        ∃ t, exec (.rdmaInbound qpn ip srcQpn rkey addr len write data) s = .next t ∧ (∀ a, a < pa ∨ pa + n ≤ a → t.byteAt a = s.byteAt a) ∧
        (write = true → (∀ i, i < n → t.byteAt (pa + i) = data[i]?.getD 0) ∧ ∃ l, t.lnk.answers = (qpn, some []) :: l) ∧
        (write = false → (∀ i, i < n → t.byteAt (pa + i) = s.byteAt (pa + i)) ∧ ∃ x, t.lnk.reads = s1.lnk.reads ++ [(0, x)] ∧ x.space = 2 ∧ x.tag = qpn ∧
          x.addr = r.va + addr ∧ x.len = n ∧ x.epoch = (s.reg HST_VIS_EPOCH).toNat)))

end

section
open Sys2Proof Sys2Proof.Machine Sys2Proof.Claims

/-- The Sextant: OP_CHANGE_DONE applies the target's voltage and clock, FAST_LIMIT drops every die to OP9 or below, MODE_TAKES_EFFECT takes the mode of an earlier watch, and a band
shows its meters, holds best-effort work while P_allow lies below the prediction at OP9, and in FIXED mode with enough power and no thermal limit gives each die that is not
changing FIXED_OP. THERMAL_SAMPLE records a level reached, an emergency holds best-effort work, and EMERGENCY_END ends it (R503, R508 to R510, R515 to R522, R534). -/
def Obligations.SextantSetsPoints : Prop :=
  ∀ (s : State),
    (∀ d k, d < 8 → d ∈ s.pwr.moving → k = s.opTarget d →
      (Table.get? s.pwr.next d = none → ∃ t, exec (.opChangeDone d) s = .next t ∧ t.opNow d = k ∧ t.opTarget d = k ∧ d ∉ t.pwr.moving ∧
        t.fld (PWR_TD_STATUS d) F.PWR_TD_STATUS_MV = s.opMv d k ∧ KeepRegs s t [PWR_TD_STATUS d] ∧ t = (s.setRegs t.regs).setPwr t.pwr) ∧
      (∀ n, Table.get? s.pwr.next d = some n → n < 16 → ∃ t, exec (.opChangeDone d) s = .next t ∧ t.opNow d = min k n ∧ t.opTarget d = n ∧
        (d ∈ t.pwr.moving ↔ n ≠ k) ∧ Table.get? t.pwr.next d = none ∧ KeepRegs s t [PWR_TD_STATUS d])) ∧
    (s.pwr.clocks = true → ∃ t, exec .fastLimit s = .next t ∧ t.flag PWR_STATUS F.PWR_STATUS_FAST_CLAMP = true ∧ t.flag PWR_ALARM F.PWR_ALARM_FAST_LIMIT = true ∧
      (∀ d, d < 8 → t.opNow d = min 9 (s.opNow d) ∧ t.opTarget d = (if 9 < s.opNow d then 9 else min (s.opTarget d) (s.opNow d)) ∧
        Table.get? t.pwr.next d = none) ∧
      KeepRegs s t ([PWR_STATUS, PWR_ALARM] ++ reportRegs ++ (List.range 8).map PWR_TD_STATUS) ∧ t.mem = s.mem ∧ t.eng = s.eng) ∧
    (∀ w, s.pwr.modeWatch = some w → w < s.watch → ∃ t, exec .modeTakesEffect s = .next t ∧ t.pwr.modeWatch = none ∧
      t.pwrMode = (if s.fld PWR_MODE F.PWR_MODE_MODE = 3 then 0 else s.fld PWR_MODE F.PWR_MODE_MODE) ∧ t.pwr.fixedOp = fixedOpOf (s.reg PWR_MODE) ∧
      KeepRegs s t [PWR_STATUS] ∧ t = (s.setRegs t.regs).setPwr t.pwr) ∧
    (∀ inputW vin energies hist, s.boot.powered = true → s.log.final = false → hist = (inputW :: s.pwr.hist).take 160000 → inputW < 65536 → vin < 65536 →
      ∃ t, exec (.sextantBand inputW vin energies) s = .next t ∧ t.pwr.hist = hist ∧ t.fld PWR_STATUS F.PWR_STATUS_INPUT_W = inputW ∧
      t.fld PWR_STATUS F.PWR_STATUS_ALLOW_W = s.allow hist % 65536 ∧ t.fld PWR_INPUT F.PWR_INPUT_VIN = vin ∧
      (∀ d, d < 8 → Counts s t (PWR_TD_ENERGY d) (dieEnergy energies d)) ∧
      (s.pwr.clocks = true → (s.railAt inputW energies 9).le ⟨((s.allow hist * 93 : Nat) : Int), 100⟩ = false →
        t.flag PWR_STATUS F.PWR_STATUS_HOLD = true ∧ Counts s t PWR_HOLD_BANDS 1) ∧
      (s.pwr.clocks = true → inputW ≤ 5540 → t.flag PWR_STATUS F.PWR_STATUS_FAST_CLAMP = false) ∧
      (s.pwr.clocks = true → inputW ≤ 5540 → s.pwrMode = 0 → s.pwr.fixedOp < 16 → s.pwr.levels = [] → s.pwr.caps = [] → s.pwr.moving = [] →
        s.flag PWR_STATUS F.PWR_STATUS_EMERG = false → (s.railAt inputW energies s.pwr.fixedOp).le ⟨((s.allow hist * 93 : Nat) : Int), 100⟩ = true →
        ∀ d, d < 8 → t.opTarget d = s.pwr.fixedOp ∧ t.opNow d = min (s.opNow d) s.pwr.fixedOp)) ∧
    (∀ source temp lim level, thresholds source = some lim → s.boot.powered = true → s.log.final = false → level = s.tempLevel lim temp → temp < 256 → level < 3 →
      ∃ t, exec (.thermalSample source temp) s = .next t ∧ Table.get? t.pwr.temps source = some temp ∧ t.levelOf source = level ∧
      (∀ x, x ≠ source → t.levelOf x = s.levelOf x) ∧ (source < 8 → t.fld (PWR_TD_STATUS source) F.PWR_TD_STATUS_TEMP_C = temp) ∧
      (level ≤ s.levelOf source → t.log = s.log ∧ KeepRegs s t (if source < 8 then [PWR_TD_STATUS source] else [])) ∧
      (s.levelOf source < level → t.fld PWR_THERM_LAST F.PWR_THERM_LAST_TEMP_C = temp ∧ t.fld PWR_THERM_LAST F.PWR_THERM_LAST_LEVEL = level ∧
        (s.levelOf source = 0 → t.flag PWR_ALARM F.PWR_ALARM_THERMAL_WARN = true) ∧
        (level = 2 → t.flag PWR_ALARM F.PWR_ALARM_THERMAL_EMERGENCY = true ∧ t.flag PWR_STATUS F.PWR_STATUS_EMERG = true ∧
          t.flag PWR_STATUS F.PWR_STATUS_HOLD = true))) ∧
    (s.flag PWR_STATUS F.PWR_STATUS_EMERG = true → 16 ≤ s.pwr.cool → ∃ t, exec .emergencyEnd s = .next t ∧ t.flag PWR_STATUS F.PWR_STATUS_EMERG = false ∧
      OnlyRegs s t [PWR_STATUS])

end

namespace Sys2Proof.Claims
open Sys2Proof.Machine

/-- The power-loss path has run (R530, R587): the FINAL record is written, the incident closed, plans, engines and exporters are stopped, PWR_OK is low; no data has changed. -/
def PathRan (s t : State) (cause : Nat) : Prop :=
  t.log.final = true ∧ t.boot.endCause = cause ∧ t.boot.pwrOk = false ∧ t.boot.powered = true ∧ t.pwr.clocks = false ∧ t.adm = {} ∧ t.eng = {} ∧ t.exp = [] ∧
  t.flag LOG_STATUS F.LOG_STATUS_OPEN = false ∧ t.mem = s.mem ∧ t.sram = s.sram ∧ t.poison = s.poison

/-- A package reset has left its state (R8, R532): boot stage 1, the registers that are not Stored at their reset values, every volatile content lost. -/
def ResetTo (t : State) : Prop :=
  t.fld KPR_BOOT_STATUS F.KPR_BOOT_STATUS_STAGE = 1 ∧ t.adm = {} ∧ t.eng = {} ∧ t.coh = [] ∧ t.sram = [] ∧ t.exp = [] ∧
  (∀ a, inFlash a = false → t.byteAt a = 0) ∧
  ∀ k, k ∉ storedMasks.map (·.1) → k ∉ [KPR_DBG_NONCE, KPR_BOOT_STATUS, PWR_DOM_ON0, PWR_DOM_ON1] → t.reg k = Sparse.get resetRegs k

/-- The package has come up from package reset, at an attempt, with the domains of the power-up sequence on (R527). -/
def CameUp (t : State) (attempt : Nat) : Prop :=
  ResetTo t ∧ t.boot.powered = true ∧ t.boot.attempt = attempt ∧ t.boot.discharge = [] ∧ t.domains = domainMask upDomains

/-- Everything is off but the domains kept, and what they do not keep is lost (R528, R532). -/
def WentDark (s t : State) (keep : List Nat) : Prop :=
  t.boot.powered = false ∧ t.boot.pwrOk = false ∧ t.domains = domainMask keep ∧ t.sram = [] ∧ t.adm = {} ∧ t.eng = {} ∧
  (∀ a, inFlash a = false → t.byteAt a = 0) ∧ ∃ w n, t.flash.loss = some (w, n) ∧ s.durable ≤ w

/-- A rail's fault is recorded (R533). -/
def RailFault (t : State) (rail when' : Nat) : Prop :=
  t.fld PWR_RAIL_LAST F.PWR_RAIL_LAST_RAIL = rail ∧ t.fld PWR_RAIL_LAST F.PWR_RAIL_LAST_WHEN = when' ∧ t.flag PWR_RAIL_LAST F.PWR_RAIL_LAST_VALID = true ∧
  rail ∈ t.boot.rails

end Sys2Proof.Claims

section
open Sys2Proof Sys2Proof.Machine Sys2Proof.Claims

/-- POWER_UP, POWER_UP_RETRY, POWER_RESTORE and REFCLK_RESTORE bring the package up from package reset where input and reference are there; a warning, an over-voltage, a rail out of
its window and a loss of reference run the power-loss path once; POWER_DOWN and INPUT_BELOW_DROPOUT switch everything off and lose what is volatile; a rail's
fault is recorded, and during power-up it ends the attempt (R523, R525 to R533, R596, R599). -/
def Obligations.PowerComesAndGoes : Prop :=
  ∀ (s : State) (rail : Nat), rail < 96 →
    (s.boot.powered = false → s.boot.refLost = false → ∃ t, exec (.powerUp none) s = .next t ∧ CameUp t 0) ∧
    (s.boot.powered = false → s.boot.refLost = true → ∀ f, ∃ t, exec (.powerUp f) s = .next t ∧ t.boot.powered = false ∧ t.boot.inputLost = false ∧
      t = s.setBoot t.boot) ∧
    (s.boot.powered = false → s.boot.refLost = false → ∃ t, exec (.powerUp (some rail)) s = .next t ∧ WentDark s t [] ∧ RailFault t rail 1 ∧
      t.boot.attempt = 1 ∧ t.flag KPR_BOOT_STATUS F.KPR_BOOT_STATUS_FAILED = true ∧ t.fld KPR_BOOT_STATUS F.KPR_BOOT_STATUS_FAIL_CAUSE = 3) ∧
    (s.boot.powered = false → s.boot.attempt = 1 → s.boot.inputLost = false → s.boot.refLost = false → ∃ t, exec .powerUpRetry s = .next t ∧ CameUp t 2) ∧
    (s.restarts = true → (s.boot.refLost = false → ∃ t, exec .powerRestore s = .next t ∧ CameUp t 0) ∧
      (s.boot.refLost = true → ∃ t, exec .powerRestore s = .next t ∧ t = s.setBoot { s.boot with inputLost := false }) ∧
      (s.boot.refLost = true → s.boot.inputLost = false → ∃ t, exec .refclkRestore s = .next t ∧ CameUp t 0 ∧ t.boot.refLost = false)) ∧
    (s.boot.refLost = true → s.restarts = false → ∃ t, exec .refclkRestore s = .next t ∧ t = s.setBoot { s.boot with refLost := false }) ∧
    (s.boot.powered = true → s.log.final = false →
      (∃ t, exec .powerFailWarning s = .next t ∧ PathRan s t 1 ∧ t.boot.inputLost = true) ∧
      (∃ t, exec .overVoltage s = .next t ∧ PathRan s t 4 ∧ t.boot.inputLost = true) ∧
      (∃ t, exec (.railOutOfWindow rail) s = .next t ∧ PathRan s t 3 ∧ RailFault t rail 3) ∧
      (∃ t, exec .refclkLoss s = .next t ∧ PathRan s t 5 ∧ t.boot.refLost = true ∧ t.flag KPR_BOOT_STATUS F.KPR_BOOT_STATUS_FAILED = true ∧
        t.fld KPR_BOOT_STATUS F.KPR_BOOT_STATUS_FAIL_CAUSE = 4)) ∧
    (s.log.final = true → (∃ t, exec .powerFailWarning s = .next t ∧ t = s.setBoot { s.boot with inputLost := true }) ∧
      (∃ t, exec .refclkLoss s = .next t ∧ t = s.setBoot { s.boot with refLost := true })) ∧
    (s.boot.powered = true → s.log.final = true → ∃ t, exec .powerDown s = .next t ∧
      WentDark s t (if s.boot.refLost = true ∧ s.boot.inputLost = false then [92, 95] else [])) ∧
    (s.boot.powered = true → ∃ t, exec .inputBelowDropout s = .next t ∧ WentDark s t [] ∧ t.boot.discharge = List.range 96 ∧ t.boot.inputLost = true) ∧
    (s.boot.powered = false → ∃ t, exec .inputBelowDropout s = .next t ∧ t.domains = 0 ∧ t.boot.discharge = List.range 96 ∧ t.boot.inputLost = true ∧
      t.boot.powered = false ∧ KeepRegs s t [PWR_DOM_ON0, PWR_DOM_ON1]) ∧
    (∀ n, 1 ≤ n → n ≤ 6 → s.atStage n = true → ∃ t, exec (.railFault rail) s = .next t ∧ WentDark s t [] ∧ RailFault t rail 1 ∧
      t.boot.attempt = (if s.boot.attempt = 2 then 3 else 1)) ∧
    (s.log.final = true → ∃ t, exec (.railFault rail) s = .next t ∧ RailFault t rail 2 ∧ t.log.final = true ∧ t.boot.powered = s.boot.powered ∧ t.mem = s.mem)

end

namespace Sys2Proof.Claims
open Sys2Proof.Machine

/-- Boot stage n has ended well: the next one stands in KPR_BOOT_STATUS, its time is counted, and STAGE_HOLD halts the boot here if it says so (R537, R563, R564). -/
def StageEnded (s t : State) (n ms : Nat) : Prop :=
  t.fld KPR_BOOT_STATUS F.KPR_BOOT_STATUS_STAGE = n + 1 ∧ t.flag KPR_BOOT_STATUS F.KPR_BOOT_STATUS_FAILED = false ∧
  t.fld KPR_BOOT_MS F.KPR_BOOT_MS_MS = (s.fld KPR_BOOT_MS F.KPR_BOOT_MS_MS + ms) % 2 ^ 32 ∧
  t.boot.halted = decide (s.boot.xboot / 2 % 8 = n ∧ n < 6) ∧ t.boot.powered = true

/-- The boot has failed: FAILED, the die and the cause, and every domain off but 92 and 95 (R538). -/
def BootFailed (t : State) (die cause : Nat) : Prop :=
  t.flag KPR_BOOT_STATUS F.KPR_BOOT_STATUS_FAILED = true ∧ t.fld KPR_BOOT_STATUS F.KPR_BOOT_STATUS_FAIL_DIE = die ∧
  t.fld KPR_BOOT_STATUS F.KPR_BOOT_STATUS_FAIL_CAUSE = cause ∧ t.domains = domainMask [92, 95] ∧ t.pwr.clocks = false ∧ t.boot.pwrOk = false

/-- The Chart in effect, and the registers that carry its values (R550). -/
def ChartIs (s t : State) (c : Chart) (source : Nat) : Prop :=
  t.boot.chart = c ∧ t.fld CHT_STATUS F.CHT_STATUS_IN_EFFECT = source ∧ t.fld CHT_STATUS F.CHT_STATUS_SERIAL = c.serial ∧
  t.fld PWR_CAP F.PWR_CAP_CAP_W = c.capW ∧ t.fld PWR_MODE F.PWR_MODE_MODE = c.mode ∧ t.fld PWR_MODE F.PWR_MODE_FIXED_OP = c.fixedOp ∧
  t.fld WCH_TB_CTRL F.WCH_TB_CTRL_ROLE = c.role ∧ t.pwr.modeWatch = some s.watch ∧
  ∀ f ∈ t.tiers.frames, inFlash f.1 = true → c.defines f.2.part = true

end Sys2Proof.Claims

section
open Sys2Proof Sys2Proof.Machine Sys2Proof.Claims

/-- The six boot stages, each where the boot stands at it: STAGE_KEEPER counts the boot, completes an erasure that a token began, enters recovery without a verified
firmware copy and otherwise loads the voltage tables; STAGE_CHART puts the selected slot's Chart in effect if it passes every check, else the factory default Chart;
STAGE_CLOCKS_AND_NETWORK starts the clocks at the promise frequency; STAGE_MEMORIES puts the HBM stacks and host DRAM in service and records a flash loss; STAGE_LINKS
shows the root ports as they came up; STAGE_COMPUTE powers clusters and host cores and drives PWR_OK. A failing stage 3, 4 or 6 ends the boot. SYS_RESET
held for 1 ms resets the package and keeps the flash tier's content (R8, R329, R332, R335, R390, R499, R501, R527, R537 to R541, R549 to R551, R560, R604, R605). -/
def Obligations.BootRunsItsStages : Prop :=
  ∀ (s : State) (ms d : Nat), d < 19 →
    (s.atStage 1 = true → ∀ copies spareOk, ∃ t, exec (.stageKeeper copies spareOk ms) s = .next t ∧ t.log.boots = s.log.boots + 1 ∧
      (copies % 4 = 0 → t.boot.recovery = true ∧ t.fld KPR_BOOT_STATUS F.KPR_BOOT_STATUS_STAGE = 1) ∧
      (copies % 4 ≠ 0 → StageEnded s t 1 ms ∧ t.boot.recovery = false ∧ t.boot.firmware = (if copies % 2 = 1 then 1 else 2) ∧ t.boot.rails = [] ∧
        t.boot.tripped = false ∧
        ∀ n k, n < 8 → k < 16 → t.opMv n k = (if vtableOk n = true then (Config.fuseVoltage n k).toNat else 640 + 27 * k)) ∧
      (s.flag KPR_ID_INFO F.KPR_ID_INFO_ERASE_PENDING = true → t.flag KPR_ID_INFO F.KPR_ID_INFO_ERASE_PENDING = false ∧
        t.flag KPR_ID_INFO F.KPR_ID_INFO_DEBUG_OPENED = true ∧ t.flag KPR_ID_INFO F.KPR_ID_INFO_PROVISIONED = false ∧
        ∀ a, inFlash a = true → Sparse.get t.mem a = 0) ∧
      (s.flag KPR_ID_INFO F.KPR_ID_INFO_ERASE_PENDING = false → t.mem = s.mem ∧ t.reg KPR_ID_INFO = s.reg KPR_ID_INFO)) ∧
    (s.atStage 2 = true → ∀ slot f, slot = s.boot.selected → slot < 2 → f = s.verifyChart (s.slotImage slot) →
      ∃ t, exec (.stageChart ms) s = .next t ∧ StageEnded s t 2 ms ∧ t.mem = s.mem ∧
        (s.slotPresent slot = true → t.fld (slotReg slot) F.CHT_SLOT_A_FAIL = f) ∧
        (s.slotPresent slot = true ∧ f = 0 → ChartIs s t (chartOf (s.slotImage slot)) slot ∧ t.fld CHT_STATUS F.CHT_STATUS_BOOT_FAIL = 0) ∧
        (s.slotPresent slot = true ∧ f ≠ 0 → ChartIs s t defaultChart 2 ∧ t.fld CHT_STATUS F.CHT_STATUS_BOOT_FAIL = f ∧
          t.flag CHT_ALARM F.CHT_ALARM_CHART_FALLBACK = true) ∧
        (s.slotPresent slot = false → ChartIs s t defaultChart 2 ∧ t.fld CHT_STATUS F.CHT_STATUS_BOOT_FAIL = 0 ∧ t.reg CHT_ALARM = s.reg CHT_ALARM)) ∧
    (s.atStage 3 = true → (∀ full, ∃ t, exec (.stageClocksAndNetwork none full ms) s = .next t ∧ StageEnded s t 3 ms ∧ t.pwr.clocks = true ∧
        (∀ n, n < 8 → t.opNow n = 9 ∧ t.opTarget n = 9) ∧ (full = true → t.flag KPR_BOOT_STATUS F.KPR_BOOT_STATUS_FULL = true) ∧ t.mem = s.mem) ∧
      (∀ full, ∃ t, exec (.stageClocksAndNetwork (some d) full ms) s = .next t ∧ BootFailed t d 1)) ∧
    (s.atStage 4 = true → ∀ dimm gib mts full, dimm < 4 → gib < 512 → mts < 16384 →
      (∃ t, exec (.stageMemories none dimm gib mts full ms) s = .next t ∧ StageEnded s t 4 ms ∧
        (∀ n, n < 16 → t.fld (HBM_STATUS n) F.HBM_STATUS_STATE = 2) ∧
        t.fld HST_DRAM_STATUS F.HST_DRAM_STATUS_STATE = (if dimm = 0 then 0 else if dimmOk dimm gib mts = true then 2 else 3) ∧
        t.fld DFT_STATUS F.DFT_STATUS_USER_TIB = s.userTib ∧ t.flash.loss = none ∧
        (s.flash.loss ≠ none → t.flag DFT_PL_RECORD F.DFT_PL_RECORD_VALID = true ∧ t.flag DFT_ALARM F.DFT_ALARM_FLASH_POWER_LOSS = true) ∧ t.mem = s.mem) ∧
      (∀ n, n < 16 → ∃ t, exec (.stageMemories (some n) dimm gib mts full ms) s = .next t ∧ BootFailed t (n / 2) 2 ∧
        t.fld (HBM_STATUS n) F.HBM_STATUS_STATE = 3)) ∧
    (s.atStage 5 = true → ∀ pcie full, ∃ t, exec (.stageLinks pcie full ms) s = .next t ∧ StageEnded s t 5 ms ∧
      (∀ p, p < 8 → t.reg (HST_PORT_STATUS p) = BitVec.ofNat 64 (((pcie[p]?).getD 0) &&& 0x101F7)) ∧
      (∀ i, t.domainOn i = (s.domainOn i || s.opticsDomains.contains i)) ∧ t.mem = s.mem) ∧
    (s.atStage 6 = true → (∃ t, exec (.stageCompute none ms) s = .next t ∧ StageEnded s t 6 ms ∧ t.boot.pwrOk = true ∧
        (∀ i, t.domainOn i = (s.domainOn i || clusterDomains.contains i || s.hostDomains.contains i)) ∧ t.mem = s.mem) ∧
      (∃ t, exec (.stageCompute (some d) ms) s = .next t ∧ BootFailed t d 5)) ∧
    (1 ≤ ms → s.boot.powered = true → s.log.final = false → ∃ t, exec (.sysReset ms) s = .next t ∧ ResetTo t ∧ t.domains = s.domains ∧
      t.boot.powered = true ∧ t.boot.endCause = 6 ∧ ∀ a, inFlash a = true → Sparse.get t.mem a = Sparse.get s.mem a)

end

namespace Sys2Proof.Claims
open Sys2Proof.Machine

/-- The Keeper has taken a message and answered it with a word: a partition's reply stands in its K2H mailbox, or waits where that has no room; the sideband's stands
behind the replies before it (R562, R602). -/
def Answered (s t : State) (m : KeeperSource) (w : Word) : Prop :=
  (∀ p, m = .mailbox p → (t.mbox (3 * p + 1)).entries = (s.mbox (3 * p + 1)).entries.drop 1 ∧ t.boot.sideband = s.boot.sideband ∧
    (s.k2hRoom p = true → (t.mbox (3 * p + 2)).entries = (s.mbox (3 * p + 2)).entries ++ [w] ∧ t.boot.replies = s.boot.replies) ∧
    (s.k2hRoom p = false → (t.mbox (3 * p + 2)).entries = (s.mbox (3 * p + 2)).entries ∧ t.boot.replies = s.boot.replies ++ [(p, w)])) ∧
  (∀ e, m = .sideband e → t.boot.sideband = s.boot.sideband ++ [w] ∧ t.boot.replies = s.boot.replies ∧ t.xq = s.xq)

/-- The sideband is answered with a status, and no block is under way any more (R602). -/
def BlockAnswered (s t : State) (entry status : Nat) : Prop :=
  t.boot.block = none ∧ ∃ v, t.boot.sideband = s.boot.sideband ++ [replyWord entry status v]

/-- The Keeper's stores of Charts, licences and the selection are as before. -/
def SameStores (s t : State) : Prop :=
  t.boot.slotA = s.boot.slotA ∧ t.boot.slotB = s.boot.slotB ∧ t.boot.selected = s.boot.selected ∧ t.boot.licences = s.boot.licences ∧
  t.boot.invalidAll = s.boot.invalidAll

end Sys2Proof.Claims

section
open Sys2Proof Sys2Proof.Machine Sys2Proof.Claims

/-- The Keeper answers PING with its argument, writes the identity for IDENTITY, checks a token for DEBUG_OPEN and sets out to open the port, and answers an OP it does
not know with 4; DEBUG_OPENED erases the secrets and opens the port; a reply that waits goes out with KEEPER_REPLY; the sideband reads its oldest reply with
SB_REPLY_READ, and SB_BLOCK and SB_BLOCK_TIMEOUT take and answer a block (R335, R559 to R562, R602 to R604, R613). -/
def Obligations.KeeperAnswers : Prop :=
  (∀ (s : State) (m : KeeperSource) (e : Nat), s.offered m = some e →
    (e % 256 = 1 → ∃ t, exec (.ping m) s = .next t ∧ Answered s t m (replyWord e 0 (e / 65536 % 2 ^ 40)) ∧ t.regs = s.regs ∧ t.mem = s.mem) ∧
    (e % 256 ∉ knownOps m → ∃ t v, exec (.ping m) s = .next t ∧ Answered s t m (replyWord e 4 v) ∧ t.regs = s.regs ∧ t.mem = s.mem) ∧
    (e % 256 = 2 → s.boot.recovery = false → s.senderPinned m (messageAddr e) 128 = true → s.flag KPR_ID_INFO F.KPR_ID_INFO_PROVISIONED = true →
      ∃ t v, exec (.identity m) s = .next t ∧ Answered s t m (replyWord e 0 v) ∧
      (s.region (messageAddr e) = .hbm → s.region (messageAddr e + 64) = .hbm →
        (∀ i, i < 16 → t.byteAt (messageAddr e + i) = (leBytes 8 (s.reg KPR_ID_DEVICE).toNat ++ leBytes 8 (s.reg KPR_ID_INFO).toNat)[i]?.getD 0) ∧
        (∀ i, i < 97 → i < (Config.identityPoint s.boot.identity).length →
          t.byteAt (messageAddr e + 16 + i) = (Config.identityPoint s.boot.identity)[i]?.getD 0) ∧
        ∀ a, a < messageAddr e ∨ messageAddr e + 128 ≤ a → t.byteAt a = s.byteAt a)) ∧
    (e % 256 = 2 → s.boot.recovery = false → s.senderPinned m (messageAddr e) 128 = false ∨ s.flag KPR_ID_INFO F.KPR_ID_INFO_PROVISIONED = false →
      ∃ t st v, exec (.identity m) s = .next t ∧ Answered s t m (replyWord e st v) ∧ t.mem = s.mem ∧ t.regs = s.regs ∧
      (st = 2 ∧ s.senderPinned m (messageAddr e) 128 = false ∨ st = 5 ∧ s.flag KPR_ID_INFO F.KPR_ID_INFO_PROVISIONED = false)) ∧
    (e % 256 = 3 → s.boot.recovery = false → s.sender m ≠ s.service? → ∃ t v, exec (.debugOpen m) s = .next t ∧ Answered s t m (replyWord e 1 v) ∧ t.regs = s.regs) ∧
    (e % 256 = 3 → s.boot.recovery = false → s.sender m = s.service? → s.senderPinned m (messageAddr e) 192 = false →
      ∃ t v, exec (.debugOpen m) s = .next t ∧ Answered s t m (replyWord e 2 v) ∧ t.regs = s.regs) ∧
    (e % 256 = 3 → s.boot.recovery = false → s.sender m = s.service? → s.senderPinned m (messageAddr e) 192 = true →
      ∃ t v, exec (.debugOpen m) s = .next t ∧ t.reg KPR_DBG_NONCE = s.anyWord ∧
      (s.tokenOk (s.rdMem (messageAddr e) 192).1 = true → Answered s t m (replyWord e 0 v) ∧ t.flag KPR_ID_INFO F.KPR_ID_INFO_ERASE_PENDING = true ∧
        t.boot.opening = true ∧ ∀ d, Table.get? t.eng.runs d = none) ∧
      (s.tokenOk (s.rdMem (messageAddr e) 192).1 = false → Answered s t m (replyWord e 3 v) ∧ t.reg KPR_ID_INFO = s.reg KPR_ID_INFO ∧ t.boot.opening = s.boot.opening ∧
        t.eng.runs = s.eng.runs))) ∧
  (∀ (s : State),
    (s.boot.opening = true → ∃ t, exec .debugOpened s = .next t ∧ t.boot.portOpen = true ∧ t.boot.opening = false ∧
      t.flag KPR_ID_INFO F.KPR_ID_INFO_ERASE_PENDING = false ∧ t.flag KPR_ID_INFO F.KPR_ID_INFO_DEBUG_OPENED = true ∧
      t.flag KPR_ID_INFO F.KPR_ID_INFO_PROVISIONED = false ∧ t.flag DFT_STATUS F.DFT_STATUS_NO_KEYS = true ∧ (∀ l ∈ t.boot.licences, l.tag = []) ∧
      (∀ a, Sparse.get t.mem a = (if inFlash a = true then 0 else Sparse.get s.mem a))) ∧
    (∀ p r, s.boot.replies.find? (fun r => r.1 = p) = some r → s.k2hRoom p = true → ∃ t, exec (.keeperReply p) s = .next t ∧
      (t.mbox (3 * p + 2)).entries = (s.mbox (3 * p + 2)).entries ++ [r.2] ∧ t.boot.replies = s.boot.replies.erase r ∧ t.regs = s.regs ∧ t.mem = s.mem) ∧
    (s.keeperOn = true → (s.boot.sideband = [] → ∃ t, exec .sbReplyRead s = .next t ∧ t = s.setResp 0) ∧
      (∀ w rest, s.boot.sideband = w :: rest → ∃ t, exec .sbReplyRead s = .next t ∧ t.resp = w ∧ t.boot = { s.boot with sideband := rest } ∧ t.regs = s.regs)) ∧
    (∀ e l, s.boot.block = some (e, l) → ∃ t, exec .sbBlockTimeout s = .next t ∧ BlockAnswered s t e 8 ∧ t.regs = s.regs ∧ t.mem = s.mem)) ∧
  (∀ (s : State) (first e n kind : Nat) (raw all : List Nat), s.keeperOn = true → n = e / 2 ^ 24 % 2 ^ 24 → kind = e / 65536 % 256 →
    (s.boot.block = none ∧ first = e ∧ all = raw ∧ e % 256 = 0x20 ∧ (s.boot.recovery = false ∨ kind = 1 ∨ kind = 2)) ∨
      (∃ l, s.boot.block = some (e, l) ∧ all = l ++ first :: raw) →
    ∃ t, exec (.sbBlock first raw) s = .next t ∧ t.mem = s.mem ∧
    (all.length < n → t.boot = { s.boot with block := some (e, all) } ∧ t.regs = s.regs) ∧
    (n ≤ all.length → kind = s.boot.firmware → kind ≠ 0 → BlockAnswered s t e 7 ∧ t.regs = s.regs) ∧
    (n ≤ all.length → kind ≠ s.boot.firmware ∨ kind = 0 → kind = 0 ∨ 3 < kind ∨ Config.blockVerifies kind (all.take n) = false → BlockAnswered s t e 6 ∧ t.regs = s.regs) ∧
    (n ≤ all.length → kind ≠ s.boot.firmware → 1 ≤ kind → kind ≤ 3 → Config.blockVerifies kind (all.take n) = true → BlockAnswered s t e 0 ∧
      (kind ≠ 3 → t.regs = s.regs) ∧
      (kind = 3 → t.flag KPR_ID_INFO F.KPR_ID_INFO_PROVISIONED = true ∧
        (∀ i, i < 4 → ((t.fld KPR_ID_INFO F.KPR_ID_INFO_CHART_KEYS).testBit i ↔
          (s.fld KPR_ID_INFO F.KPR_ID_INFO_CHART_KEYS).testBit i ∨ (Config.provisionSlots (all.take n)).testBit i)) ∧
        (s.flag KPR_ID_INFO F.KPR_ID_INFO_PROVISIONED = true → t.boot.identity = s.boot.identity ∧ KeepRegs s t [KPR_ID_INFO]) ∧
        (s.flag KPR_ID_INFO F.KPR_ID_INFO_PROVISIONED = false → t.boot.identity = s.boot.identity + 1 ∧ t.flag DFT_STATUS F.DFT_STATUS_NO_KEYS = false))))

/-- CHT_COMMAND_END: the command's bit reads 0, OP_STATUS shows success or failure and OP_FAIL its code; a command that succeeds has its effect, one that fails none; the
next waiting command starts; RESET resets the package. SPARE_MAPPING_EFFECT puts a spare behind a matrix engine in the watch named for it
(R8, R541, R552 to R555, R558, R566). -/
def Obligations.ChartCommandsEnd : Prop :=
  (∀ (s : State) (op : ChtOp) (slot f : Nat) (image : List Byte), s.boot.chtRun = some (op, slot, f, image) → slot < 2 → f < 16 →
    (op = .reset → ∃ t, exec .chtCommandEnd s = .next t ∧ ResetTo t ∧ t.domains = s.domains ∧ t.boot.endCause = 7 ∧ t.boot.powered = s.boot.powered) ∧
    (op ≠ .reset → ∃ t, exec .chtCommandEnd s = .next t ∧ t.flag CHT_CTRL op.bit = false ∧ t.fld CHT_STATUS F.CHT_STATUS_OP_FAIL = f ∧ t.mem = s.mem ∧
      (s.boot.chtQueue = [] → t.boot.chtRun = none ∧ t.fld CHT_STATUS F.CHT_STATUS_OP_STATUS = (if f = 0 then 2 else 3) ∧ t.boot.chtQueue = []) ∧
      (∀ o rest, s.boot.chtQueue = o :: rest → t.boot.chtQueue = rest ∧ t.fld CHT_STATUS F.CHT_STATUS_OP_STATUS = 1 ∧ ∃ x, t.boot.chtRun = some (o, x)) ∧
      (f ≠ 0 → SameStores s t) ∧
      (f = 0 → op = .write → t.slotImage slot = image ∧ t.slotImage (1 - slot) = s.slotImage (1 - slot) ∧ t.boot.selected = s.boot.selected ∧
        (s.boot.chtQueue = [] → t.slotPresent slot = true ∧ t.fld (slotReg slot) F.CHT_SLOT_A_SERIAL = leAt image 20 4 ∧
          t.fld (slotReg slot) F.CHT_SLOT_A_FAIL = 0)) ∧
      (f = 0 → op = .select → t.boot.selected = slot ∧ t.fld CHT_STATUS F.CHT_STATUS_SELECTED = slot ∧ t.boot.slotA = s.boot.slotA ∧ t.boot.slotB = s.boot.slotB) ∧
      (f = 0 → op = .install → ∀ l, l ∈ t.boot.licences ↔
        l = ⟨image, Config.hmacTag s.boot.identity image⟩ ∨ l ∈ s.boot.licences ∧ leAt l.image 32 4 ≠ leAt image 32 4) ∧
      (f = 0 → op = .invalidate → t.boot.invalidAll = true ∧ t.boot.saved = s.boot.saved))) ∧
  (∀ (s : State), ∃ t, exec .spareMappingEffect s = .next t ∧ t.mem = s.mem ∧ t.ft.mapping = s.ft.mapping.filter (fun m => s.watch < m.2.2) ∧
    (∀ d i phys w, d < 8 → i < 16 → phys < 18 → s.ft.mapping.filter (fun m => m.2.2 ≤ s.watch) = [(eId d 0 i, phys, w)] →
      t.fld (TD_ME_STATUS d i) F.TD_ME_STATUS_PHYS = phys ∧
      KeepRegs s t [TD_ME_STATUS d i, TD_ME_MAP0 d, TD_ME_MAP1 d, TD_ME_SPARES d]))

end

section
open Sys2Proof Sys2Proof.Machine Sys2Proof.Claims

/-- Field test: loaded patterns make a unit ready, poisoned ones make its current test a known-answer test; a segment starts in a gap or in the unit's reserved window and
shows the engine under test; it ends with the unit's next segment, with a pass that brings a SUSPECT unit nearer to NORMAL, or with a failure that is counted and
recorded and makes the unit SUSPECT, DEFECTIVE as a spare, or RETIRED; a starved unit and a SUSPECT one whose test is due get reserved windows; a retired engine
without a spare becomes unavailable. No data, plan or run changes (R567 to R576). -/
def Obligations.FieldTestsRun : Prop :=
  ∀ (s : State) (u : Nat), unitExists u = true →
    ((s.unit u).state < 2 → s.methodOf u = 0 → s.underTest u = none →
      (∃ t, exec (.patternLoadDone u false) s = .next t ∧ t.unit u = { s.unit u with loaded := true } ∧ (∀ x, x ≠ u → t.unit x = s.unit x) ∧
        t = s.setFt t.ft) ∧
      (∃ t, exec (.patternLoadDone u true) s = .next t ∧ t.unit u = { s.unit u with method := 1, segment := 0, loaded := false } ∧ t.methodOf u = 1 ∧
        (∀ x, x ≠ u → t.unit x = s.unit x) ∧ t.flag FTS_ALARM F.FTS_ALARM_FT_LIBRARY = true ∧ t.mem = s.mem ∧ t.adm = s.adm ∧ t.eng = s.eng)) ∧
    (s.boot.powered = true → s.testWanted u = true → Table.get? s.ft.running (eDie u) = none → s.methodOf u = 1 ∨ (s.unit u).loaded = true →
      ∀ e, s.unitEngine u = e →
      ((∀ w ∈ s.ft.windows, w.unit = u → w.watch ≠ s.watch) → (s.unit u).state = 0 → (s.unit u).starved = false → (s.unit u).reserved = false → s.unitIdle u = true →
        ∃ t, exec (.ftSegmentStart u) s = .next t ∧ t.underTest u = some false ∧
        (t.unit u).segment = (if s.methodOf u = (s.unit u).method then (s.unit u).segment else 0) ∧ (t.unit u).due = true ∧
        ((t.unit u).segment = 0 → (t.unit u).began = s.poweredTime) ∧ (∀ x k f, e = some x → statusKey x = some (k, f) → t.fld k f = 3) ∧
        t.mem = s.mem ∧ t.adm = s.adm ∧ t.eng = s.eng) ∧
      (∀ w ∈ s.ft.windows, w.unit = u → w.watch = s.watch → s.granule ≤ w.gran → (∀ x, e = some x → Table.get? s.eng.runs x = none) →
        ∃ t, exec (.ftSegmentStart u) s = .next t ∧ t.underTest u = some true ∧ (t.unit u).due = true ∧
        (∀ x k f, e = some x → statusKey x = some (k, f) → t.fld k f = 3) ∧ t.mem = s.mem ∧ t.adm = s.adm ∧ t.eng = s.eng)) ∧
    (s.underTest u ≠ none → ∀ x, s.unit u = x →
      (∃ t, exec (.ftSegmentEnd u false) s = .next t ∧ Table.get? t.ft.running (eDie u) = none ∧ Counts s t FTS_TESTS 1 ∧ Counts s t FTS_FAILS 1 ∧
        t.flag FTS_ALARM F.FTS_ALARM_FT_FAIL = true ∧ t.fld FTS_FAIL_LAST F.FTS_FAIL_LAST_UNIT = u ∧ t.fld FTS_FAIL_LAST F.FTS_FAIL_LAST_SEGMENT = x.segment % 65536 ∧
        t.flag FTS_FAIL_LAST F.FTS_FAIL_LAST_VALID = true ∧
        (∀ fails, fails = (if x.state = 1 then x.fails + 1 else 1) → (t.unit u).fails = fails ∧ (t.unit u).passes = 0 ∧ (t.unit u).segment = 0 ∧
          (t.unit u).state = (if s.isSpare u = true then 3 else if orElse (fget x.tune F.FTS_X_TUNE_RETIRE_AFTER) 3 ≤ fails then 2 else 1)) ∧
        (∀ w ∈ t.ft.windows, w.unit ≠ u) ∧ (∀ y, y ≠ u → t.unit y = s.unit y) ∧ t.mem = s.mem ∧ t.adm = s.adm ∧ t.eng = s.eng) ∧
      (x.segment + 1 < s.segmentsOf u → ∃ t, exec (.ftSegmentEnd u true) s = .next t ∧ Table.get? t.ft.running (eDie u) = none ∧
        t.unit u = { x with segment := x.segment + 1, aborts := 0, loaded := false } ∧ (∀ y, y ≠ u → t.unit y = s.unit y) ∧
        t.reg FTS_TESTS = s.reg FTS_TESTS ∧ t.mem = s.mem ∧ t.adm = s.adm ∧ t.eng = s.eng) ∧
      (s.segmentsOf u ≤ x.segment + 1 → ∃ t, exec (.ftSegmentEnd u true) s = .next t ∧ Table.get? t.ft.running (eDie u) = none ∧ Counts s t FTS_TESTS 1 ∧
        t.reg FTS_FAILS = s.reg FTS_FAILS ∧ (t.unit u).passWatch = x.start ∧ (t.unit u).completed = x.began ∧ (t.unit u).segment = 0 ∧ (t.unit u).due = false ∧
        (t.unit u).state = (if x.state = 1 ∧ 8 ≤ x.passes + 1 then 0 else x.state) ∧ (x.state = 1 → (t.unit u).passes = min 8 (x.passes + 1)) ∧
        (∀ y, y ≠ u → t.unit y = s.unit y) ∧ t.mem = s.mem ∧ t.adm = s.adm ∧ t.eng = s.eng)) ∧
    ((s.unit u).state < 2 → (s.unit u).starved = false → (s.unit u).completed + (watchesOfHours 48 : Int) ≤ s.poweredTime →
      ∃ t, exec (.ftStarved u) s = .next t ∧ (t.unit u).starved = true ∧ (t.unit u).reserved = true ∧ (t.unit u).due = true ∧
      t.flag FTS_ALARM F.FTS_ALARM_FT_STARVED = true ∧ (∀ y, y ≠ u → t.unit y = s.unit y) ∧ t.mem = s.mem ∧ t.adm = s.adm ∧ t.eng = s.eng) ∧
    ((s.unit u).state = 1 → (s.unit u).began + (s.obsInterval : Int) ≤ s.poweredTime → s.underTest u = none → s.windowsAhead u = [] →
      ∃ t, exec (.ftTestDue u) s = .next t ∧ (t.unit u).reserved = true ∧ (t.unit u).due = true ∧ t = s.setFt t.ft ∧
      t.ft.windows.length = s.ft.windows.length + (s.segmentsOf u - (s.unit u).segment) ∧
      ∀ w ∈ t.ft.windows, w ∈ s.ft.windows ∨ w.unit = u ∧ s.watch + 2 ≤ w.watch) ∧
    (∀ e w, (e, w) ∈ s.ft.leaving → s.engineSource e = u → w ≤ s.watch → (∀ x ∈ s.ft.leaving, s.engineSource x.1 = u → x = (e, w)) →
      ∃ t, exec (.unitUnavailable u) s = .next t ∧ t.ft.unavailable = e :: s.ft.unavailable ∧ (∀ x, x ∈ t.ft.leaving ↔ x ∈ s.ft.leaving ∧ x.1 ≠ e) ∧
      t.mem = s.mem ∧ t.adm = s.adm ∧ t.eng = s.eng)

/-- The Logbook: the oldest entry of a die's queue is taken, an event is recorded while its source is below its limit and counted as suppressed beyond it, a trace goes
into the trace ring or is dropped; the end of a window writes one record for each source that was suppressed and each die that dropped traces; an incident closes
QUIET; the selected 64 bytes are shown (R580, R581, R583 to R585, R588, R592). -/
def Obligations.LogbookKeepsRecords : Prop :=
  (∀ (s : State) (die : Nat) (rest : List LogItem), s.log.final = false →
    (∀ source part code watch tick args w, s.logQueue die = .event source part code watch tick args :: rest →
      w = (Table.get? s.log.windows source).getD {} → ∃ t, exec (.logEventReceive die) s = .next t ∧ t.logQueue die = rest ∧ t.mem = s.mem ∧
      (w.sent < s.eventLimit → Counts s t LOG_SEQ 1 ∧ t.reg LOG_SUPPRESSED = s.reg LOG_SUPPRESSED ∧
        Table.get? t.log.windows source = some { w with sent := w.sent + 1 } ∧
        (s.flag LOG_STATUS F.LOG_STATUS_OPEN = false → Table.get? t.log.ambient (s.log.ambientHead % 16384) =
          some ⟨2, part, source, code, watch, s.log.boots, tick, (s.reg LOG_SEQ).toNat, args⟩ ∧ t.log.ambientHead = s.log.ambientHead + 1)) ∧
      (s.eventLimit ≤ w.sent → Counts s t LOG_SUPPRESSED 1 ∧ t.reg LOG_SEQ = s.reg LOG_SEQ ∧
        Table.get? t.log.windows source = some { w with suppressed := w.suppressed + 1, first := if w.suppressed = 0 then code else w.first })) ∧
    (∀ engine kind part plan index watch tick a, s.logQueue die = .trace engine kind part plan index watch tick :: rest →
      a = s.addr LOG_TRACE_ADDR F.LOG_TRACE_ADDR_ADDR_LO F.LOG_TRACE_ADDR_ADDR_HI + (s.reg LOG_TRACE_HEAD).toNat % max s.traceRing 1 * 32 →
      ∃ t, exec (.logEventReceive die) s = .next t ∧ t.logQueue die = rest ∧
      (s.traceRing ≠ 0 → s.servicePinned a 32 = true → s.region a = .hbm → Counts s t LOG_TRACE_HEAD 1 ∧ t.reg LOG_TRACE_DROPS = s.reg LOG_TRACE_DROPS ∧
        (∀ i, i < 32 → t.byteAt (a + i) = (traceBytes engine kind part plan index watch tick)[i]?.getD 0) ∧
        ∀ x, x < a ∨ a + 32 ≤ x → t.byteAt x = s.byteAt x) ∧
      (s.traceRing = 0 ∨ s.servicePinned a 32 = false → Counts s t LOG_TRACE_DROPS 1 ∧ t.mem = s.mem ∧ KeepRegs s t [LOG_TRACE_DROPS] ∧
        Table.get? t.log.drops die = some ((Table.get? s.log.drops die).getD 0 + 1)))) ∧
  (∀ (s : State), s.log.final = false →
    (s.watch % 4096 = 0 → ∃ t, exec .logWindowEnd s = .next t ∧ t.log.windows = [] ∧ t.log.drops = [] ∧
      Counts s t LOG_SEQ ((s.log.windows.filter (fun w => w.2.suppressed ≠ 0)).length + (s.log.drops.filter (fun d => d.2 ≠ 0)).length) ∧
      KeepRegs s t [LOG_SEQ] ∧ t.mem = s.mem ∧ t.log.queues = s.log.queues) ∧
    (∀ i slot, slot = s.fld LOG_STATUS F.LOG_STATUS_SLOT → Table.get? s.log.incidents slot = some i → s.flag LOG_STATUS F.LOG_STATUS_OPEN = true →
      i.lastWatch + s.quietWatches ≤ s.watch → ∃ t, exec .incidentClose s = .next t ∧ t.flag LOG_STATUS F.LOG_STATUS_OPEN = false ∧
      Table.get? t.log.incidents slot = some { i with close := 1 } ∧ KeepRegs s t [LOG_STATUS] ∧ t = (s.setRegs t.regs).setLog t.log) ∧
    (s.log.reading = true → ∃ t, exec .logReadReady s = .next t ∧ t.flag LOG_STATUS F.LOG_STATUS_RD_READY = true ∧ t.log.reading = false ∧
      (∀ i, i < 8 → t.reg (LOG_RD_DATA i) = BitVec.ofNat 64
        (leAt (s.logBytes (s.fld LOG_RD_SEL F.LOG_RD_SEL_AREA) (s.fld LOG_RD_SEL F.LOG_RD_SEL_SLOT) (s.fld LOG_RD_SEL F.LOG_RD_SEL_INDEX)) (8 * i) 8)) ∧
      KeepRegs s t (LOG_STATUS :: (List.range 8).map LOG_RD_DATA) ∧ t = (s.setRegs t.regs).setLog t.log))

end

section
open Sys2Proof Sys2Proof.Machine Sys2Proof.Claims

/-- A step runs the command at the front of the queue on the state with the queue's rest, and on an empty queue the block idles, which is the model's choice (log entry 6);
no word of the operations table spells a command, so none is put in front. -/
def Obligations.StepRunsTheFrontCommand : Prop :=
  ∀ (s : State) (c : Instr) (rest : List Instr) (nbits w : Nat),
    step (s.setPending (c :: rest)) = exec c (s.setPending rest) ∧ (s.setPending (c :: rest)).setPending rest = s.setPending rest ∧
    step (s.setPending []) = .next (s.setPending []) ∧ decodeTableWord nbits w = none ∧ s.withFetchWord nbits w = s

/-- The package as it leaves reset: every register at the value of the register map (zero where the map gives none, which is the model's choice, log entries 1
and 2), no memory, cluster SRAM, plan, run, frame or cached line, unpowered with no command waiting, and its stores in canonical form
(R8, R14; the unpowered start is the model's). -/
def Obligations.ResetIsEmptyAndWellFormed : Prop :=
  State.reset.Inv ∧ State.reset.pending = [] ∧ State.reset.mem = [] ∧ State.reset.sram = [] ∧ State.reset.adm = {} ∧ State.reset.eng = {} ∧
  State.reset.tiers = {} ∧ State.reset.coh = [] ∧ State.reset.boot.powered = false ∧ State.reset.domains = 0 ∧
  (∀ k, State.reset.reg k = Sparse.get resetRegs k) ∧ State.reset.watch = 0 ∧ State.reset.tick = 0 ∧
  State.reset.fld PWR_MODE F.PWR_MODE_FIXED_OP = 9 ∧ State.reset.fld PWR_CAP F.PWR_CAP_CAP_W = 4800 ∧
  State.reset.fld LOG_CFG F.LOG_CFG_EVENT_LIMIT = 16 ∧ State.reset.flag FTS_CFG F.FTS_CFG_EN = true ∧ State.reset.reg WCH_RESV_PCT = 0x5A5A5A5A5A5A#64

/-- Every step completes, takes at most the command in front from the queue, and keeps registers, memory and cluster SRAM in canonical form: addresses strictly
rising, no entry that reads as an unlisted one does. It holds from every state, not only of runs from reset. -/
def Obligations.EveryStepCompletesAndKeepsCanonicalForm : Prop :=
  ∀ (s : State), ∃ t, step s = .next t ∧ t.pending = s.pending.tail ∧ (s.Inv → t.Inv) ∧ (s.pending = [] → t = s)

end
end

