-- ==== Sys2Proof/Laws/Sparse.lean ====
section
/-! SUPPORT. Sparse stores: reading back what was written, and the canonical form that every write keeps. -/
namespace Sys2Proof.Machine
set_option Elab.async false

variable {w : Nat}

/-- A form from a bound holds from every lower one. -/
theorem Sparse.wfFrom_le {l : List (Nat × BitVec w)} {m n : Nat} (h : m ≤ n) (hw : Sparse.wfFrom n l = true) : Sparse.wfFrom m l = true := by
  cases l with
  | nil => rfl
  | cons e l => simp only [Sparse.wfFrom, Bool.and_eq_true, decide_eq_true_eq] at hw ⊢; exact ⟨⟨by omega, hw.1.2⟩, hw.2⟩

/-- A key of a form from a bound lies at or above the bound. -/
theorem Sparse.wfFrom_mem {l : List (Nat × BitVec w)} {n : Nat} {e : Nat × BitVec w} (hw : Sparse.wfFrom n l = true) (he : e ∈ l) : n ≤ e.1 := by
  induction l generalizing n with
  | nil => simp at he
  | cons x l ih =>
    simp only [Sparse.wfFrom, Bool.and_eq_true, decide_eq_true_eq] at hw
    rcases List.mem_cons.1 he with rfl | h
    · exact hw.1.1
    · have := ih hw.2 h; omega

/-- Entering a value other than zero under a new key keeps the form. -/
theorem Sparse.wfFrom_insert {l : List (Nat × BitVec w)} {n k : Nat} {v : BitVec w} (hk : n ≤ k) (hv : v ≠ 0) (hn : ∀ e ∈ l, e.1 ≠ k)
    (hw : Sparse.wfFrom n l = true) : Sparse.wfFrom n (Sparse.insert l k v) = true := by
  induction l generalizing n with
  | nil => simpa [Sparse.insert, Sparse.wfFrom, hk] using hv
  | cons e l ih =>
    obtain ⟨a, x⟩ := e
    simp only [Sparse.wfFrom, Bool.and_eq_true, decide_eq_true_eq] at hw
    have ha : a ≠ k := hn (a, x) (List.mem_cons_self ..)
    unfold Sparse.insert
    split
    · simp only [Sparse.wfFrom, Bool.and_eq_true, decide_eq_true_eq]
      exact ⟨⟨hk, hv⟩, ⟨by omega, hw.1.2⟩, hw.2⟩
    · simp only [Sparse.wfFrom, Bool.and_eq_true, decide_eq_true_eq]
      exact ⟨hw.1, ih (by omega) (fun e he => hn e (List.mem_cons_of_mem _ he)) hw.2⟩

/-- Removing entries keeps the form. -/
theorem Sparse.wfFrom_filter {l : List (Nat × BitVec w)} {n : Nat} {p : Nat × BitVec w → Bool} (hw : Sparse.wfFrom n l = true) :
    Sparse.wfFrom n (l.filter p) = true := by
  induction l generalizing n with
  | nil => rfl
  | cons e l ih =>
    obtain ⟨a, x⟩ := e
    simp only [Sparse.wfFrom, Bool.and_eq_true, decide_eq_true_eq] at hw
    simp only [List.filter]
    split
    · simp only [Sparse.wfFrom, Bool.and_eq_true, decide_eq_true_eq]; exact ⟨hw.1, ih hw.2⟩
    · exact Sparse.wfFrom_le (by omega) (ih hw.2)

/-- Removing entries keeps the canonical form. -/
theorem Sparse.wf_filter {l : List (Nat × BitVec w)} {p : Nat × BitVec w → Bool} (hw : Sparse.wf l = true) : Sparse.wf (l.filter p) = true :=
  Sparse.wfFrom_filter hw

/-- A write keeps the canonical form. -/
theorem Sparse.wf_set {l : List (Nat × BitVec w)} {k : Nat} {v : BitVec w} (hw : Sparse.wf l = true) : Sparse.wf (Sparse.set l k v) = true := by
  unfold Sparse.set
  split
  · exact Sparse.wf_filter hw
  · exact Sparse.wfFrom_insert (Nat.zero_le k) (by assumption) (fun e he => by simpa using (List.mem_filter.1 he).2) (Sparse.wf_filter hw)

/-- A list without a key reads zero there. -/
theorem Sparse.get_absent {l : List (Nat × BitVec w)} {k : Nat} (h : ∀ e ∈ l, e.1 ≠ k) : Sparse.get l k = 0 := by
  induction l with
  | nil => rfl
  | cons e l ih =>
    have := h e (List.mem_cons_self ..)
    simp only [Sparse.get]
    rw [if_neg (fun h => this h.symm)]
    exact ih (fun e he => h e (List.mem_cons_of_mem _ he))

/-- Removing another key changes no read. -/
theorem Sparse.get_filter_other {l : List (Nat × BitVec w)} {k j : Nat} (hj : j ≠ k) :
    Sparse.get (l.filter (fun e => e.1 ≠ k)) j = Sparse.get l j := by
  induction l with
  | nil => rfl
  | cons e l ih =>
    obtain ⟨a, x⟩ := e
    by_cases ha : a = k
    · subst ha; simpa [Sparse.get, hj] using ih
    · simp only [List.filter_cons, ne_eq, ha, not_false_eq_true, decide_true, ite_true, Sparse.get]
      simp only [ne_eq] at ih
      rw [ih]

/-- A read after entering a value under a new key. -/
theorem Sparse.get_insert {l : List (Nat × BitVec w)} {k j : Nat} {v : BitVec w} (hn : ∀ e ∈ l, e.1 ≠ k) :
    Sparse.get (Sparse.insert l k v) j = if j = k then v else Sparse.get l j := by
  induction l with
  | nil => simp [Sparse.insert, Sparse.get]
  | cons e l ih =>
    obtain ⟨a, x⟩ := e
    have ha : a ≠ k := hn (a, x) (List.mem_cons_self ..)
    unfold Sparse.insert
    split
    · simp [Sparse.get]
    · simp only [Sparse.get]
      rw [ih (fun e he => hn e (List.mem_cons_of_mem _ he))]
      by_cases hj : j = a
      · subst hj; simp [ha]
      · simp [hj]

/-- A read of the key written gives the value written. -/
@[simp] theorem Sparse.get_set_same {l : List (Nat × BitVec w)} {k : Nat} {v : BitVec w} : Sparse.get (Sparse.set l k v) k = v := by
  have hn : ∀ e ∈ l.filter (fun e => e.1 ≠ k), e.1 ≠ k := fun e he => by simpa using (List.mem_filter.1 he).2
  unfold Sparse.set
  split
  · rw [Sparse.get_absent hn]; symm; assumption
  · rw [Sparse.get_insert hn, if_pos rfl]

/-- A read of another key gives what it gave before. -/
theorem Sparse.get_set_other {l : List (Nat × BitVec w)} {k j : Nat} {v : BitVec w} (hj : j ≠ k) :
    Sparse.get (Sparse.set l k v) j = Sparse.get l j := by
  have hn : ∀ e ∈ l.filter (fun e => e.1 ≠ k), e.1 ≠ k := fun e he => by simpa using (List.mem_filter.1 he).2
  unfold Sparse.set
  split
  · exact Sparse.get_filter_other hj
  · rw [Sparse.get_insert hn, if_neg hj, Sparse.get_filter_other hj]

end Sys2Proof.Machine
end

