-- ==== Sys2Proof/Laws/State.lean ====
section
/-! SUPPORT. One lemma per field per update of the state: what each update leaves and what it sets. -/
namespace Sys2Proof.Machine
set_option Elab.async false

variable (s : State)

@[simp] theorem State.setRegs_regs (x : List (Nat × Word)) : (s.setRegs x).regs = x := rfl
@[simp] theorem State.setRegs_mem (x : List (Nat × Word)) : (s.setRegs x).mem = s.mem := rfl
@[simp] theorem State.setRegs_sram (x : List (Nat × Word)) : (s.setRegs x).sram = s.sram := rfl
@[simp] theorem State.setRegs_poison (x : List (Nat × Word)) : (s.setRegs x).poison = s.poison := rfl
@[simp] theorem State.setRegs_resp (x : List (Nat × Word)) : (s.setRegs x).resp = s.resp := rfl
@[simp] theorem State.setRegs_free (x : List (Nat × Word)) : (s.setRegs x).free = s.free := rfl
@[simp] theorem State.setRegs_pending (x : List (Nat × Word)) : (s.setRegs x).pending = s.pending := rfl
@[simp] theorem State.setRegs_tb (x : List (Nat × Word)) : (s.setRegs x).tb = s.tb := rfl
@[simp] theorem State.setRegs_deferred (x : List (Nat × Word)) : (s.setRegs x).deferred = s.deferred := rfl
@[simp] theorem State.setRegs_tracker (x : List (Nat × Word)) : (s.setRegs x).tracker = s.tracker := rfl
@[simp] theorem State.setRegs_adm (x : List (Nat × Word)) : (s.setRegs x).adm = s.adm := rfl
@[simp] theorem State.setRegs_eng (x : List (Nat × Word)) : (s.setRegs x).eng = s.eng := rfl
@[simp] theorem State.setRegs_xq (x : List (Nat × Word)) : (s.setRegs x).xq = s.xq := rfl
@[simp] theorem State.setRegs_tiers (x : List (Nat × Word)) : (s.setRegs x).tiers = s.tiers := rfl
@[simp] theorem State.setRegs_flash (x : List (Nat × Word)) : (s.setRegs x).flash = s.flash := rfl
@[simp] theorem State.setRegs_hbm (x : List (Nat × Word)) : (s.setRegs x).hbm = s.hbm := rfl
@[simp] theorem State.setRegs_mmu (x : List (Nat × Word)) : (s.setRegs x).mmu = s.mmu := rfl
@[simp] theorem State.setRegs_coh (x : List (Nat × Word)) : (s.setRegs x).coh = s.coh := rfl
@[simp] theorem State.setRegs_pcie (x : List (Nat × Word)) : (s.setRegs x).pcie = s.pcie := rfl
@[simp] theorem State.setRegs_log (x : List (Nat × Word)) : (s.setRegs x).log = s.log := rfl
@[simp] theorem State.setRegs_ft (x : List (Nat × Word)) : (s.setRegs x).ft = s.ft := rfl
@[simp] theorem State.setRegs_boot (x : List (Nat × Word)) : (s.setRegs x).boot = s.boot := rfl
@[simp] theorem State.setRegs_exp (x : List (Nat × Word)) : (s.setRegs x).exp = s.exp := rfl
@[simp] theorem State.setRegs_lnk (x : List (Nat × Word)) : (s.setRegs x).lnk = s.lnk := rfl
@[simp] theorem State.setRegs_col (x : List (Nat × Word)) : (s.setRegs x).col = s.col := rfl
@[simp] theorem State.setRegs_upd (x : List (Nat × Word)) : (s.setRegs x).upd = s.upd := rfl
@[simp] theorem State.setRegs_probe (x : List (Nat × Word)) : (s.setRegs x).probe = s.probe := rfl
@[simp] theorem State.setRegs_draws (x : List (Nat × Word)) : (s.setRegs x).draws = s.draws := rfl
@[simp] theorem State.setRegs_pwr (x : List (Nat × Word)) : (s.setRegs x).pwr = s.pwr := rfl
@[simp] theorem State.setMem_regs (x : List Host.Cell) : (s.setMem x).regs = s.regs := rfl
@[simp] theorem State.setMem_mem (x : List Host.Cell) : (s.setMem x).mem = x := rfl
@[simp] theorem State.setMem_sram (x : List Host.Cell) : (s.setMem x).sram = s.sram := rfl
@[simp] theorem State.setMem_poison (x : List Host.Cell) : (s.setMem x).poison = s.poison := rfl
@[simp] theorem State.setMem_resp (x : List Host.Cell) : (s.setMem x).resp = s.resp := rfl
@[simp] theorem State.setMem_free (x : List Host.Cell) : (s.setMem x).free = s.free := rfl
@[simp] theorem State.setMem_pending (x : List Host.Cell) : (s.setMem x).pending = s.pending := rfl
@[simp] theorem State.setMem_tb (x : List Host.Cell) : (s.setMem x).tb = s.tb := rfl
@[simp] theorem State.setMem_deferred (x : List Host.Cell) : (s.setMem x).deferred = s.deferred := rfl
@[simp] theorem State.setMem_tracker (x : List Host.Cell) : (s.setMem x).tracker = s.tracker := rfl
@[simp] theorem State.setMem_adm (x : List Host.Cell) : (s.setMem x).adm = s.adm := rfl
@[simp] theorem State.setMem_eng (x : List Host.Cell) : (s.setMem x).eng = s.eng := rfl
@[simp] theorem State.setMem_xq (x : List Host.Cell) : (s.setMem x).xq = s.xq := rfl
@[simp] theorem State.setMem_tiers (x : List Host.Cell) : (s.setMem x).tiers = s.tiers := rfl
@[simp] theorem State.setMem_flash (x : List Host.Cell) : (s.setMem x).flash = s.flash := rfl
@[simp] theorem State.setMem_hbm (x : List Host.Cell) : (s.setMem x).hbm = s.hbm := rfl
@[simp] theorem State.setMem_mmu (x : List Host.Cell) : (s.setMem x).mmu = s.mmu := rfl
@[simp] theorem State.setMem_coh (x : List Host.Cell) : (s.setMem x).coh = s.coh := rfl
@[simp] theorem State.setMem_pcie (x : List Host.Cell) : (s.setMem x).pcie = s.pcie := rfl
@[simp] theorem State.setMem_log (x : List Host.Cell) : (s.setMem x).log = s.log := rfl
@[simp] theorem State.setMem_ft (x : List Host.Cell) : (s.setMem x).ft = s.ft := rfl
@[simp] theorem State.setMem_boot (x : List Host.Cell) : (s.setMem x).boot = s.boot := rfl
@[simp] theorem State.setMem_exp (x : List Host.Cell) : (s.setMem x).exp = s.exp := rfl
@[simp] theorem State.setMem_lnk (x : List Host.Cell) : (s.setMem x).lnk = s.lnk := rfl
@[simp] theorem State.setMem_col (x : List Host.Cell) : (s.setMem x).col = s.col := rfl
@[simp] theorem State.setMem_upd (x : List Host.Cell) : (s.setMem x).upd = s.upd := rfl
@[simp] theorem State.setMem_probe (x : List Host.Cell) : (s.setMem x).probe = s.probe := rfl
@[simp] theorem State.setMem_draws (x : List Host.Cell) : (s.setMem x).draws = s.draws := rfl
@[simp] theorem State.setMem_pwr (x : List Host.Cell) : (s.setMem x).pwr = s.pwr := rfl
@[simp] theorem State.setSram_regs (x : List Host.Cell) : (s.setSram x).regs = s.regs := rfl
@[simp] theorem State.setSram_mem (x : List Host.Cell) : (s.setSram x).mem = s.mem := rfl
@[simp] theorem State.setSram_sram (x : List Host.Cell) : (s.setSram x).sram = x := rfl
@[simp] theorem State.setSram_poison (x : List Host.Cell) : (s.setSram x).poison = s.poison := rfl
@[simp] theorem State.setSram_resp (x : List Host.Cell) : (s.setSram x).resp = s.resp := rfl
@[simp] theorem State.setSram_free (x : List Host.Cell) : (s.setSram x).free = s.free := rfl
@[simp] theorem State.setSram_pending (x : List Host.Cell) : (s.setSram x).pending = s.pending := rfl
@[simp] theorem State.setSram_tb (x : List Host.Cell) : (s.setSram x).tb = s.tb := rfl
@[simp] theorem State.setSram_deferred (x : List Host.Cell) : (s.setSram x).deferred = s.deferred := rfl
@[simp] theorem State.setSram_tracker (x : List Host.Cell) : (s.setSram x).tracker = s.tracker := rfl
@[simp] theorem State.setSram_adm (x : List Host.Cell) : (s.setSram x).adm = s.adm := rfl
@[simp] theorem State.setSram_eng (x : List Host.Cell) : (s.setSram x).eng = s.eng := rfl
@[simp] theorem State.setSram_xq (x : List Host.Cell) : (s.setSram x).xq = s.xq := rfl
@[simp] theorem State.setSram_tiers (x : List Host.Cell) : (s.setSram x).tiers = s.tiers := rfl
@[simp] theorem State.setSram_flash (x : List Host.Cell) : (s.setSram x).flash = s.flash := rfl
@[simp] theorem State.setSram_hbm (x : List Host.Cell) : (s.setSram x).hbm = s.hbm := rfl
@[simp] theorem State.setSram_mmu (x : List Host.Cell) : (s.setSram x).mmu = s.mmu := rfl
@[simp] theorem State.setSram_coh (x : List Host.Cell) : (s.setSram x).coh = s.coh := rfl
@[simp] theorem State.setSram_pcie (x : List Host.Cell) : (s.setSram x).pcie = s.pcie := rfl
@[simp] theorem State.setSram_log (x : List Host.Cell) : (s.setSram x).log = s.log := rfl
@[simp] theorem State.setSram_ft (x : List Host.Cell) : (s.setSram x).ft = s.ft := rfl
@[simp] theorem State.setSram_boot (x : List Host.Cell) : (s.setSram x).boot = s.boot := rfl
@[simp] theorem State.setSram_exp (x : List Host.Cell) : (s.setSram x).exp = s.exp := rfl
@[simp] theorem State.setSram_lnk (x : List Host.Cell) : (s.setSram x).lnk = s.lnk := rfl
@[simp] theorem State.setSram_col (x : List Host.Cell) : (s.setSram x).col = s.col := rfl
@[simp] theorem State.setSram_upd (x : List Host.Cell) : (s.setSram x).upd = s.upd := rfl
@[simp] theorem State.setSram_probe (x : List Host.Cell) : (s.setSram x).probe = s.probe := rfl
@[simp] theorem State.setSram_draws (x : List Host.Cell) : (s.setSram x).draws = s.draws := rfl
@[simp] theorem State.setSram_pwr (x : List Host.Cell) : (s.setSram x).pwr = s.pwr := rfl
@[simp] theorem State.setPoison_regs (x : List Nat) : (s.setPoison x).regs = s.regs := rfl
@[simp] theorem State.setPoison_mem (x : List Nat) : (s.setPoison x).mem = s.mem := rfl
@[simp] theorem State.setPoison_sram (x : List Nat) : (s.setPoison x).sram = s.sram := rfl
@[simp] theorem State.setPoison_poison (x : List Nat) : (s.setPoison x).poison = x := rfl
@[simp] theorem State.setPoison_resp (x : List Nat) : (s.setPoison x).resp = s.resp := rfl
@[simp] theorem State.setPoison_free (x : List Nat) : (s.setPoison x).free = s.free := rfl
@[simp] theorem State.setPoison_pending (x : List Nat) : (s.setPoison x).pending = s.pending := rfl
@[simp] theorem State.setPoison_tb (x : List Nat) : (s.setPoison x).tb = s.tb := rfl
@[simp] theorem State.setPoison_deferred (x : List Nat) : (s.setPoison x).deferred = s.deferred := rfl
@[simp] theorem State.setPoison_tracker (x : List Nat) : (s.setPoison x).tracker = s.tracker := rfl
@[simp] theorem State.setPoison_adm (x : List Nat) : (s.setPoison x).adm = s.adm := rfl
@[simp] theorem State.setPoison_eng (x : List Nat) : (s.setPoison x).eng = s.eng := rfl
@[simp] theorem State.setPoison_xq (x : List Nat) : (s.setPoison x).xq = s.xq := rfl
@[simp] theorem State.setPoison_tiers (x : List Nat) : (s.setPoison x).tiers = s.tiers := rfl
@[simp] theorem State.setPoison_flash (x : List Nat) : (s.setPoison x).flash = s.flash := rfl
@[simp] theorem State.setPoison_hbm (x : List Nat) : (s.setPoison x).hbm = s.hbm := rfl
@[simp] theorem State.setPoison_mmu (x : List Nat) : (s.setPoison x).mmu = s.mmu := rfl
@[simp] theorem State.setPoison_coh (x : List Nat) : (s.setPoison x).coh = s.coh := rfl
@[simp] theorem State.setPoison_pcie (x : List Nat) : (s.setPoison x).pcie = s.pcie := rfl
@[simp] theorem State.setPoison_log (x : List Nat) : (s.setPoison x).log = s.log := rfl
@[simp] theorem State.setPoison_ft (x : List Nat) : (s.setPoison x).ft = s.ft := rfl
@[simp] theorem State.setPoison_boot (x : List Nat) : (s.setPoison x).boot = s.boot := rfl
@[simp] theorem State.setPoison_exp (x : List Nat) : (s.setPoison x).exp = s.exp := rfl
@[simp] theorem State.setPoison_lnk (x : List Nat) : (s.setPoison x).lnk = s.lnk := rfl
@[simp] theorem State.setPoison_col (x : List Nat) : (s.setPoison x).col = s.col := rfl
@[simp] theorem State.setPoison_upd (x : List Nat) : (s.setPoison x).upd = s.upd := rfl
@[simp] theorem State.setPoison_probe (x : List Nat) : (s.setPoison x).probe = s.probe := rfl
@[simp] theorem State.setPoison_draws (x : List Nat) : (s.setPoison x).draws = s.draws := rfl
@[simp] theorem State.setPoison_pwr (x : List Nat) : (s.setPoison x).pwr = s.pwr := rfl
@[simp] theorem State.setResp_regs (x : Word) : (s.setResp x).regs = s.regs := rfl
@[simp] theorem State.setResp_mem (x : Word) : (s.setResp x).mem = s.mem := rfl
@[simp] theorem State.setResp_sram (x : Word) : (s.setResp x).sram = s.sram := rfl
@[simp] theorem State.setResp_poison (x : Word) : (s.setResp x).poison = s.poison := rfl
@[simp] theorem State.setResp_resp (x : Word) : (s.setResp x).resp = x := rfl
@[simp] theorem State.setResp_free (x : Word) : (s.setResp x).free = s.free := rfl
@[simp] theorem State.setResp_pending (x : Word) : (s.setResp x).pending = s.pending := rfl
@[simp] theorem State.setResp_tb (x : Word) : (s.setResp x).tb = s.tb := rfl
@[simp] theorem State.setResp_deferred (x : Word) : (s.setResp x).deferred = s.deferred := rfl
@[simp] theorem State.setResp_tracker (x : Word) : (s.setResp x).tracker = s.tracker := rfl
@[simp] theorem State.setResp_adm (x : Word) : (s.setResp x).adm = s.adm := rfl
@[simp] theorem State.setResp_eng (x : Word) : (s.setResp x).eng = s.eng := rfl
@[simp] theorem State.setResp_xq (x : Word) : (s.setResp x).xq = s.xq := rfl
@[simp] theorem State.setResp_tiers (x : Word) : (s.setResp x).tiers = s.tiers := rfl
@[simp] theorem State.setResp_flash (x : Word) : (s.setResp x).flash = s.flash := rfl
@[simp] theorem State.setResp_hbm (x : Word) : (s.setResp x).hbm = s.hbm := rfl
@[simp] theorem State.setResp_mmu (x : Word) : (s.setResp x).mmu = s.mmu := rfl
@[simp] theorem State.setResp_coh (x : Word) : (s.setResp x).coh = s.coh := rfl
@[simp] theorem State.setResp_pcie (x : Word) : (s.setResp x).pcie = s.pcie := rfl
@[simp] theorem State.setResp_log (x : Word) : (s.setResp x).log = s.log := rfl
@[simp] theorem State.setResp_ft (x : Word) : (s.setResp x).ft = s.ft := rfl
@[simp] theorem State.setResp_boot (x : Word) : (s.setResp x).boot = s.boot := rfl
@[simp] theorem State.setResp_exp (x : Word) : (s.setResp x).exp = s.exp := rfl
@[simp] theorem State.setResp_lnk (x : Word) : (s.setResp x).lnk = s.lnk := rfl
@[simp] theorem State.setResp_col (x : Word) : (s.setResp x).col = s.col := rfl
@[simp] theorem State.setResp_upd (x : Word) : (s.setResp x).upd = s.upd := rfl
@[simp] theorem State.setResp_probe (x : Word) : (s.setResp x).probe = s.probe := rfl
@[simp] theorem State.setResp_draws (x : Word) : (s.setResp x).draws = s.draws := rfl
@[simp] theorem State.setResp_pwr (x : Word) : (s.setResp x).pwr = s.pwr := rfl
@[simp] theorem State.setFree_regs (x : Nat) : (s.setFree x).regs = s.regs := rfl
@[simp] theorem State.setFree_mem (x : Nat) : (s.setFree x).mem = s.mem := rfl
@[simp] theorem State.setFree_sram (x : Nat) : (s.setFree x).sram = s.sram := rfl
@[simp] theorem State.setFree_poison (x : Nat) : (s.setFree x).poison = s.poison := rfl
@[simp] theorem State.setFree_resp (x : Nat) : (s.setFree x).resp = s.resp := rfl
@[simp] theorem State.setFree_free (x : Nat) : (s.setFree x).free = x := rfl
@[simp] theorem State.setFree_pending (x : Nat) : (s.setFree x).pending = s.pending := rfl
@[simp] theorem State.setFree_tb (x : Nat) : (s.setFree x).tb = s.tb := rfl
@[simp] theorem State.setFree_deferred (x : Nat) : (s.setFree x).deferred = s.deferred := rfl
@[simp] theorem State.setFree_tracker (x : Nat) : (s.setFree x).tracker = s.tracker := rfl
@[simp] theorem State.setFree_adm (x : Nat) : (s.setFree x).adm = s.adm := rfl
@[simp] theorem State.setFree_eng (x : Nat) : (s.setFree x).eng = s.eng := rfl
@[simp] theorem State.setFree_xq (x : Nat) : (s.setFree x).xq = s.xq := rfl
@[simp] theorem State.setFree_tiers (x : Nat) : (s.setFree x).tiers = s.tiers := rfl
@[simp] theorem State.setFree_flash (x : Nat) : (s.setFree x).flash = s.flash := rfl
@[simp] theorem State.setFree_hbm (x : Nat) : (s.setFree x).hbm = s.hbm := rfl
@[simp] theorem State.setFree_mmu (x : Nat) : (s.setFree x).mmu = s.mmu := rfl
@[simp] theorem State.setFree_coh (x : Nat) : (s.setFree x).coh = s.coh := rfl
@[simp] theorem State.setFree_pcie (x : Nat) : (s.setFree x).pcie = s.pcie := rfl
@[simp] theorem State.setFree_log (x : Nat) : (s.setFree x).log = s.log := rfl
@[simp] theorem State.setFree_ft (x : Nat) : (s.setFree x).ft = s.ft := rfl
@[simp] theorem State.setFree_boot (x : Nat) : (s.setFree x).boot = s.boot := rfl
@[simp] theorem State.setFree_exp (x : Nat) : (s.setFree x).exp = s.exp := rfl
@[simp] theorem State.setFree_lnk (x : Nat) : (s.setFree x).lnk = s.lnk := rfl
@[simp] theorem State.setFree_col (x : Nat) : (s.setFree x).col = s.col := rfl
@[simp] theorem State.setFree_upd (x : Nat) : (s.setFree x).upd = s.upd := rfl
@[simp] theorem State.setFree_probe (x : Nat) : (s.setFree x).probe = s.probe := rfl
@[simp] theorem State.setFree_draws (x : Nat) : (s.setFree x).draws = s.draws := rfl
@[simp] theorem State.setFree_pwr (x : Nat) : (s.setFree x).pwr = s.pwr := rfl
@[simp] theorem State.setPending_regs (x : List Instr) : (s.setPending x).regs = s.regs := rfl
@[simp] theorem State.setPending_mem (x : List Instr) : (s.setPending x).mem = s.mem := rfl
@[simp] theorem State.setPending_sram (x : List Instr) : (s.setPending x).sram = s.sram := rfl
@[simp] theorem State.setPending_poison (x : List Instr) : (s.setPending x).poison = s.poison := rfl
@[simp] theorem State.setPending_resp (x : List Instr) : (s.setPending x).resp = s.resp := rfl
@[simp] theorem State.setPending_free (x : List Instr) : (s.setPending x).free = s.free := rfl
@[simp] theorem State.setPending_pending (x : List Instr) : (s.setPending x).pending = x := rfl
@[simp] theorem State.setPending_tb (x : List Instr) : (s.setPending x).tb = s.tb := rfl
@[simp] theorem State.setPending_deferred (x : List Instr) : (s.setPending x).deferred = s.deferred := rfl
@[simp] theorem State.setPending_tracker (x : List Instr) : (s.setPending x).tracker = s.tracker := rfl
@[simp] theorem State.setPending_adm (x : List Instr) : (s.setPending x).adm = s.adm := rfl
@[simp] theorem State.setPending_eng (x : List Instr) : (s.setPending x).eng = s.eng := rfl
@[simp] theorem State.setPending_xq (x : List Instr) : (s.setPending x).xq = s.xq := rfl
@[simp] theorem State.setPending_tiers (x : List Instr) : (s.setPending x).tiers = s.tiers := rfl
@[simp] theorem State.setPending_flash (x : List Instr) : (s.setPending x).flash = s.flash := rfl
@[simp] theorem State.setPending_hbm (x : List Instr) : (s.setPending x).hbm = s.hbm := rfl
@[simp] theorem State.setPending_mmu (x : List Instr) : (s.setPending x).mmu = s.mmu := rfl
@[simp] theorem State.setPending_coh (x : List Instr) : (s.setPending x).coh = s.coh := rfl
@[simp] theorem State.setPending_pcie (x : List Instr) : (s.setPending x).pcie = s.pcie := rfl
@[simp] theorem State.setPending_log (x : List Instr) : (s.setPending x).log = s.log := rfl
@[simp] theorem State.setPending_ft (x : List Instr) : (s.setPending x).ft = s.ft := rfl
@[simp] theorem State.setPending_boot (x : List Instr) : (s.setPending x).boot = s.boot := rfl
@[simp] theorem State.setPending_exp (x : List Instr) : (s.setPending x).exp = s.exp := rfl
@[simp] theorem State.setPending_lnk (x : List Instr) : (s.setPending x).lnk = s.lnk := rfl
@[simp] theorem State.setPending_col (x : List Instr) : (s.setPending x).col = s.col := rfl
@[simp] theorem State.setPending_upd (x : List Instr) : (s.setPending x).upd = s.upd := rfl
@[simp] theorem State.setPending_probe (x : List Instr) : (s.setPending x).probe = s.probe := rfl
@[simp] theorem State.setPending_draws (x : List Instr) : (s.setPending x).draws = s.draws := rfl
@[simp] theorem State.setPending_pwr (x : List Instr) : (s.setPending x).pwr = s.pwr := rfl
@[simp] theorem State.setTb_regs (x : Timebase) : (s.setTb x).regs = s.regs := rfl
@[simp] theorem State.setTb_mem (x : Timebase) : (s.setTb x).mem = s.mem := rfl
@[simp] theorem State.setTb_sram (x : Timebase) : (s.setTb x).sram = s.sram := rfl
@[simp] theorem State.setTb_poison (x : Timebase) : (s.setTb x).poison = s.poison := rfl
@[simp] theorem State.setTb_resp (x : Timebase) : (s.setTb x).resp = s.resp := rfl
@[simp] theorem State.setTb_free (x : Timebase) : (s.setTb x).free = s.free := rfl
@[simp] theorem State.setTb_pending (x : Timebase) : (s.setTb x).pending = s.pending := rfl
@[simp] theorem State.setTb_tb (x : Timebase) : (s.setTb x).tb = x := rfl
@[simp] theorem State.setTb_deferred (x : Timebase) : (s.setTb x).deferred = s.deferred := rfl
@[simp] theorem State.setTb_tracker (x : Timebase) : (s.setTb x).tracker = s.tracker := rfl
@[simp] theorem State.setTb_adm (x : Timebase) : (s.setTb x).adm = s.adm := rfl
@[simp] theorem State.setTb_eng (x : Timebase) : (s.setTb x).eng = s.eng := rfl
@[simp] theorem State.setTb_xq (x : Timebase) : (s.setTb x).xq = s.xq := rfl
@[simp] theorem State.setTb_tiers (x : Timebase) : (s.setTb x).tiers = s.tiers := rfl
@[simp] theorem State.setTb_flash (x : Timebase) : (s.setTb x).flash = s.flash := rfl
@[simp] theorem State.setTb_hbm (x : Timebase) : (s.setTb x).hbm = s.hbm := rfl
@[simp] theorem State.setTb_mmu (x : Timebase) : (s.setTb x).mmu = s.mmu := rfl
@[simp] theorem State.setTb_coh (x : Timebase) : (s.setTb x).coh = s.coh := rfl
@[simp] theorem State.setTb_pcie (x : Timebase) : (s.setTb x).pcie = s.pcie := rfl
@[simp] theorem State.setTb_log (x : Timebase) : (s.setTb x).log = s.log := rfl
@[simp] theorem State.setTb_ft (x : Timebase) : (s.setTb x).ft = s.ft := rfl
@[simp] theorem State.setTb_boot (x : Timebase) : (s.setTb x).boot = s.boot := rfl
@[simp] theorem State.setTb_exp (x : Timebase) : (s.setTb x).exp = s.exp := rfl
@[simp] theorem State.setTb_lnk (x : Timebase) : (s.setTb x).lnk = s.lnk := rfl
@[simp] theorem State.setTb_col (x : Timebase) : (s.setTb x).col = s.col := rfl
@[simp] theorem State.setTb_upd (x : Timebase) : (s.setTb x).upd = s.upd := rfl
@[simp] theorem State.setTb_probe (x : Timebase) : (s.setTb x).probe = s.probe := rfl
@[simp] theorem State.setTb_draws (x : Timebase) : (s.setTb x).draws = s.draws := rfl
@[simp] theorem State.setTb_pwr (x : Timebase) : (s.setTb x).pwr = s.pwr := rfl
@[simp] theorem State.setDeferred_regs (x : List Deferred) : (s.setDeferred x).regs = s.regs := rfl
@[simp] theorem State.setDeferred_mem (x : List Deferred) : (s.setDeferred x).mem = s.mem := rfl
@[simp] theorem State.setDeferred_sram (x : List Deferred) : (s.setDeferred x).sram = s.sram := rfl
@[simp] theorem State.setDeferred_poison (x : List Deferred) : (s.setDeferred x).poison = s.poison := rfl
@[simp] theorem State.setDeferred_resp (x : List Deferred) : (s.setDeferred x).resp = s.resp := rfl
@[simp] theorem State.setDeferred_free (x : List Deferred) : (s.setDeferred x).free = s.free := rfl
@[simp] theorem State.setDeferred_pending (x : List Deferred) : (s.setDeferred x).pending = s.pending := rfl
@[simp] theorem State.setDeferred_tb (x : List Deferred) : (s.setDeferred x).tb = s.tb := rfl
@[simp] theorem State.setDeferred_deferred (x : List Deferred) : (s.setDeferred x).deferred = x := rfl
@[simp] theorem State.setDeferred_tracker (x : List Deferred) : (s.setDeferred x).tracker = s.tracker := rfl
@[simp] theorem State.setDeferred_adm (x : List Deferred) : (s.setDeferred x).adm = s.adm := rfl
@[simp] theorem State.setDeferred_eng (x : List Deferred) : (s.setDeferred x).eng = s.eng := rfl
@[simp] theorem State.setDeferred_xq (x : List Deferred) : (s.setDeferred x).xq = s.xq := rfl
@[simp] theorem State.setDeferred_tiers (x : List Deferred) : (s.setDeferred x).tiers = s.tiers := rfl
@[simp] theorem State.setDeferred_flash (x : List Deferred) : (s.setDeferred x).flash = s.flash := rfl
@[simp] theorem State.setDeferred_hbm (x : List Deferred) : (s.setDeferred x).hbm = s.hbm := rfl
@[simp] theorem State.setDeferred_mmu (x : List Deferred) : (s.setDeferred x).mmu = s.mmu := rfl
@[simp] theorem State.setDeferred_coh (x : List Deferred) : (s.setDeferred x).coh = s.coh := rfl
@[simp] theorem State.setDeferred_pcie (x : List Deferred) : (s.setDeferred x).pcie = s.pcie := rfl
@[simp] theorem State.setDeferred_log (x : List Deferred) : (s.setDeferred x).log = s.log := rfl
@[simp] theorem State.setDeferred_ft (x : List Deferred) : (s.setDeferred x).ft = s.ft := rfl
@[simp] theorem State.setDeferred_boot (x : List Deferred) : (s.setDeferred x).boot = s.boot := rfl
@[simp] theorem State.setDeferred_exp (x : List Deferred) : (s.setDeferred x).exp = s.exp := rfl
@[simp] theorem State.setDeferred_lnk (x : List Deferred) : (s.setDeferred x).lnk = s.lnk := rfl
@[simp] theorem State.setDeferred_col (x : List Deferred) : (s.setDeferred x).col = s.col := rfl
@[simp] theorem State.setDeferred_upd (x : List Deferred) : (s.setDeferred x).upd = s.upd := rfl
@[simp] theorem State.setDeferred_probe (x : List Deferred) : (s.setDeferred x).probe = s.probe := rfl
@[simp] theorem State.setDeferred_draws (x : List Deferred) : (s.setDeferred x).draws = s.draws := rfl
@[simp] theorem State.setDeferred_pwr (x : List Deferred) : (s.setDeferred x).pwr = s.pwr := rfl
@[simp] theorem State.setTracker_regs (x : List (Nat × List Nat)) : (s.setTracker x).regs = s.regs := rfl
@[simp] theorem State.setTracker_mem (x : List (Nat × List Nat)) : (s.setTracker x).mem = s.mem := rfl
@[simp] theorem State.setTracker_sram (x : List (Nat × List Nat)) : (s.setTracker x).sram = s.sram := rfl
@[simp] theorem State.setTracker_poison (x : List (Nat × List Nat)) : (s.setTracker x).poison = s.poison := rfl
@[simp] theorem State.setTracker_resp (x : List (Nat × List Nat)) : (s.setTracker x).resp = s.resp := rfl
@[simp] theorem State.setTracker_free (x : List (Nat × List Nat)) : (s.setTracker x).free = s.free := rfl
@[simp] theorem State.setTracker_pending (x : List (Nat × List Nat)) : (s.setTracker x).pending = s.pending := rfl
@[simp] theorem State.setTracker_tb (x : List (Nat × List Nat)) : (s.setTracker x).tb = s.tb := rfl
@[simp] theorem State.setTracker_deferred (x : List (Nat × List Nat)) : (s.setTracker x).deferred = s.deferred := rfl
@[simp] theorem State.setTracker_tracker (x : List (Nat × List Nat)) : (s.setTracker x).tracker = x := rfl
@[simp] theorem State.setTracker_adm (x : List (Nat × List Nat)) : (s.setTracker x).adm = s.adm := rfl
@[simp] theorem State.setTracker_eng (x : List (Nat × List Nat)) : (s.setTracker x).eng = s.eng := rfl
@[simp] theorem State.setTracker_xq (x : List (Nat × List Nat)) : (s.setTracker x).xq = s.xq := rfl
@[simp] theorem State.setTracker_tiers (x : List (Nat × List Nat)) : (s.setTracker x).tiers = s.tiers := rfl
@[simp] theorem State.setTracker_flash (x : List (Nat × List Nat)) : (s.setTracker x).flash = s.flash := rfl
@[simp] theorem State.setTracker_hbm (x : List (Nat × List Nat)) : (s.setTracker x).hbm = s.hbm := rfl
@[simp] theorem State.setTracker_mmu (x : List (Nat × List Nat)) : (s.setTracker x).mmu = s.mmu := rfl
@[simp] theorem State.setTracker_coh (x : List (Nat × List Nat)) : (s.setTracker x).coh = s.coh := rfl
@[simp] theorem State.setTracker_pcie (x : List (Nat × List Nat)) : (s.setTracker x).pcie = s.pcie := rfl
@[simp] theorem State.setTracker_log (x : List (Nat × List Nat)) : (s.setTracker x).log = s.log := rfl
@[simp] theorem State.setTracker_ft (x : List (Nat × List Nat)) : (s.setTracker x).ft = s.ft := rfl
@[simp] theorem State.setTracker_boot (x : List (Nat × List Nat)) : (s.setTracker x).boot = s.boot := rfl
@[simp] theorem State.setTracker_exp (x : List (Nat × List Nat)) : (s.setTracker x).exp = s.exp := rfl
@[simp] theorem State.setTracker_lnk (x : List (Nat × List Nat)) : (s.setTracker x).lnk = s.lnk := rfl
@[simp] theorem State.setTracker_col (x : List (Nat × List Nat)) : (s.setTracker x).col = s.col := rfl
@[simp] theorem State.setTracker_upd (x : List (Nat × List Nat)) : (s.setTracker x).upd = s.upd := rfl
@[simp] theorem State.setTracker_probe (x : List (Nat × List Nat)) : (s.setTracker x).probe = s.probe := rfl
@[simp] theorem State.setTracker_draws (x : List (Nat × List Nat)) : (s.setTracker x).draws = s.draws := rfl
@[simp] theorem State.setTracker_pwr (x : List (Nat × List Nat)) : (s.setTracker x).pwr = s.pwr := rfl
@[simp] theorem State.setAdm_regs (x : Admission) : (s.setAdm x).regs = s.regs := rfl
@[simp] theorem State.setAdm_mem (x : Admission) : (s.setAdm x).mem = s.mem := rfl
@[simp] theorem State.setAdm_sram (x : Admission) : (s.setAdm x).sram = s.sram := rfl
@[simp] theorem State.setAdm_poison (x : Admission) : (s.setAdm x).poison = s.poison := rfl
@[simp] theorem State.setAdm_resp (x : Admission) : (s.setAdm x).resp = s.resp := rfl
@[simp] theorem State.setAdm_free (x : Admission) : (s.setAdm x).free = s.free := rfl
@[simp] theorem State.setAdm_pending (x : Admission) : (s.setAdm x).pending = s.pending := rfl
@[simp] theorem State.setAdm_tb (x : Admission) : (s.setAdm x).tb = s.tb := rfl
@[simp] theorem State.setAdm_deferred (x : Admission) : (s.setAdm x).deferred = s.deferred := rfl
@[simp] theorem State.setAdm_tracker (x : Admission) : (s.setAdm x).tracker = s.tracker := rfl
@[simp] theorem State.setAdm_adm (x : Admission) : (s.setAdm x).adm = x := rfl
@[simp] theorem State.setAdm_eng (x : Admission) : (s.setAdm x).eng = s.eng := rfl
@[simp] theorem State.setAdm_xq (x : Admission) : (s.setAdm x).xq = s.xq := rfl
@[simp] theorem State.setAdm_tiers (x : Admission) : (s.setAdm x).tiers = s.tiers := rfl
@[simp] theorem State.setAdm_flash (x : Admission) : (s.setAdm x).flash = s.flash := rfl
@[simp] theorem State.setAdm_hbm (x : Admission) : (s.setAdm x).hbm = s.hbm := rfl
@[simp] theorem State.setAdm_mmu (x : Admission) : (s.setAdm x).mmu = s.mmu := rfl
@[simp] theorem State.setAdm_coh (x : Admission) : (s.setAdm x).coh = s.coh := rfl
@[simp] theorem State.setAdm_pcie (x : Admission) : (s.setAdm x).pcie = s.pcie := rfl
@[simp] theorem State.setAdm_log (x : Admission) : (s.setAdm x).log = s.log := rfl
@[simp] theorem State.setAdm_ft (x : Admission) : (s.setAdm x).ft = s.ft := rfl
@[simp] theorem State.setAdm_boot (x : Admission) : (s.setAdm x).boot = s.boot := rfl
@[simp] theorem State.setAdm_exp (x : Admission) : (s.setAdm x).exp = s.exp := rfl
@[simp] theorem State.setAdm_lnk (x : Admission) : (s.setAdm x).lnk = s.lnk := rfl
@[simp] theorem State.setAdm_col (x : Admission) : (s.setAdm x).col = s.col := rfl
@[simp] theorem State.setAdm_upd (x : Admission) : (s.setAdm x).upd = s.upd := rfl
@[simp] theorem State.setAdm_probe (x : Admission) : (s.setAdm x).probe = s.probe := rfl
@[simp] theorem State.setAdm_draws (x : Admission) : (s.setAdm x).draws = s.draws := rfl
@[simp] theorem State.setAdm_pwr (x : Admission) : (s.setAdm x).pwr = s.pwr := rfl
@[simp] theorem State.setEng_regs (x : Engines) : (s.setEng x).regs = s.regs := rfl
@[simp] theorem State.setEng_mem (x : Engines) : (s.setEng x).mem = s.mem := rfl
@[simp] theorem State.setEng_sram (x : Engines) : (s.setEng x).sram = s.sram := rfl
@[simp] theorem State.setEng_poison (x : Engines) : (s.setEng x).poison = s.poison := rfl
@[simp] theorem State.setEng_resp (x : Engines) : (s.setEng x).resp = s.resp := rfl
@[simp] theorem State.setEng_free (x : Engines) : (s.setEng x).free = s.free := rfl
@[simp] theorem State.setEng_pending (x : Engines) : (s.setEng x).pending = s.pending := rfl
@[simp] theorem State.setEng_tb (x : Engines) : (s.setEng x).tb = s.tb := rfl
@[simp] theorem State.setEng_deferred (x : Engines) : (s.setEng x).deferred = s.deferred := rfl
@[simp] theorem State.setEng_tracker (x : Engines) : (s.setEng x).tracker = s.tracker := rfl
@[simp] theorem State.setEng_adm (x : Engines) : (s.setEng x).adm = s.adm := rfl
@[simp] theorem State.setEng_eng (x : Engines) : (s.setEng x).eng = x := rfl
@[simp] theorem State.setEng_xq (x : Engines) : (s.setEng x).xq = s.xq := rfl
@[simp] theorem State.setEng_tiers (x : Engines) : (s.setEng x).tiers = s.tiers := rfl
@[simp] theorem State.setEng_flash (x : Engines) : (s.setEng x).flash = s.flash := rfl
@[simp] theorem State.setEng_hbm (x : Engines) : (s.setEng x).hbm = s.hbm := rfl
@[simp] theorem State.setEng_mmu (x : Engines) : (s.setEng x).mmu = s.mmu := rfl
@[simp] theorem State.setEng_coh (x : Engines) : (s.setEng x).coh = s.coh := rfl
@[simp] theorem State.setEng_pcie (x : Engines) : (s.setEng x).pcie = s.pcie := rfl
@[simp] theorem State.setEng_log (x : Engines) : (s.setEng x).log = s.log := rfl
@[simp] theorem State.setEng_ft (x : Engines) : (s.setEng x).ft = s.ft := rfl
@[simp] theorem State.setEng_boot (x : Engines) : (s.setEng x).boot = s.boot := rfl
@[simp] theorem State.setEng_exp (x : Engines) : (s.setEng x).exp = s.exp := rfl
@[simp] theorem State.setEng_lnk (x : Engines) : (s.setEng x).lnk = s.lnk := rfl
@[simp] theorem State.setEng_col (x : Engines) : (s.setEng x).col = s.col := rfl
@[simp] theorem State.setEng_upd (x : Engines) : (s.setEng x).upd = s.upd := rfl
@[simp] theorem State.setEng_probe (x : Engines) : (s.setEng x).probe = s.probe := rfl
@[simp] theorem State.setEng_draws (x : Engines) : (s.setEng x).draws = s.draws := rfl
@[simp] theorem State.setEng_pwr (x : Engines) : (s.setEng x).pwr = s.pwr := rfl
@[simp] theorem State.setXq_regs (x : Queues) : (s.setXq x).regs = s.regs := rfl
@[simp] theorem State.setXq_mem (x : Queues) : (s.setXq x).mem = s.mem := rfl
@[simp] theorem State.setXq_sram (x : Queues) : (s.setXq x).sram = s.sram := rfl
@[simp] theorem State.setXq_poison (x : Queues) : (s.setXq x).poison = s.poison := rfl
@[simp] theorem State.setXq_resp (x : Queues) : (s.setXq x).resp = s.resp := rfl
@[simp] theorem State.setXq_free (x : Queues) : (s.setXq x).free = s.free := rfl
@[simp] theorem State.setXq_pending (x : Queues) : (s.setXq x).pending = s.pending := rfl
@[simp] theorem State.setXq_tb (x : Queues) : (s.setXq x).tb = s.tb := rfl
@[simp] theorem State.setXq_deferred (x : Queues) : (s.setXq x).deferred = s.deferred := rfl
@[simp] theorem State.setXq_tracker (x : Queues) : (s.setXq x).tracker = s.tracker := rfl
@[simp] theorem State.setXq_adm (x : Queues) : (s.setXq x).adm = s.adm := rfl
@[simp] theorem State.setXq_eng (x : Queues) : (s.setXq x).eng = s.eng := rfl
@[simp] theorem State.setXq_xq (x : Queues) : (s.setXq x).xq = x := rfl
@[simp] theorem State.setXq_tiers (x : Queues) : (s.setXq x).tiers = s.tiers := rfl
@[simp] theorem State.setXq_flash (x : Queues) : (s.setXq x).flash = s.flash := rfl
@[simp] theorem State.setXq_hbm (x : Queues) : (s.setXq x).hbm = s.hbm := rfl
@[simp] theorem State.setXq_mmu (x : Queues) : (s.setXq x).mmu = s.mmu := rfl
@[simp] theorem State.setXq_coh (x : Queues) : (s.setXq x).coh = s.coh := rfl
@[simp] theorem State.setXq_pcie (x : Queues) : (s.setXq x).pcie = s.pcie := rfl
@[simp] theorem State.setXq_log (x : Queues) : (s.setXq x).log = s.log := rfl
@[simp] theorem State.setXq_ft (x : Queues) : (s.setXq x).ft = s.ft := rfl
@[simp] theorem State.setXq_boot (x : Queues) : (s.setXq x).boot = s.boot := rfl
@[simp] theorem State.setXq_exp (x : Queues) : (s.setXq x).exp = s.exp := rfl
@[simp] theorem State.setXq_lnk (x : Queues) : (s.setXq x).lnk = s.lnk := rfl
@[simp] theorem State.setXq_col (x : Queues) : (s.setXq x).col = s.col := rfl
@[simp] theorem State.setXq_upd (x : Queues) : (s.setXq x).upd = s.upd := rfl
@[simp] theorem State.setXq_probe (x : Queues) : (s.setXq x).probe = s.probe := rfl
@[simp] theorem State.setXq_draws (x : Queues) : (s.setXq x).draws = s.draws := rfl
@[simp] theorem State.setXq_pwr (x : Queues) : (s.setXq x).pwr = s.pwr := rfl
@[simp] theorem State.setTiers_regs (x : Tiers) : (s.setTiers x).regs = s.regs := rfl
@[simp] theorem State.setTiers_mem (x : Tiers) : (s.setTiers x).mem = s.mem := rfl
@[simp] theorem State.setTiers_sram (x : Tiers) : (s.setTiers x).sram = s.sram := rfl
@[simp] theorem State.setTiers_poison (x : Tiers) : (s.setTiers x).poison = s.poison := rfl
@[simp] theorem State.setTiers_resp (x : Tiers) : (s.setTiers x).resp = s.resp := rfl
@[simp] theorem State.setTiers_free (x : Tiers) : (s.setTiers x).free = s.free := rfl
@[simp] theorem State.setTiers_pending (x : Tiers) : (s.setTiers x).pending = s.pending := rfl
@[simp] theorem State.setTiers_tb (x : Tiers) : (s.setTiers x).tb = s.tb := rfl
@[simp] theorem State.setTiers_deferred (x : Tiers) : (s.setTiers x).deferred = s.deferred := rfl
@[simp] theorem State.setTiers_tracker (x : Tiers) : (s.setTiers x).tracker = s.tracker := rfl
@[simp] theorem State.setTiers_adm (x : Tiers) : (s.setTiers x).adm = s.adm := rfl
@[simp] theorem State.setTiers_eng (x : Tiers) : (s.setTiers x).eng = s.eng := rfl
@[simp] theorem State.setTiers_xq (x : Tiers) : (s.setTiers x).xq = s.xq := rfl
@[simp] theorem State.setTiers_tiers (x : Tiers) : (s.setTiers x).tiers = x := rfl
@[simp] theorem State.setTiers_flash (x : Tiers) : (s.setTiers x).flash = s.flash := rfl
@[simp] theorem State.setTiers_hbm (x : Tiers) : (s.setTiers x).hbm = s.hbm := rfl
@[simp] theorem State.setTiers_mmu (x : Tiers) : (s.setTiers x).mmu = s.mmu := rfl
@[simp] theorem State.setTiers_coh (x : Tiers) : (s.setTiers x).coh = s.coh := rfl
@[simp] theorem State.setTiers_pcie (x : Tiers) : (s.setTiers x).pcie = s.pcie := rfl
@[simp] theorem State.setTiers_log (x : Tiers) : (s.setTiers x).log = s.log := rfl
@[simp] theorem State.setTiers_ft (x : Tiers) : (s.setTiers x).ft = s.ft := rfl
@[simp] theorem State.setTiers_boot (x : Tiers) : (s.setTiers x).boot = s.boot := rfl
@[simp] theorem State.setTiers_exp (x : Tiers) : (s.setTiers x).exp = s.exp := rfl
@[simp] theorem State.setTiers_lnk (x : Tiers) : (s.setTiers x).lnk = s.lnk := rfl
@[simp] theorem State.setTiers_col (x : Tiers) : (s.setTiers x).col = s.col := rfl
@[simp] theorem State.setTiers_upd (x : Tiers) : (s.setTiers x).upd = s.upd := rfl
@[simp] theorem State.setTiers_probe (x : Tiers) : (s.setTiers x).probe = s.probe := rfl
@[simp] theorem State.setTiers_draws (x : Tiers) : (s.setTiers x).draws = s.draws := rfl
@[simp] theorem State.setTiers_pwr (x : Tiers) : (s.setTiers x).pwr = s.pwr := rfl
@[simp] theorem State.setFlash_regs (x : Flash) : (s.setFlash x).regs = s.regs := rfl
@[simp] theorem State.setFlash_mem (x : Flash) : (s.setFlash x).mem = s.mem := rfl
@[simp] theorem State.setFlash_sram (x : Flash) : (s.setFlash x).sram = s.sram := rfl
@[simp] theorem State.setFlash_poison (x : Flash) : (s.setFlash x).poison = s.poison := rfl
@[simp] theorem State.setFlash_resp (x : Flash) : (s.setFlash x).resp = s.resp := rfl
@[simp] theorem State.setFlash_free (x : Flash) : (s.setFlash x).free = s.free := rfl
@[simp] theorem State.setFlash_pending (x : Flash) : (s.setFlash x).pending = s.pending := rfl
@[simp] theorem State.setFlash_tb (x : Flash) : (s.setFlash x).tb = s.tb := rfl
@[simp] theorem State.setFlash_deferred (x : Flash) : (s.setFlash x).deferred = s.deferred := rfl
@[simp] theorem State.setFlash_tracker (x : Flash) : (s.setFlash x).tracker = s.tracker := rfl
@[simp] theorem State.setFlash_adm (x : Flash) : (s.setFlash x).adm = s.adm := rfl
@[simp] theorem State.setFlash_eng (x : Flash) : (s.setFlash x).eng = s.eng := rfl
@[simp] theorem State.setFlash_xq (x : Flash) : (s.setFlash x).xq = s.xq := rfl
@[simp] theorem State.setFlash_tiers (x : Flash) : (s.setFlash x).tiers = s.tiers := rfl
@[simp] theorem State.setFlash_flash (x : Flash) : (s.setFlash x).flash = x := rfl
@[simp] theorem State.setFlash_hbm (x : Flash) : (s.setFlash x).hbm = s.hbm := rfl
@[simp] theorem State.setFlash_mmu (x : Flash) : (s.setFlash x).mmu = s.mmu := rfl
@[simp] theorem State.setFlash_coh (x : Flash) : (s.setFlash x).coh = s.coh := rfl
@[simp] theorem State.setFlash_pcie (x : Flash) : (s.setFlash x).pcie = s.pcie := rfl
@[simp] theorem State.setFlash_log (x : Flash) : (s.setFlash x).log = s.log := rfl
@[simp] theorem State.setFlash_ft (x : Flash) : (s.setFlash x).ft = s.ft := rfl
@[simp] theorem State.setFlash_boot (x : Flash) : (s.setFlash x).boot = s.boot := rfl
@[simp] theorem State.setFlash_exp (x : Flash) : (s.setFlash x).exp = s.exp := rfl
@[simp] theorem State.setFlash_lnk (x : Flash) : (s.setFlash x).lnk = s.lnk := rfl
@[simp] theorem State.setFlash_col (x : Flash) : (s.setFlash x).col = s.col := rfl
@[simp] theorem State.setFlash_upd (x : Flash) : (s.setFlash x).upd = s.upd := rfl
@[simp] theorem State.setFlash_probe (x : Flash) : (s.setFlash x).probe = s.probe := rfl
@[simp] theorem State.setFlash_draws (x : Flash) : (s.setFlash x).draws = s.draws := rfl
@[simp] theorem State.setFlash_pwr (x : Flash) : (s.setFlash x).pwr = s.pwr := rfl
@[simp] theorem State.setHbm_regs (x : List (Nat × HbmStack)) : (s.setHbm x).regs = s.regs := rfl
@[simp] theorem State.setHbm_mem (x : List (Nat × HbmStack)) : (s.setHbm x).mem = s.mem := rfl
@[simp] theorem State.setHbm_sram (x : List (Nat × HbmStack)) : (s.setHbm x).sram = s.sram := rfl
@[simp] theorem State.setHbm_poison (x : List (Nat × HbmStack)) : (s.setHbm x).poison = s.poison := rfl
@[simp] theorem State.setHbm_resp (x : List (Nat × HbmStack)) : (s.setHbm x).resp = s.resp := rfl
@[simp] theorem State.setHbm_free (x : List (Nat × HbmStack)) : (s.setHbm x).free = s.free := rfl
@[simp] theorem State.setHbm_pending (x : List (Nat × HbmStack)) : (s.setHbm x).pending = s.pending := rfl
@[simp] theorem State.setHbm_tb (x : List (Nat × HbmStack)) : (s.setHbm x).tb = s.tb := rfl
@[simp] theorem State.setHbm_deferred (x : List (Nat × HbmStack)) : (s.setHbm x).deferred = s.deferred := rfl
@[simp] theorem State.setHbm_tracker (x : List (Nat × HbmStack)) : (s.setHbm x).tracker = s.tracker := rfl
@[simp] theorem State.setHbm_adm (x : List (Nat × HbmStack)) : (s.setHbm x).adm = s.adm := rfl
@[simp] theorem State.setHbm_eng (x : List (Nat × HbmStack)) : (s.setHbm x).eng = s.eng := rfl
@[simp] theorem State.setHbm_xq (x : List (Nat × HbmStack)) : (s.setHbm x).xq = s.xq := rfl
@[simp] theorem State.setHbm_tiers (x : List (Nat × HbmStack)) : (s.setHbm x).tiers = s.tiers := rfl
@[simp] theorem State.setHbm_flash (x : List (Nat × HbmStack)) : (s.setHbm x).flash = s.flash := rfl
@[simp] theorem State.setHbm_hbm (x : List (Nat × HbmStack)) : (s.setHbm x).hbm = x := rfl
@[simp] theorem State.setHbm_mmu (x : List (Nat × HbmStack)) : (s.setHbm x).mmu = s.mmu := rfl
@[simp] theorem State.setHbm_coh (x : List (Nat × HbmStack)) : (s.setHbm x).coh = s.coh := rfl
@[simp] theorem State.setHbm_pcie (x : List (Nat × HbmStack)) : (s.setHbm x).pcie = s.pcie := rfl
@[simp] theorem State.setHbm_log (x : List (Nat × HbmStack)) : (s.setHbm x).log = s.log := rfl
@[simp] theorem State.setHbm_ft (x : List (Nat × HbmStack)) : (s.setHbm x).ft = s.ft := rfl
@[simp] theorem State.setHbm_boot (x : List (Nat × HbmStack)) : (s.setHbm x).boot = s.boot := rfl
@[simp] theorem State.setHbm_exp (x : List (Nat × HbmStack)) : (s.setHbm x).exp = s.exp := rfl
@[simp] theorem State.setHbm_lnk (x : List (Nat × HbmStack)) : (s.setHbm x).lnk = s.lnk := rfl
@[simp] theorem State.setHbm_col (x : List (Nat × HbmStack)) : (s.setHbm x).col = s.col := rfl
@[simp] theorem State.setHbm_upd (x : List (Nat × HbmStack)) : (s.setHbm x).upd = s.upd := rfl
@[simp] theorem State.setHbm_probe (x : List (Nat × HbmStack)) : (s.setHbm x).probe = s.probe := rfl
@[simp] theorem State.setHbm_draws (x : List (Nat × HbmStack)) : (s.setHbm x).draws = s.draws := rfl
@[simp] theorem State.setHbm_pwr (x : List (Nat × HbmStack)) : (s.setHbm x).pwr = s.pwr := rfl
@[simp] theorem State.setMmu_regs (x : Mmu) : (s.setMmu x).regs = s.regs := rfl
@[simp] theorem State.setMmu_mem (x : Mmu) : (s.setMmu x).mem = s.mem := rfl
@[simp] theorem State.setMmu_sram (x : Mmu) : (s.setMmu x).sram = s.sram := rfl
@[simp] theorem State.setMmu_poison (x : Mmu) : (s.setMmu x).poison = s.poison := rfl
@[simp] theorem State.setMmu_resp (x : Mmu) : (s.setMmu x).resp = s.resp := rfl
@[simp] theorem State.setMmu_free (x : Mmu) : (s.setMmu x).free = s.free := rfl
@[simp] theorem State.setMmu_pending (x : Mmu) : (s.setMmu x).pending = s.pending := rfl
@[simp] theorem State.setMmu_tb (x : Mmu) : (s.setMmu x).tb = s.tb := rfl
@[simp] theorem State.setMmu_deferred (x : Mmu) : (s.setMmu x).deferred = s.deferred := rfl
@[simp] theorem State.setMmu_tracker (x : Mmu) : (s.setMmu x).tracker = s.tracker := rfl
@[simp] theorem State.setMmu_adm (x : Mmu) : (s.setMmu x).adm = s.adm := rfl
@[simp] theorem State.setMmu_eng (x : Mmu) : (s.setMmu x).eng = s.eng := rfl
@[simp] theorem State.setMmu_xq (x : Mmu) : (s.setMmu x).xq = s.xq := rfl
@[simp] theorem State.setMmu_tiers (x : Mmu) : (s.setMmu x).tiers = s.tiers := rfl
@[simp] theorem State.setMmu_flash (x : Mmu) : (s.setMmu x).flash = s.flash := rfl
@[simp] theorem State.setMmu_hbm (x : Mmu) : (s.setMmu x).hbm = s.hbm := rfl
@[simp] theorem State.setMmu_mmu (x : Mmu) : (s.setMmu x).mmu = x := rfl
@[simp] theorem State.setMmu_coh (x : Mmu) : (s.setMmu x).coh = s.coh := rfl
@[simp] theorem State.setMmu_pcie (x : Mmu) : (s.setMmu x).pcie = s.pcie := rfl
@[simp] theorem State.setMmu_log (x : Mmu) : (s.setMmu x).log = s.log := rfl
@[simp] theorem State.setMmu_ft (x : Mmu) : (s.setMmu x).ft = s.ft := rfl
@[simp] theorem State.setMmu_boot (x : Mmu) : (s.setMmu x).boot = s.boot := rfl
@[simp] theorem State.setMmu_exp (x : Mmu) : (s.setMmu x).exp = s.exp := rfl
@[simp] theorem State.setMmu_lnk (x : Mmu) : (s.setMmu x).lnk = s.lnk := rfl
@[simp] theorem State.setMmu_col (x : Mmu) : (s.setMmu x).col = s.col := rfl
@[simp] theorem State.setMmu_upd (x : Mmu) : (s.setMmu x).upd = s.upd := rfl
@[simp] theorem State.setMmu_probe (x : Mmu) : (s.setMmu x).probe = s.probe := rfl
@[simp] theorem State.setMmu_draws (x : Mmu) : (s.setMmu x).draws = s.draws := rfl
@[simp] theorem State.setMmu_pwr (x : Mmu) : (s.setMmu x).pwr = s.pwr := rfl
@[simp] theorem State.setCoh_regs (x : List (Nat × Line)) : (s.setCoh x).regs = s.regs := rfl
@[simp] theorem State.setCoh_mem (x : List (Nat × Line)) : (s.setCoh x).mem = s.mem := rfl
@[simp] theorem State.setCoh_sram (x : List (Nat × Line)) : (s.setCoh x).sram = s.sram := rfl
@[simp] theorem State.setCoh_poison (x : List (Nat × Line)) : (s.setCoh x).poison = s.poison := rfl
@[simp] theorem State.setCoh_resp (x : List (Nat × Line)) : (s.setCoh x).resp = s.resp := rfl
@[simp] theorem State.setCoh_free (x : List (Nat × Line)) : (s.setCoh x).free = s.free := rfl
@[simp] theorem State.setCoh_pending (x : List (Nat × Line)) : (s.setCoh x).pending = s.pending := rfl
@[simp] theorem State.setCoh_tb (x : List (Nat × Line)) : (s.setCoh x).tb = s.tb := rfl
@[simp] theorem State.setCoh_deferred (x : List (Nat × Line)) : (s.setCoh x).deferred = s.deferred := rfl
@[simp] theorem State.setCoh_tracker (x : List (Nat × Line)) : (s.setCoh x).tracker = s.tracker := rfl
@[simp] theorem State.setCoh_adm (x : List (Nat × Line)) : (s.setCoh x).adm = s.adm := rfl
@[simp] theorem State.setCoh_eng (x : List (Nat × Line)) : (s.setCoh x).eng = s.eng := rfl
@[simp] theorem State.setCoh_xq (x : List (Nat × Line)) : (s.setCoh x).xq = s.xq := rfl
@[simp] theorem State.setCoh_tiers (x : List (Nat × Line)) : (s.setCoh x).tiers = s.tiers := rfl
@[simp] theorem State.setCoh_flash (x : List (Nat × Line)) : (s.setCoh x).flash = s.flash := rfl
@[simp] theorem State.setCoh_hbm (x : List (Nat × Line)) : (s.setCoh x).hbm = s.hbm := rfl
@[simp] theorem State.setCoh_mmu (x : List (Nat × Line)) : (s.setCoh x).mmu = s.mmu := rfl
@[simp] theorem State.setCoh_coh (x : List (Nat × Line)) : (s.setCoh x).coh = x := rfl
@[simp] theorem State.setCoh_pcie (x : List (Nat × Line)) : (s.setCoh x).pcie = s.pcie := rfl
@[simp] theorem State.setCoh_log (x : List (Nat × Line)) : (s.setCoh x).log = s.log := rfl
@[simp] theorem State.setCoh_ft (x : List (Nat × Line)) : (s.setCoh x).ft = s.ft := rfl
@[simp] theorem State.setCoh_boot (x : List (Nat × Line)) : (s.setCoh x).boot = s.boot := rfl
@[simp] theorem State.setCoh_exp (x : List (Nat × Line)) : (s.setCoh x).exp = s.exp := rfl
@[simp] theorem State.setCoh_lnk (x : List (Nat × Line)) : (s.setCoh x).lnk = s.lnk := rfl
@[simp] theorem State.setCoh_col (x : List (Nat × Line)) : (s.setCoh x).col = s.col := rfl
@[simp] theorem State.setCoh_upd (x : List (Nat × Line)) : (s.setCoh x).upd = s.upd := rfl
@[simp] theorem State.setCoh_probe (x : List (Nat × Line)) : (s.setCoh x).probe = s.probe := rfl
@[simp] theorem State.setCoh_draws (x : List (Nat × Line)) : (s.setCoh x).draws = s.draws := rfl
@[simp] theorem State.setCoh_pwr (x : List (Nat × Line)) : (s.setCoh x).pwr = s.pwr := rfl
@[simp] theorem State.setPcie_regs (x : Pcie) : (s.setPcie x).regs = s.regs := rfl
@[simp] theorem State.setPcie_mem (x : Pcie) : (s.setPcie x).mem = s.mem := rfl
@[simp] theorem State.setPcie_sram (x : Pcie) : (s.setPcie x).sram = s.sram := rfl
@[simp] theorem State.setPcie_poison (x : Pcie) : (s.setPcie x).poison = s.poison := rfl
@[simp] theorem State.setPcie_resp (x : Pcie) : (s.setPcie x).resp = s.resp := rfl
@[simp] theorem State.setPcie_free (x : Pcie) : (s.setPcie x).free = s.free := rfl
@[simp] theorem State.setPcie_pending (x : Pcie) : (s.setPcie x).pending = s.pending := rfl
@[simp] theorem State.setPcie_tb (x : Pcie) : (s.setPcie x).tb = s.tb := rfl
@[simp] theorem State.setPcie_deferred (x : Pcie) : (s.setPcie x).deferred = s.deferred := rfl
@[simp] theorem State.setPcie_tracker (x : Pcie) : (s.setPcie x).tracker = s.tracker := rfl
@[simp] theorem State.setPcie_adm (x : Pcie) : (s.setPcie x).adm = s.adm := rfl
@[simp] theorem State.setPcie_eng (x : Pcie) : (s.setPcie x).eng = s.eng := rfl
@[simp] theorem State.setPcie_xq (x : Pcie) : (s.setPcie x).xq = s.xq := rfl
@[simp] theorem State.setPcie_tiers (x : Pcie) : (s.setPcie x).tiers = s.tiers := rfl
@[simp] theorem State.setPcie_flash (x : Pcie) : (s.setPcie x).flash = s.flash := rfl
@[simp] theorem State.setPcie_hbm (x : Pcie) : (s.setPcie x).hbm = s.hbm := rfl
@[simp] theorem State.setPcie_mmu (x : Pcie) : (s.setPcie x).mmu = s.mmu := rfl
@[simp] theorem State.setPcie_coh (x : Pcie) : (s.setPcie x).coh = s.coh := rfl
@[simp] theorem State.setPcie_pcie (x : Pcie) : (s.setPcie x).pcie = x := rfl
@[simp] theorem State.setPcie_log (x : Pcie) : (s.setPcie x).log = s.log := rfl
@[simp] theorem State.setPcie_ft (x : Pcie) : (s.setPcie x).ft = s.ft := rfl
@[simp] theorem State.setPcie_boot (x : Pcie) : (s.setPcie x).boot = s.boot := rfl
@[simp] theorem State.setPcie_exp (x : Pcie) : (s.setPcie x).exp = s.exp := rfl
@[simp] theorem State.setPcie_lnk (x : Pcie) : (s.setPcie x).lnk = s.lnk := rfl
@[simp] theorem State.setPcie_col (x : Pcie) : (s.setPcie x).col = s.col := rfl
@[simp] theorem State.setPcie_upd (x : Pcie) : (s.setPcie x).upd = s.upd := rfl
@[simp] theorem State.setPcie_probe (x : Pcie) : (s.setPcie x).probe = s.probe := rfl
@[simp] theorem State.setPcie_draws (x : Pcie) : (s.setPcie x).draws = s.draws := rfl
@[simp] theorem State.setPcie_pwr (x : Pcie) : (s.setPcie x).pwr = s.pwr := rfl
@[simp] theorem State.setLog_regs (x : LogState) : (s.setLog x).regs = s.regs := rfl
@[simp] theorem State.setLog_mem (x : LogState) : (s.setLog x).mem = s.mem := rfl
@[simp] theorem State.setLog_sram (x : LogState) : (s.setLog x).sram = s.sram := rfl
@[simp] theorem State.setLog_poison (x : LogState) : (s.setLog x).poison = s.poison := rfl
@[simp] theorem State.setLog_resp (x : LogState) : (s.setLog x).resp = s.resp := rfl
@[simp] theorem State.setLog_free (x : LogState) : (s.setLog x).free = s.free := rfl
@[simp] theorem State.setLog_pending (x : LogState) : (s.setLog x).pending = s.pending := rfl
@[simp] theorem State.setLog_tb (x : LogState) : (s.setLog x).tb = s.tb := rfl
@[simp] theorem State.setLog_deferred (x : LogState) : (s.setLog x).deferred = s.deferred := rfl
@[simp] theorem State.setLog_tracker (x : LogState) : (s.setLog x).tracker = s.tracker := rfl
@[simp] theorem State.setLog_adm (x : LogState) : (s.setLog x).adm = s.adm := rfl
@[simp] theorem State.setLog_eng (x : LogState) : (s.setLog x).eng = s.eng := rfl
@[simp] theorem State.setLog_xq (x : LogState) : (s.setLog x).xq = s.xq := rfl
@[simp] theorem State.setLog_tiers (x : LogState) : (s.setLog x).tiers = s.tiers := rfl
@[simp] theorem State.setLog_flash (x : LogState) : (s.setLog x).flash = s.flash := rfl
@[simp] theorem State.setLog_hbm (x : LogState) : (s.setLog x).hbm = s.hbm := rfl
@[simp] theorem State.setLog_mmu (x : LogState) : (s.setLog x).mmu = s.mmu := rfl
@[simp] theorem State.setLog_coh (x : LogState) : (s.setLog x).coh = s.coh := rfl
@[simp] theorem State.setLog_pcie (x : LogState) : (s.setLog x).pcie = s.pcie := rfl
@[simp] theorem State.setLog_log (x : LogState) : (s.setLog x).log = x := rfl
@[simp] theorem State.setLog_ft (x : LogState) : (s.setLog x).ft = s.ft := rfl
@[simp] theorem State.setLog_boot (x : LogState) : (s.setLog x).boot = s.boot := rfl
@[simp] theorem State.setLog_exp (x : LogState) : (s.setLog x).exp = s.exp := rfl
@[simp] theorem State.setLog_lnk (x : LogState) : (s.setLog x).lnk = s.lnk := rfl
@[simp] theorem State.setLog_col (x : LogState) : (s.setLog x).col = s.col := rfl
@[simp] theorem State.setLog_upd (x : LogState) : (s.setLog x).upd = s.upd := rfl
@[simp] theorem State.setLog_probe (x : LogState) : (s.setLog x).probe = s.probe := rfl
@[simp] theorem State.setLog_draws (x : LogState) : (s.setLog x).draws = s.draws := rfl
@[simp] theorem State.setLog_pwr (x : LogState) : (s.setLog x).pwr = s.pwr := rfl
@[simp] theorem State.setFt_regs (x : FieldTest) : (s.setFt x).regs = s.regs := rfl
@[simp] theorem State.setFt_mem (x : FieldTest) : (s.setFt x).mem = s.mem := rfl
@[simp] theorem State.setFt_sram (x : FieldTest) : (s.setFt x).sram = s.sram := rfl
@[simp] theorem State.setFt_poison (x : FieldTest) : (s.setFt x).poison = s.poison := rfl
@[simp] theorem State.setFt_resp (x : FieldTest) : (s.setFt x).resp = s.resp := rfl
@[simp] theorem State.setFt_free (x : FieldTest) : (s.setFt x).free = s.free := rfl
@[simp] theorem State.setFt_pending (x : FieldTest) : (s.setFt x).pending = s.pending := rfl
@[simp] theorem State.setFt_tb (x : FieldTest) : (s.setFt x).tb = s.tb := rfl
@[simp] theorem State.setFt_deferred (x : FieldTest) : (s.setFt x).deferred = s.deferred := rfl
@[simp] theorem State.setFt_tracker (x : FieldTest) : (s.setFt x).tracker = s.tracker := rfl
@[simp] theorem State.setFt_adm (x : FieldTest) : (s.setFt x).adm = s.adm := rfl
@[simp] theorem State.setFt_eng (x : FieldTest) : (s.setFt x).eng = s.eng := rfl
@[simp] theorem State.setFt_xq (x : FieldTest) : (s.setFt x).xq = s.xq := rfl
@[simp] theorem State.setFt_tiers (x : FieldTest) : (s.setFt x).tiers = s.tiers := rfl
@[simp] theorem State.setFt_flash (x : FieldTest) : (s.setFt x).flash = s.flash := rfl
@[simp] theorem State.setFt_hbm (x : FieldTest) : (s.setFt x).hbm = s.hbm := rfl
@[simp] theorem State.setFt_mmu (x : FieldTest) : (s.setFt x).mmu = s.mmu := rfl
@[simp] theorem State.setFt_coh (x : FieldTest) : (s.setFt x).coh = s.coh := rfl
@[simp] theorem State.setFt_pcie (x : FieldTest) : (s.setFt x).pcie = s.pcie := rfl
@[simp] theorem State.setFt_log (x : FieldTest) : (s.setFt x).log = s.log := rfl
@[simp] theorem State.setFt_ft (x : FieldTest) : (s.setFt x).ft = x := rfl
@[simp] theorem State.setFt_boot (x : FieldTest) : (s.setFt x).boot = s.boot := rfl
@[simp] theorem State.setFt_exp (x : FieldTest) : (s.setFt x).exp = s.exp := rfl
@[simp] theorem State.setFt_lnk (x : FieldTest) : (s.setFt x).lnk = s.lnk := rfl
@[simp] theorem State.setFt_col (x : FieldTest) : (s.setFt x).col = s.col := rfl
@[simp] theorem State.setFt_upd (x : FieldTest) : (s.setFt x).upd = s.upd := rfl
@[simp] theorem State.setFt_probe (x : FieldTest) : (s.setFt x).probe = s.probe := rfl
@[simp] theorem State.setFt_draws (x : FieldTest) : (s.setFt x).draws = s.draws := rfl
@[simp] theorem State.setFt_pwr (x : FieldTest) : (s.setFt x).pwr = s.pwr := rfl
@[simp] theorem State.setBoot_regs (x : Boot) : (s.setBoot x).regs = s.regs := rfl
@[simp] theorem State.setBoot_mem (x : Boot) : (s.setBoot x).mem = s.mem := rfl
@[simp] theorem State.setBoot_sram (x : Boot) : (s.setBoot x).sram = s.sram := rfl
@[simp] theorem State.setBoot_poison (x : Boot) : (s.setBoot x).poison = s.poison := rfl
@[simp] theorem State.setBoot_resp (x : Boot) : (s.setBoot x).resp = s.resp := rfl
@[simp] theorem State.setBoot_free (x : Boot) : (s.setBoot x).free = s.free := rfl
@[simp] theorem State.setBoot_pending (x : Boot) : (s.setBoot x).pending = s.pending := rfl
@[simp] theorem State.setBoot_tb (x : Boot) : (s.setBoot x).tb = s.tb := rfl
@[simp] theorem State.setBoot_deferred (x : Boot) : (s.setBoot x).deferred = s.deferred := rfl
@[simp] theorem State.setBoot_tracker (x : Boot) : (s.setBoot x).tracker = s.tracker := rfl
@[simp] theorem State.setBoot_adm (x : Boot) : (s.setBoot x).adm = s.adm := rfl
@[simp] theorem State.setBoot_eng (x : Boot) : (s.setBoot x).eng = s.eng := rfl
@[simp] theorem State.setBoot_xq (x : Boot) : (s.setBoot x).xq = s.xq := rfl
@[simp] theorem State.setBoot_tiers (x : Boot) : (s.setBoot x).tiers = s.tiers := rfl
@[simp] theorem State.setBoot_flash (x : Boot) : (s.setBoot x).flash = s.flash := rfl
@[simp] theorem State.setBoot_hbm (x : Boot) : (s.setBoot x).hbm = s.hbm := rfl
@[simp] theorem State.setBoot_mmu (x : Boot) : (s.setBoot x).mmu = s.mmu := rfl
@[simp] theorem State.setBoot_coh (x : Boot) : (s.setBoot x).coh = s.coh := rfl
@[simp] theorem State.setBoot_pcie (x : Boot) : (s.setBoot x).pcie = s.pcie := rfl
@[simp] theorem State.setBoot_log (x : Boot) : (s.setBoot x).log = s.log := rfl
@[simp] theorem State.setBoot_ft (x : Boot) : (s.setBoot x).ft = s.ft := rfl
@[simp] theorem State.setBoot_boot (x : Boot) : (s.setBoot x).boot = x := rfl
@[simp] theorem State.setBoot_exp (x : Boot) : (s.setBoot x).exp = s.exp := rfl
@[simp] theorem State.setBoot_lnk (x : Boot) : (s.setBoot x).lnk = s.lnk := rfl
@[simp] theorem State.setBoot_col (x : Boot) : (s.setBoot x).col = s.col := rfl
@[simp] theorem State.setBoot_upd (x : Boot) : (s.setBoot x).upd = s.upd := rfl
@[simp] theorem State.setBoot_probe (x : Boot) : (s.setBoot x).probe = s.probe := rfl
@[simp] theorem State.setBoot_draws (x : Boot) : (s.setBoot x).draws = s.draws := rfl
@[simp] theorem State.setBoot_pwr (x : Boot) : (s.setBoot x).pwr = s.pwr := rfl
@[simp] theorem State.setExp_regs (x : List (Nat × Stream)) : (s.setExp x).regs = s.regs := rfl
@[simp] theorem State.setExp_mem (x : List (Nat × Stream)) : (s.setExp x).mem = s.mem := rfl
@[simp] theorem State.setExp_sram (x : List (Nat × Stream)) : (s.setExp x).sram = s.sram := rfl
@[simp] theorem State.setExp_poison (x : List (Nat × Stream)) : (s.setExp x).poison = s.poison := rfl
@[simp] theorem State.setExp_resp (x : List (Nat × Stream)) : (s.setExp x).resp = s.resp := rfl
@[simp] theorem State.setExp_free (x : List (Nat × Stream)) : (s.setExp x).free = s.free := rfl
@[simp] theorem State.setExp_pending (x : List (Nat × Stream)) : (s.setExp x).pending = s.pending := rfl
@[simp] theorem State.setExp_tb (x : List (Nat × Stream)) : (s.setExp x).tb = s.tb := rfl
@[simp] theorem State.setExp_deferred (x : List (Nat × Stream)) : (s.setExp x).deferred = s.deferred := rfl
@[simp] theorem State.setExp_tracker (x : List (Nat × Stream)) : (s.setExp x).tracker = s.tracker := rfl
@[simp] theorem State.setExp_adm (x : List (Nat × Stream)) : (s.setExp x).adm = s.adm := rfl
@[simp] theorem State.setExp_eng (x : List (Nat × Stream)) : (s.setExp x).eng = s.eng := rfl
@[simp] theorem State.setExp_xq (x : List (Nat × Stream)) : (s.setExp x).xq = s.xq := rfl
@[simp] theorem State.setExp_tiers (x : List (Nat × Stream)) : (s.setExp x).tiers = s.tiers := rfl
@[simp] theorem State.setExp_flash (x : List (Nat × Stream)) : (s.setExp x).flash = s.flash := rfl
@[simp] theorem State.setExp_hbm (x : List (Nat × Stream)) : (s.setExp x).hbm = s.hbm := rfl
@[simp] theorem State.setExp_mmu (x : List (Nat × Stream)) : (s.setExp x).mmu = s.mmu := rfl
@[simp] theorem State.setExp_coh (x : List (Nat × Stream)) : (s.setExp x).coh = s.coh := rfl
@[simp] theorem State.setExp_pcie (x : List (Nat × Stream)) : (s.setExp x).pcie = s.pcie := rfl
@[simp] theorem State.setExp_log (x : List (Nat × Stream)) : (s.setExp x).log = s.log := rfl
@[simp] theorem State.setExp_ft (x : List (Nat × Stream)) : (s.setExp x).ft = s.ft := rfl
@[simp] theorem State.setExp_boot (x : List (Nat × Stream)) : (s.setExp x).boot = s.boot := rfl
@[simp] theorem State.setExp_exp (x : List (Nat × Stream)) : (s.setExp x).exp = x := rfl
@[simp] theorem State.setExp_lnk (x : List (Nat × Stream)) : (s.setExp x).lnk = s.lnk := rfl
@[simp] theorem State.setExp_col (x : List (Nat × Stream)) : (s.setExp x).col = s.col := rfl
@[simp] theorem State.setExp_upd (x : List (Nat × Stream)) : (s.setExp x).upd = s.upd := rfl
@[simp] theorem State.setExp_probe (x : List (Nat × Stream)) : (s.setExp x).probe = s.probe := rfl
@[simp] theorem State.setExp_draws (x : List (Nat × Stream)) : (s.setExp x).draws = s.draws := rfl
@[simp] theorem State.setExp_pwr (x : List (Nat × Stream)) : (s.setExp x).pwr = s.pwr := rfl
@[simp] theorem State.setLnk_regs (x : Links) : (s.setLnk x).regs = s.regs := rfl
@[simp] theorem State.setLnk_mem (x : Links) : (s.setLnk x).mem = s.mem := rfl
@[simp] theorem State.setLnk_sram (x : Links) : (s.setLnk x).sram = s.sram := rfl
@[simp] theorem State.setLnk_poison (x : Links) : (s.setLnk x).poison = s.poison := rfl
@[simp] theorem State.setLnk_resp (x : Links) : (s.setLnk x).resp = s.resp := rfl
@[simp] theorem State.setLnk_free (x : Links) : (s.setLnk x).free = s.free := rfl
@[simp] theorem State.setLnk_pending (x : Links) : (s.setLnk x).pending = s.pending := rfl
@[simp] theorem State.setLnk_tb (x : Links) : (s.setLnk x).tb = s.tb := rfl
@[simp] theorem State.setLnk_deferred (x : Links) : (s.setLnk x).deferred = s.deferred := rfl
@[simp] theorem State.setLnk_tracker (x : Links) : (s.setLnk x).tracker = s.tracker := rfl
@[simp] theorem State.setLnk_adm (x : Links) : (s.setLnk x).adm = s.adm := rfl
@[simp] theorem State.setLnk_eng (x : Links) : (s.setLnk x).eng = s.eng := rfl
@[simp] theorem State.setLnk_xq (x : Links) : (s.setLnk x).xq = s.xq := rfl
@[simp] theorem State.setLnk_tiers (x : Links) : (s.setLnk x).tiers = s.tiers := rfl
@[simp] theorem State.setLnk_flash (x : Links) : (s.setLnk x).flash = s.flash := rfl
@[simp] theorem State.setLnk_hbm (x : Links) : (s.setLnk x).hbm = s.hbm := rfl
@[simp] theorem State.setLnk_mmu (x : Links) : (s.setLnk x).mmu = s.mmu := rfl
@[simp] theorem State.setLnk_coh (x : Links) : (s.setLnk x).coh = s.coh := rfl
@[simp] theorem State.setLnk_pcie (x : Links) : (s.setLnk x).pcie = s.pcie := rfl
@[simp] theorem State.setLnk_log (x : Links) : (s.setLnk x).log = s.log := rfl
@[simp] theorem State.setLnk_ft (x : Links) : (s.setLnk x).ft = s.ft := rfl
@[simp] theorem State.setLnk_boot (x : Links) : (s.setLnk x).boot = s.boot := rfl
@[simp] theorem State.setLnk_exp (x : Links) : (s.setLnk x).exp = s.exp := rfl
@[simp] theorem State.setLnk_lnk (x : Links) : (s.setLnk x).lnk = x := rfl
@[simp] theorem State.setLnk_col (x : Links) : (s.setLnk x).col = s.col := rfl
@[simp] theorem State.setLnk_upd (x : Links) : (s.setLnk x).upd = s.upd := rfl
@[simp] theorem State.setLnk_probe (x : Links) : (s.setLnk x).probe = s.probe := rfl
@[simp] theorem State.setLnk_draws (x : Links) : (s.setLnk x).draws = s.draws := rfl
@[simp] theorem State.setLnk_pwr (x : Links) : (s.setLnk x).pwr = s.pwr := rfl
@[simp] theorem State.setCol_regs (x : Collective) : (s.setCol x).regs = s.regs := rfl
@[simp] theorem State.setCol_mem (x : Collective) : (s.setCol x).mem = s.mem := rfl
@[simp] theorem State.setCol_sram (x : Collective) : (s.setCol x).sram = s.sram := rfl
@[simp] theorem State.setCol_poison (x : Collective) : (s.setCol x).poison = s.poison := rfl
@[simp] theorem State.setCol_resp (x : Collective) : (s.setCol x).resp = s.resp := rfl
@[simp] theorem State.setCol_free (x : Collective) : (s.setCol x).free = s.free := rfl
@[simp] theorem State.setCol_pending (x : Collective) : (s.setCol x).pending = s.pending := rfl
@[simp] theorem State.setCol_tb (x : Collective) : (s.setCol x).tb = s.tb := rfl
@[simp] theorem State.setCol_deferred (x : Collective) : (s.setCol x).deferred = s.deferred := rfl
@[simp] theorem State.setCol_tracker (x : Collective) : (s.setCol x).tracker = s.tracker := rfl
@[simp] theorem State.setCol_adm (x : Collective) : (s.setCol x).adm = s.adm := rfl
@[simp] theorem State.setCol_eng (x : Collective) : (s.setCol x).eng = s.eng := rfl
@[simp] theorem State.setCol_xq (x : Collective) : (s.setCol x).xq = s.xq := rfl
@[simp] theorem State.setCol_tiers (x : Collective) : (s.setCol x).tiers = s.tiers := rfl
@[simp] theorem State.setCol_flash (x : Collective) : (s.setCol x).flash = s.flash := rfl
@[simp] theorem State.setCol_hbm (x : Collective) : (s.setCol x).hbm = s.hbm := rfl
@[simp] theorem State.setCol_mmu (x : Collective) : (s.setCol x).mmu = s.mmu := rfl
@[simp] theorem State.setCol_coh (x : Collective) : (s.setCol x).coh = s.coh := rfl
@[simp] theorem State.setCol_pcie (x : Collective) : (s.setCol x).pcie = s.pcie := rfl
@[simp] theorem State.setCol_log (x : Collective) : (s.setCol x).log = s.log := rfl
@[simp] theorem State.setCol_ft (x : Collective) : (s.setCol x).ft = s.ft := rfl
@[simp] theorem State.setCol_boot (x : Collective) : (s.setCol x).boot = s.boot := rfl
@[simp] theorem State.setCol_exp (x : Collective) : (s.setCol x).exp = s.exp := rfl
@[simp] theorem State.setCol_lnk (x : Collective) : (s.setCol x).lnk = s.lnk := rfl
@[simp] theorem State.setCol_col (x : Collective) : (s.setCol x).col = x := rfl
@[simp] theorem State.setCol_upd (x : Collective) : (s.setCol x).upd = s.upd := rfl
@[simp] theorem State.setCol_probe (x : Collective) : (s.setCol x).probe = s.probe := rfl
@[simp] theorem State.setCol_draws (x : Collective) : (s.setCol x).draws = s.draws := rfl
@[simp] theorem State.setCol_pwr (x : Collective) : (s.setCol x).pwr = s.pwr := rfl
@[simp] theorem State.setUpd_regs (x : Update) : (s.setUpd x).regs = s.regs := rfl
@[simp] theorem State.setUpd_mem (x : Update) : (s.setUpd x).mem = s.mem := rfl
@[simp] theorem State.setUpd_sram (x : Update) : (s.setUpd x).sram = s.sram := rfl
@[simp] theorem State.setUpd_poison (x : Update) : (s.setUpd x).poison = s.poison := rfl
@[simp] theorem State.setUpd_resp (x : Update) : (s.setUpd x).resp = s.resp := rfl
@[simp] theorem State.setUpd_free (x : Update) : (s.setUpd x).free = s.free := rfl
@[simp] theorem State.setUpd_pending (x : Update) : (s.setUpd x).pending = s.pending := rfl
@[simp] theorem State.setUpd_tb (x : Update) : (s.setUpd x).tb = s.tb := rfl
@[simp] theorem State.setUpd_deferred (x : Update) : (s.setUpd x).deferred = s.deferred := rfl
@[simp] theorem State.setUpd_tracker (x : Update) : (s.setUpd x).tracker = s.tracker := rfl
@[simp] theorem State.setUpd_adm (x : Update) : (s.setUpd x).adm = s.adm := rfl
@[simp] theorem State.setUpd_eng (x : Update) : (s.setUpd x).eng = s.eng := rfl
@[simp] theorem State.setUpd_xq (x : Update) : (s.setUpd x).xq = s.xq := rfl
@[simp] theorem State.setUpd_tiers (x : Update) : (s.setUpd x).tiers = s.tiers := rfl
@[simp] theorem State.setUpd_flash (x : Update) : (s.setUpd x).flash = s.flash := rfl
@[simp] theorem State.setUpd_hbm (x : Update) : (s.setUpd x).hbm = s.hbm := rfl
@[simp] theorem State.setUpd_mmu (x : Update) : (s.setUpd x).mmu = s.mmu := rfl
@[simp] theorem State.setUpd_coh (x : Update) : (s.setUpd x).coh = s.coh := rfl
@[simp] theorem State.setUpd_pcie (x : Update) : (s.setUpd x).pcie = s.pcie := rfl
@[simp] theorem State.setUpd_log (x : Update) : (s.setUpd x).log = s.log := rfl
@[simp] theorem State.setUpd_ft (x : Update) : (s.setUpd x).ft = s.ft := rfl
@[simp] theorem State.setUpd_boot (x : Update) : (s.setUpd x).boot = s.boot := rfl
@[simp] theorem State.setUpd_exp (x : Update) : (s.setUpd x).exp = s.exp := rfl
@[simp] theorem State.setUpd_lnk (x : Update) : (s.setUpd x).lnk = s.lnk := rfl
@[simp] theorem State.setUpd_col (x : Update) : (s.setUpd x).col = s.col := rfl
@[simp] theorem State.setUpd_upd (x : Update) : (s.setUpd x).upd = x := rfl
@[simp] theorem State.setUpd_probe (x : Update) : (s.setUpd x).probe = s.probe := rfl
@[simp] theorem State.setUpd_draws (x : Update) : (s.setUpd x).draws = s.draws := rfl
@[simp] theorem State.setUpd_pwr (x : Update) : (s.setUpd x).pwr = s.pwr := rfl
@[simp] theorem State.setProbe_regs (x : Option (Nat × Nat × Nat)) : (s.setProbe x).regs = s.regs := rfl
@[simp] theorem State.setProbe_mem (x : Option (Nat × Nat × Nat)) : (s.setProbe x).mem = s.mem := rfl
@[simp] theorem State.setProbe_sram (x : Option (Nat × Nat × Nat)) : (s.setProbe x).sram = s.sram := rfl
@[simp] theorem State.setProbe_poison (x : Option (Nat × Nat × Nat)) : (s.setProbe x).poison = s.poison := rfl
@[simp] theorem State.setProbe_resp (x : Option (Nat × Nat × Nat)) : (s.setProbe x).resp = s.resp := rfl
@[simp] theorem State.setProbe_free (x : Option (Nat × Nat × Nat)) : (s.setProbe x).free = s.free := rfl
@[simp] theorem State.setProbe_pending (x : Option (Nat × Nat × Nat)) : (s.setProbe x).pending = s.pending := rfl
@[simp] theorem State.setProbe_tb (x : Option (Nat × Nat × Nat)) : (s.setProbe x).tb = s.tb := rfl
@[simp] theorem State.setProbe_deferred (x : Option (Nat × Nat × Nat)) : (s.setProbe x).deferred = s.deferred := rfl
@[simp] theorem State.setProbe_tracker (x : Option (Nat × Nat × Nat)) : (s.setProbe x).tracker = s.tracker := rfl
@[simp] theorem State.setProbe_adm (x : Option (Nat × Nat × Nat)) : (s.setProbe x).adm = s.adm := rfl
@[simp] theorem State.setProbe_eng (x : Option (Nat × Nat × Nat)) : (s.setProbe x).eng = s.eng := rfl
@[simp] theorem State.setProbe_xq (x : Option (Nat × Nat × Nat)) : (s.setProbe x).xq = s.xq := rfl
@[simp] theorem State.setProbe_tiers (x : Option (Nat × Nat × Nat)) : (s.setProbe x).tiers = s.tiers := rfl
@[simp] theorem State.setProbe_flash (x : Option (Nat × Nat × Nat)) : (s.setProbe x).flash = s.flash := rfl
@[simp] theorem State.setProbe_hbm (x : Option (Nat × Nat × Nat)) : (s.setProbe x).hbm = s.hbm := rfl
@[simp] theorem State.setProbe_mmu (x : Option (Nat × Nat × Nat)) : (s.setProbe x).mmu = s.mmu := rfl
@[simp] theorem State.setProbe_coh (x : Option (Nat × Nat × Nat)) : (s.setProbe x).coh = s.coh := rfl
@[simp] theorem State.setProbe_pcie (x : Option (Nat × Nat × Nat)) : (s.setProbe x).pcie = s.pcie := rfl
@[simp] theorem State.setProbe_log (x : Option (Nat × Nat × Nat)) : (s.setProbe x).log = s.log := rfl
@[simp] theorem State.setProbe_ft (x : Option (Nat × Nat × Nat)) : (s.setProbe x).ft = s.ft := rfl
@[simp] theorem State.setProbe_boot (x : Option (Nat × Nat × Nat)) : (s.setProbe x).boot = s.boot := rfl
@[simp] theorem State.setProbe_exp (x : Option (Nat × Nat × Nat)) : (s.setProbe x).exp = s.exp := rfl
@[simp] theorem State.setProbe_lnk (x : Option (Nat × Nat × Nat)) : (s.setProbe x).lnk = s.lnk := rfl
@[simp] theorem State.setProbe_col (x : Option (Nat × Nat × Nat)) : (s.setProbe x).col = s.col := rfl
@[simp] theorem State.setProbe_upd (x : Option (Nat × Nat × Nat)) : (s.setProbe x).upd = s.upd := rfl
@[simp] theorem State.setProbe_probe (x : Option (Nat × Nat × Nat)) : (s.setProbe x).probe = x := rfl
@[simp] theorem State.setProbe_draws (x : Option (Nat × Nat × Nat)) : (s.setProbe x).draws = s.draws := rfl
@[simp] theorem State.setProbe_pwr (x : Option (Nat × Nat × Nat)) : (s.setProbe x).pwr = s.pwr := rfl
@[simp] theorem State.setDraws_regs (x : List (Nat × Draw)) : (s.setDraws x).regs = s.regs := rfl
@[simp] theorem State.setDraws_mem (x : List (Nat × Draw)) : (s.setDraws x).mem = s.mem := rfl
@[simp] theorem State.setDraws_sram (x : List (Nat × Draw)) : (s.setDraws x).sram = s.sram := rfl
@[simp] theorem State.setDraws_poison (x : List (Nat × Draw)) : (s.setDraws x).poison = s.poison := rfl
@[simp] theorem State.setDraws_resp (x : List (Nat × Draw)) : (s.setDraws x).resp = s.resp := rfl
@[simp] theorem State.setDraws_free (x : List (Nat × Draw)) : (s.setDraws x).free = s.free := rfl
@[simp] theorem State.setDraws_pending (x : List (Nat × Draw)) : (s.setDraws x).pending = s.pending := rfl
@[simp] theorem State.setDraws_tb (x : List (Nat × Draw)) : (s.setDraws x).tb = s.tb := rfl
@[simp] theorem State.setDraws_deferred (x : List (Nat × Draw)) : (s.setDraws x).deferred = s.deferred := rfl
@[simp] theorem State.setDraws_tracker (x : List (Nat × Draw)) : (s.setDraws x).tracker = s.tracker := rfl
@[simp] theorem State.setDraws_adm (x : List (Nat × Draw)) : (s.setDraws x).adm = s.adm := rfl
@[simp] theorem State.setDraws_eng (x : List (Nat × Draw)) : (s.setDraws x).eng = s.eng := rfl
@[simp] theorem State.setDraws_xq (x : List (Nat × Draw)) : (s.setDraws x).xq = s.xq := rfl
@[simp] theorem State.setDraws_tiers (x : List (Nat × Draw)) : (s.setDraws x).tiers = s.tiers := rfl
@[simp] theorem State.setDraws_flash (x : List (Nat × Draw)) : (s.setDraws x).flash = s.flash := rfl
@[simp] theorem State.setDraws_hbm (x : List (Nat × Draw)) : (s.setDraws x).hbm = s.hbm := rfl
@[simp] theorem State.setDraws_mmu (x : List (Nat × Draw)) : (s.setDraws x).mmu = s.mmu := rfl
@[simp] theorem State.setDraws_coh (x : List (Nat × Draw)) : (s.setDraws x).coh = s.coh := rfl
@[simp] theorem State.setDraws_pcie (x : List (Nat × Draw)) : (s.setDraws x).pcie = s.pcie := rfl
@[simp] theorem State.setDraws_log (x : List (Nat × Draw)) : (s.setDraws x).log = s.log := rfl
@[simp] theorem State.setDraws_ft (x : List (Nat × Draw)) : (s.setDraws x).ft = s.ft := rfl
@[simp] theorem State.setDraws_boot (x : List (Nat × Draw)) : (s.setDraws x).boot = s.boot := rfl
@[simp] theorem State.setDraws_exp (x : List (Nat × Draw)) : (s.setDraws x).exp = s.exp := rfl
@[simp] theorem State.setDraws_lnk (x : List (Nat × Draw)) : (s.setDraws x).lnk = s.lnk := rfl
@[simp] theorem State.setDraws_col (x : List (Nat × Draw)) : (s.setDraws x).col = s.col := rfl
@[simp] theorem State.setDraws_upd (x : List (Nat × Draw)) : (s.setDraws x).upd = s.upd := rfl
@[simp] theorem State.setDraws_probe (x : List (Nat × Draw)) : (s.setDraws x).probe = s.probe := rfl
@[simp] theorem State.setDraws_draws (x : List (Nat × Draw)) : (s.setDraws x).draws = x := rfl
@[simp] theorem State.setDraws_pwr (x : List (Nat × Draw)) : (s.setDraws x).pwr = s.pwr := rfl
@[simp] theorem State.setPwr_regs (x : Sextant) : (s.setPwr x).regs = s.regs := rfl
@[simp] theorem State.setPwr_mem (x : Sextant) : (s.setPwr x).mem = s.mem := rfl
@[simp] theorem State.setPwr_sram (x : Sextant) : (s.setPwr x).sram = s.sram := rfl
@[simp] theorem State.setPwr_poison (x : Sextant) : (s.setPwr x).poison = s.poison := rfl
@[simp] theorem State.setPwr_resp (x : Sextant) : (s.setPwr x).resp = s.resp := rfl
@[simp] theorem State.setPwr_free (x : Sextant) : (s.setPwr x).free = s.free := rfl
@[simp] theorem State.setPwr_pending (x : Sextant) : (s.setPwr x).pending = s.pending := rfl
@[simp] theorem State.setPwr_tb (x : Sextant) : (s.setPwr x).tb = s.tb := rfl
@[simp] theorem State.setPwr_deferred (x : Sextant) : (s.setPwr x).deferred = s.deferred := rfl
@[simp] theorem State.setPwr_tracker (x : Sextant) : (s.setPwr x).tracker = s.tracker := rfl
@[simp] theorem State.setPwr_adm (x : Sextant) : (s.setPwr x).adm = s.adm := rfl
@[simp] theorem State.setPwr_eng (x : Sextant) : (s.setPwr x).eng = s.eng := rfl
@[simp] theorem State.setPwr_xq (x : Sextant) : (s.setPwr x).xq = s.xq := rfl
@[simp] theorem State.setPwr_tiers (x : Sextant) : (s.setPwr x).tiers = s.tiers := rfl
@[simp] theorem State.setPwr_flash (x : Sextant) : (s.setPwr x).flash = s.flash := rfl
@[simp] theorem State.setPwr_hbm (x : Sextant) : (s.setPwr x).hbm = s.hbm := rfl
@[simp] theorem State.setPwr_mmu (x : Sextant) : (s.setPwr x).mmu = s.mmu := rfl
@[simp] theorem State.setPwr_coh (x : Sextant) : (s.setPwr x).coh = s.coh := rfl
@[simp] theorem State.setPwr_pcie (x : Sextant) : (s.setPwr x).pcie = s.pcie := rfl
@[simp] theorem State.setPwr_log (x : Sextant) : (s.setPwr x).log = s.log := rfl
@[simp] theorem State.setPwr_ft (x : Sextant) : (s.setPwr x).ft = s.ft := rfl
@[simp] theorem State.setPwr_boot (x : Sextant) : (s.setPwr x).boot = s.boot := rfl
@[simp] theorem State.setPwr_exp (x : Sextant) : (s.setPwr x).exp = s.exp := rfl
@[simp] theorem State.setPwr_lnk (x : Sextant) : (s.setPwr x).lnk = s.lnk := rfl
@[simp] theorem State.setPwr_col (x : Sextant) : (s.setPwr x).col = s.col := rfl
@[simp] theorem State.setPwr_upd (x : Sextant) : (s.setPwr x).upd = s.upd := rfl
@[simp] theorem State.setPwr_probe (x : Sextant) : (s.setPwr x).probe = s.probe := rfl
@[simp] theorem State.setPwr_draws (x : Sextant) : (s.setPwr x).draws = s.draws := rfl
@[simp] theorem State.setPwr_pwr (x : Sextant) : (s.setPwr x).pwr = x := rfl

end Sys2Proof.Machine
end

