-- ==== Sys2Proof/Laws/Registers.lean ====
section
/-! SUPPORT. Registers and their fields after a write: the written one holds its value and every other keeps its own. -/
namespace Sys2Proof.Machine
set_option Elab.async false

variable {s : State}

/-- A bit of a field's value. -/
theorem testBit_fget {w : Word} {f : Fld} {i : Nat} : (fget w f).testBit i = (decide (i < f.hi + 1 - f.lo) && w.getLsbD (f.lo + i)) := by
  simp only [fget, Nat.testBit_mod_two_pow, BitVec.testBit_toNat, BitVec.getLsbD_ushiftRight]

/-- A bit of a register with one field replaced. -/
theorem getLsbD_fset {w : Word} {f : Fld} {x j : Nat} (hj : j < 64) :
    (fset w f x).getLsbD j = if f.lo ≤ j ∧ j < f.hi + 1 then x.testBit (j - f.lo) else w.getLsbD j := by
  simp only [fset, fmask, BitVec.getLsbD_or, BitVec.getLsbD_and, BitVec.getLsbD_not, BitVec.getLsbD_ofNat, Nat.testBit_shiftLeft,
    Nat.testBit_mod_two_pow, Nat.testBit_two_pow_sub_one, hj, decide_true, Bool.true_and]
  by_cases h : f.lo ≤ j ∧ j < f.hi + 1
  · have h1 : j - f.lo < f.hi + 1 - f.lo := by omega
    rw [if_pos h]
    simp [h.1, h1]
  · rw [if_neg h]
    by_cases hl : f.lo ≤ j
    · have h1 : ¬ j - f.lo < f.hi + 1 - f.lo := by omega
      simp [h1]
    · simp [hl]

/-- A field reads back as it was set, cut to its width. -/
theorem fget_fset_same {w : Word} {f : Fld} {x : Nat} (hf : f.hi < 64) : fget (fset w f x) f = x % 2 ^ (f.hi + 1 - f.lo) := by
  apply Nat.eq_of_testBit_eq
  intro i
  rw [testBit_fget, Nat.testBit_mod_two_pow]
  by_cases hi : i < f.hi + 1 - f.lo
  · rw [getLsbD_fset (by omega), if_pos (by omega)]
    simp [hi]
  · simp [hi]

/-- A field apart from the one set keeps its value. -/
theorem fget_fset_other {w : Word} {f g : Fld} {x : Nat} (hg : g.hi < 64) (h : f.hi < g.lo ∨ g.hi < f.lo) :
    fget (fset w f x) g = fget w g := by
  apply Nat.eq_of_testBit_eq
  intro i
  rw [testBit_fget, testBit_fget]
  by_cases hi : i < g.hi + 1 - g.lo
  · rw [getLsbD_fset (by omega), if_neg (by omega)]
  · simp [hi]

/-- A register after a register is replaced. -/
theorem State.reg_putReg {k j : Nat} {w : Word} : (s.putReg k w).reg j = if j = k then w else s.reg j := by
  by_cases hj : j = k
  · subst hj; simp [State.reg, State.putReg]
  · simp [State.reg, State.putReg, Sparse.get_set_other hj, hj]

theorem State.reg_putReg_same {k : Nat} {w : Word} : (s.putReg k w).reg k = w := by
  rw [State.reg_putReg, if_pos rfl]

theorem State.reg_putReg_other {k j : Nat} {w : Word} (hj : j ≠ k) : (s.putReg k w).reg j = s.reg j := by
  rw [State.reg_putReg, if_neg hj]

/-- A field after it is set. -/
theorem State.fld_putFld_same {k : Nat} {f : Fld} {v : Nat} (hf : f.hi < 64) :
    (s.putFld k f v).fld k f = v % 2 ^ (f.hi + 1 - f.lo) := by
  rw [State.fld, State.putFld, State.reg_putReg_same, fget_fset_same hf]

/-- Another field of the same register, and every field of another. -/
theorem State.fld_putFld_other {k j : Nat} {f g : Fld} {v : Nat} (hg : g.hi < 64)
    (hd : j ≠ k ∨ f.hi < g.lo ∨ g.hi < f.lo) : (s.putFld k f v).fld j g = s.fld j g := by
  rw [State.fld, State.putFld, State.reg_putReg]
  by_cases hj : j = k
  · subst hj
    rw [if_pos rfl, fget_fset_other hg (by simpa using hd), State.fld]
  · rw [if_neg hj, State.fld]

/-- A register other than the one whose field is set. -/
theorem State.reg_putFld_other {k j : Nat} {f : Fld} {v : Nat} (hj : j ≠ k) :
    (s.putFld k f v).reg j = s.reg j := State.reg_putReg_other hj

theorem State.flag_setBit {k : Nat} {f : Fld} (hf : f.hi < 64) (h1 : f.lo ≤ f.hi) : (s.setBit k f).flag k f = true := by
  have : 2 ≤ 2 ^ (f.hi + 1 - f.lo) := by
    calc 2 = 2 ^ 1 := rfl
      _ ≤ _ := Nat.pow_le_pow_right (by decide) (by omega)
  rw [State.flag, State.setBit, State.fld_putFld_same hf, Nat.mod_eq_of_lt (by omega)]
  decide

theorem State.flag_clrBit {k : Nat} {f : Fld} (hf : f.hi < 64) : (s.clrBit k f).flag k f = false := by
  rw [State.flag, State.clrBit, State.fld_putFld_same hf, Nat.zero_mod]
  decide

/-- A counter after it is advanced (R14). -/
theorem State.reg_count_same {k n : Nat} : (s.count k n).reg k = BitVec.ofNat 64 (sat64 (s.reg k).toNat n) :=
  State.reg_putReg_same

theorem State.reg_count_other {k j n : Nat} (hj : j ≠ k) : (s.count k n).reg j = s.reg j :=
  State.reg_putReg_other hj

/-- Registers after some are cleared. -/
theorem State.reg_clearRegs {ks : List Nat} {j : Nat} : (s.clearRegs ks).reg j = if j ∈ ks then 0 else s.reg j := by
  induction ks generalizing s with
  | nil => simp [State.clearRegs]
  | cons k ks ih =>
    rw [State.clearRegs, ih, State.reg_putReg]
    by_cases h1 : j ∈ ks <;> by_cases h2 : j = k <;> simp [h1, h2]

/-- Clearing registers changes nothing but registers. -/
theorem State.clearRegs_frame {ks : List Nat} : s.clearRegs ks = s.setRegs (s.clearRegs ks).regs := by
  induction ks generalizing s with
  | nil => rfl
  | cons k ks ih => rw [State.clearRegs, ih]; rfl

end Sys2Proof.Machine
end

