-- ==== Sys2Proof/Laws/Alarms.lean ====
section
/-! SUPPORT. What reporting changes: an alarm sets its source bit, and beside it only the Logbook and its own registers change; an event,
a trace and a record change nothing else. -/
namespace Sys2Proof.Machine
set_option Elab.async false

/-- The registers that reporting changes. -/
def logRegs : List Nat := [LOG_SEQ, LOG_STATUS, LOG_ALARM, LOG_SUPPRESSED, LOG_TRACE_DROPS]

/-- The second state is the first but for reports: the Logbook, its registers and those listed. -/
structure Logged (ks : List Nat) (s t : State) : Prop where
  regs : ∀ k, k ∉ ks → k ∉ logRegs → t.reg k = s.reg k
  rest : t = (s.setRegs t.regs).setLog t.log

variable {s t u : State} {ks : List Nat}

theorem Logged.refl : Logged ks s s := ⟨fun _ _ _ => rfl, rfl⟩

theorem Logged.trans (h : Logged ks s t) (g : Logged ks t u) : Logged ks s u :=
  ⟨fun k h1 h2 => (g.regs k h1 h2).trans (h.regs k h1 h2), by have h1 := h.rest; have h2 := g.rest; rw [h1] at h2; exact h2⟩

theorem Logged.mono {ls : List Nat} (h : Logged ks s t) (hs : ∀ k ∈ ks, k ∈ ls) : Logged ls s t :=
  ⟨fun k h1 h2 => h.regs k (fun hk => h1 (hs k hk)) h2, h.rest⟩

theorem Logged.setLog {x : LogState} (h : Logged ks s t) : Logged ks s (t.setLog x) :=
  ⟨fun k h1 h2 => h.regs k h1 h2, by have h1 := h.rest; exact (congrArg (State.setLog · x) h1).trans rfl⟩

theorem Logged.putReg {k : Nat} {w : Word} (h : Logged ks s t) (hk : k ∈ ks ∨ k ∈ logRegs) : Logged ks s (t.putReg k w) :=
  ⟨fun j h1 h2 => by rw [State.reg_putReg_other (by rintro rfl; exact hk.elim h1 h2)]; exact h.regs j h1 h2,
   by have h1 := h.rest; exact (congrArg (State.putReg · k w) h1).trans rfl⟩

theorem Logged.putFld {k v : Nat} {f : Fld} (h : Logged ks s t) (hk : k ∈ ks ∨ k ∈ logRegs) : Logged ks s (t.putFld k f v) := h.putReg hk
theorem Logged.setBit {k : Nat} {f : Fld} (h : Logged ks s t) (hk : k ∈ ks ∨ k ∈ logRegs) : Logged ks s (t.setBit k f) := h.putReg hk
theorem Logged.clrBit {k : Nat} {f : Fld} (h : Logged ks s t) (hk : k ∈ ks ∨ k ∈ logRegs) : Logged ks s (t.clrBit k f) := h.putReg hk
theorem Logged.count {k n : Nat} (h : Logged ks s t) (hk : k ∈ ks ∨ k ∈ logRegs) : Logged ks s (t.count k n) := h.putReg hk

theorem Logged.logRecord {a b c d e f : Nat} {l : List Nat} (h : Logged ks s t) : Logged ks s (t.logRecord a b c d e f l) := by
  unfold State.logRecord
  dsimp only
  split
  · exact h
  · split <;> exact (h.count (.inr (by decide))).setLog

theorem Logged.occurrenceIn {a b : Nat} (h : Logged ks s t) : Logged ks s (t.occurrenceIn a b) := by
  unfold State.occurrenceIn
  dsimp only
  split <;> first | exact h.setLog.logRecord | exact h.setLog | skip
  all_goals split <;> first | exact h.setLog.logRecord | exact h.setLog

theorem Logged.openIncident {a : Nat} (h : Logged ks s t) : Logged ks s (t.openIncident a) :=
  ((h.setLog.setBit (.inr (by decide))).putFld (.inr (by decide))).putFld (.inr (by decide))

theorem Logged.occurrence {a b : Nat} (h : Logged ks s t) : Logged ks s (t.occurrence a b) := by
  unfold State.occurrence
  split
  · exact h
  · split
    · exact h.occurrenceIn
    · dsimp only
      split
      · exact (h.openIncident.occurrenceIn.setBit (.inr (by decide))).occurrenceIn
      · exact h.openIncident.occurrenceIn

theorem Logged.raise {k l : Nat} {f : Fld} (h : Logged ks s t) (hk : k ∈ ks) : Logged ks s (t.raise k f l) := (h.setBit (.inl hk)).occurrence

theorem Logged.suppress {a b n : Nat} (h : Logged ks s t) : Logged ks s (t.suppress a b n) := (h.count (.inr (by decide))).setLog

theorem Logged.event {a b c d : Nat} {l : List Nat} (h : Logged ks s t) : Logged ks s (t.event a b c d l) := by
  unfold State.event
  dsimp only
  split
  · exact h.setLog
  · exact h.suppress

theorem Logged.blockEvent {a b c : Nat} {l : List Nat} (h : Logged ks s t) : Logged ks s (t.blockEvent a b c l) := h.event
theorem Logged.engineEvent {a b c : Nat} {l : List Nat} (h : Logged ks s t) : Logged ks s (t.engineEvent a b c l) := h.event

theorem Logged.dropTrace {a n : Nat} (h : Logged ks s t) : Logged ks s (t.dropTrace a n) := (h.count (.inr (by decide))).setLog

theorem Logged.trace {a b c d e : Nat} (h : Logged ks s t) : Logged ks s (t.trace a b c d e) := by
  unfold State.trace
  split
  · dsimp only
    split
    · exact h.setLog
    · exact h.dropTrace
  · exact h

/-- An alarm sets its bit. -/
theorem State.flag_raise {k l : Nat} {f : Fld} (hf : f.hi < 64) (h1 : f.lo ≤ f.hi) (hk : k ∉ logRegs) :
    (s.raise k f l).flag k f = true := by
  have h2 := (Logged.refl (s := s.setBit k f) (ks := [])).occurrence (a := l) (b := ((s.setBit k f).reg k).toNat)
  have h3 := h2.regs k (by simp) hk
  rw [State.raise, State.flag, State.fld, h3]
  exact State.flag_setBit hf h1

end Sys2Proof.Machine
end

