-- ==== Sys2Proof/Laws/Memory.lean ====
section
/-! SUPPORT. Bytes of a sparse store: what a write of bytes leaves, byte by byte, and the canonical form it keeps. -/
namespace Sys2Proof.Machine
set_option Elab.async false

/-- A write of bytes keeps the canonical form. -/
theorem putBytes_wf {m : List Host.Cell} {a : Nat} {bs : List Byte} (h : Sparse.wf m = true) : Sparse.wf (putBytes m a bs) = true := by
  induction bs generalizing m a with
  | nil => exact h
  | cons b bs ih => exact ih (Sparse.wf_set h)

/-- A byte outside the bytes written reads as before. -/
theorem get_putBytes_other {m : List Host.Cell} {a k : Nat} {bs : List Byte} (hk : k < a ∨ a + bs.length ≤ k) :
    Sparse.get (putBytes m a bs) k = Sparse.get m k := by
  induction bs generalizing m a with
  | nil => rfl
  | cons b bs ih =>
    simp only [List.length_cons] at hk
    rw [putBytes, ih (by omega), Sparse.get_set_other (by omega)]

/-- A byte written reads back. -/
theorem get_putBytes_in {m : List Host.Cell} {a i : Nat} {bs : List Byte} (hi : i < bs.length) :
    Sparse.get (putBytes m a bs) (a + i) = bs[i] := by
  induction bs generalizing m a i with
  | nil => simp at hi
  | cons b bs ih =>
    cases i with
    | zero => rw [putBytes, get_putBytes_other (by omega), Nat.add_zero, Sparse.get_set_same]; rfl
    | succ i =>
      have := ih (m := Sparse.set m a b) (a := a + 1) (i := i) (by simpa using hi)
      rw [putBytes, show a + (i + 1) = a + 1 + i by omega, this]; rfl

end Sys2Proof.Machine
end

