-- ==== Sys2Proof/Laws/Keeps.lean ====
section
/-! SUPPORT. What every operation keeps: the queue of waiting commands as it is, and the canonical form of registers, memory and
cluster SRAM. One lemma for each operation on State says so, under Sys2Proof/Laws/Keeps*.lean. -/
namespace Sys2Proof.Machine
set_option Elab.async false

/-- The second state has the first one's queue, and is canonical where the first one is. -/
structure Keeps (s t : State) : Prop where
  queue : t.pending = s.pending
  inv : s.Inv → t.Inv

/-- An outcome's next state keeps the queue and the canonical form. -/
def Out.keeps (s : State) : Out → Prop
  | .next t => Keeps s t
  | _ => True

theorem Keeps.refl (s : State) : Keeps s s := ⟨rfl, id⟩

theorem Keeps.trans {s t u : State} (h : Keeps s t) (g : Keeps t u) : Keeps s u := ⟨g.queue.trans h.queue, fun i => g.inv (h.inv i)⟩

theorem Out.keeps_of {s t : State} {x : Out} (h : Out.keeps s x) (e : x = .next t) : Keeps s t := by subst e; exact h

theorem Out.keeps_next {s t : State} (h : Keeps s t) : Out.keeps s (.next t) := h

/-- A fold of steps that each keep. -/
theorem foldl_keeps {α : Type} {s₀ s : State} {f : State → α → State} {l : List α} (hf : ∀ t x, Keeps s₀ t → Keeps s₀ (f t x))
    (h : Keeps s₀ s) : Keeps s₀ (l.foldl f s) := by
  induction l generalizing s with
  | nil => exact h
  | cons x l ih => exact ih (hf s x h)

/-! ## Results that hold a state -/

/-- A state under Except keeps. -/
def Ex.keeps {ε : Type} (s : State) : Except ε State → Prop
  | .ok t => Keeps s t
  | .error _ => True

/-- A value and a state under Except: the state keeps. -/
def ExP.keeps {ε α : Type} (s : State) : Except ε (α × State) → Prop
  | .ok x => Keeps s x.2
  | .error _ => True

/-- A state under Option keeps. -/
def Op.keeps (s : State) : Option State → Prop
  | some t => Keeps s t
  | none => True

/-- A state under Except and Option keeps. -/
def ExO.keeps {ε : Type} (s : State) : Except ε (Option State) → Prop
  | .ok x => Op.keeps s x
  | .error _ => True

/-- A state and a value: the state keeps. -/
def Pr.keeps {α : Type} (s : State) (x : State × α) : Prop := Keeps s x.1

theorem Ex.keeps_of {ε : Type} {s t : State} {x : Except ε State} (h : Ex.keeps s x) (e : x = .ok t) : Keeps s t := by subst e; exact h
theorem ExP.keeps_of {ε α : Type} {s t : State} {a : α} {x : Except ε (α × State)} (h : ExP.keeps s x) (e : x = .ok (a, t)) : Keeps s t := by
  subst e; exact h
theorem Op.keeps_of {s t : State} {x : Option State} (h : Op.keeps s x) (e : x = some t) : Keeps s t := by subst e; exact h
theorem ExO.keeps_of {ε : Type} {s t : State} {x : Except ε (Option State)} (h : ExO.keeps s x) (e : x = .ok (some t)) : Keeps s t := by
  subst e; exact h
theorem Pr.keeps_of {α : Type} {s t : State} {a : α} {x : State × α} (h : Pr.keeps s x) (e : x = (t, a)) : Keeps s t := by subst e; exact h
theorem Pr.keeps_fst {α : Type} {s : State} {x : State × α} (h : Pr.keeps s x) : Keeps s x.1 := h
theorem Ex.keeps_ok {ε : Type} {s t : State} (h : Keeps s t) : Ex.keeps (ε := ε) s (.ok t) := h
theorem Ex.keeps_error {ε : Type} {s : State} {x : ε} : Ex.keeps s (.error x) := trivial
theorem ExP.keeps_ok {ε α : Type} {s t : State} {a : α} (h : Keeps s t) : ExP.keeps (ε := ε) s (.ok (a, t)) := h
theorem ExP.keeps_error {ε α : Type} {s : State} {x : ε} : ExP.keeps (α := α) s (.error x) := trivial
theorem Op.keeps_some {s t : State} (h : Keeps s t) : Op.keeps s (some t) := h
theorem Op.keeps_none {s : State} : Op.keeps s none := trivial
theorem Op.keeps_getD {s t : State} {x : Option State} (h : Op.keeps s x) (g : Keeps s t) : Keeps s (x.getD t) := by
  cases x with
  | none => exact g
  | some y => exact h
theorem ExO.keeps_some {ε : Type} {s t : State} (h : Keeps s t) : ExO.keeps (ε := ε) s (.ok (some t)) := h
theorem ExO.keeps_none {ε : Type} {s : State} : ExO.keeps (ε := ε) s (.ok none) := trivial
theorem ExO.keeps_error {ε : Type} {s : State} {x : ε} : ExO.keeps s (.error x) := trivial
theorem Pr.keeps_mk {α : Type} {s t : State} {a : α} (h : Keeps s t) : Pr.keeps s (t, a) := h

/-- The state of a command's outcome, where it has one, keeps. -/
def Res.keeps (s : State) : Res → Prop
  | .done t => Keeps s t
  | .stay t => Keeps s t
  | _ => True

theorem Res.keeps_done {s t : State} (h : Keeps s t) : Res.keeps s (.done t) := h
theorem Res.keeps_stay {s t : State} (h : Keeps s t) : Res.keeps s (.stay t) := h
theorem Res.keeps_ill {s : State} {l : List Nat} : Res.keeps s (.ill l) := trivial
theorem Res.keeps_illCommon {s : State} {l : List Nat} : Res.keeps s (.illCommon l) := trivial
theorem Res.keeps_trap {s : State} {t : Trap} : Res.keeps s (.trap t) := trivial
theorem Res.keeps_of_done {s t : State} {x : Res} (h : Res.keeps s x) (e : x = .done t) : Keeps s t := by subst e; exact h
theorem Res.keeps_of_stay {s t : State} {x : Res} (h : Res.keeps s x) (e : x = .stay t) : Keeps s t := by subst e; exact h

variable {s₀ s : State}

theorem State.setRegs_keeps {x : List (Nat × Word)} (hx : Sparse.wf s.regs = true → Sparse.wf x = true) (h : Keeps s₀ s) :
    Keeps s₀ (s.setRegs x) := ⟨h.queue, fun i => ⟨hx (h.inv i).1, (h.inv i).2⟩⟩

theorem State.setMem_keeps {x : List Host.Cell} (hx : Sparse.wf s.mem = true → Sparse.wf x = true) (h : Keeps s₀ s) :
    Keeps s₀ (s.setMem x) := ⟨h.queue, fun i => ⟨(h.inv i).1, hx (h.inv i).2.1, (h.inv i).2.2⟩⟩

theorem State.setSram_keeps {x : List Host.Cell} (hx : Sparse.wf s.sram = true → Sparse.wf x = true) (h : Keeps s₀ s) :
    Keeps s₀ (s.setSram x) := ⟨h.queue, fun i => ⟨(h.inv i).1, (h.inv i).2.1, hx (h.inv i).2.2⟩⟩

theorem State.setPoison_keeps {x : List Nat} (h : Keeps s₀ s) : Keeps s₀ (s.setPoison x) := ⟨h.queue, h.inv⟩
theorem State.setResp_keeps {x : Word} (h : Keeps s₀ s) : Keeps s₀ (s.setResp x) := ⟨h.queue, h.inv⟩
theorem State.setFree_keeps {x : Nat} (h : Keeps s₀ s) : Keeps s₀ (s.setFree x) := ⟨h.queue, h.inv⟩
theorem State.setTb_keeps {x : Timebase} (h : Keeps s₀ s) : Keeps s₀ (s.setTb x) := ⟨h.queue, h.inv⟩
theorem State.setDeferred_keeps {x : List Deferred} (h : Keeps s₀ s) : Keeps s₀ (s.setDeferred x) := ⟨h.queue, h.inv⟩
theorem State.setTracker_keeps {x : List (Nat × List Nat)} (h : Keeps s₀ s) : Keeps s₀ (s.setTracker x) := ⟨h.queue, h.inv⟩
theorem State.setAdm_keeps {x : Admission} (h : Keeps s₀ s) : Keeps s₀ (s.setAdm x) := ⟨h.queue, h.inv⟩
theorem State.setEng_keeps {x : Engines} (h : Keeps s₀ s) : Keeps s₀ (s.setEng x) := ⟨h.queue, h.inv⟩
theorem State.setXq_keeps {x : Queues} (h : Keeps s₀ s) : Keeps s₀ (s.setXq x) := ⟨h.queue, h.inv⟩
theorem State.setTiers_keeps {x : Tiers} (h : Keeps s₀ s) : Keeps s₀ (s.setTiers x) := ⟨h.queue, h.inv⟩
theorem State.setFlash_keeps {x : Flash} (h : Keeps s₀ s) : Keeps s₀ (s.setFlash x) := ⟨h.queue, h.inv⟩
theorem State.setHbm_keeps {x : List (Nat × HbmStack)} (h : Keeps s₀ s) : Keeps s₀ (s.setHbm x) := ⟨h.queue, h.inv⟩
theorem State.setMmu_keeps {x : Mmu} (h : Keeps s₀ s) : Keeps s₀ (s.setMmu x) := ⟨h.queue, h.inv⟩
theorem State.setCoh_keeps {x : List (Nat × Line)} (h : Keeps s₀ s) : Keeps s₀ (s.setCoh x) := ⟨h.queue, h.inv⟩
theorem State.setPcie_keeps {x : Pcie} (h : Keeps s₀ s) : Keeps s₀ (s.setPcie x) := ⟨h.queue, h.inv⟩
theorem State.setLog_keeps {x : LogState} (h : Keeps s₀ s) : Keeps s₀ (s.setLog x) := ⟨h.queue, h.inv⟩
theorem State.setFt_keeps {x : FieldTest} (h : Keeps s₀ s) : Keeps s₀ (s.setFt x) := ⟨h.queue, h.inv⟩
theorem State.setBoot_keeps {x : Boot} (h : Keeps s₀ s) : Keeps s₀ (s.setBoot x) := ⟨h.queue, h.inv⟩
theorem State.setExp_keeps {x : List (Nat × Stream)} (h : Keeps s₀ s) : Keeps s₀ (s.setExp x) := ⟨h.queue, h.inv⟩
theorem State.setLnk_keeps {x : Links} (h : Keeps s₀ s) : Keeps s₀ (s.setLnk x) := ⟨h.queue, h.inv⟩
theorem State.setCol_keeps {x : Collective} (h : Keeps s₀ s) : Keeps s₀ (s.setCol x) := ⟨h.queue, h.inv⟩
theorem State.setUpd_keeps {x : Update} (h : Keeps s₀ s) : Keeps s₀ (s.setUpd x) := ⟨h.queue, h.inv⟩
theorem State.setProbe_keeps {x : Option (Nat × Nat × Nat)} (h : Keeps s₀ s) : Keeps s₀ (s.setProbe x) := ⟨h.queue, h.inv⟩
theorem State.setDraws_keeps {x : List (Nat × Draw)} (h : Keeps s₀ s) : Keeps s₀ (s.setDraws x) := ⟨h.queue, h.inv⟩
theorem State.setPwr_keeps {x : Sextant} (h : Keeps s₀ s) : Keeps s₀ (s.setPwr x) := ⟨h.queue, h.inv⟩

end Sys2Proof.Machine
end

