-- ==== Sys2Proof/Laws/KeepsOps.lean ====
section
/-! SUPPORT. What the operations of Machine/Ops.lean keep. -/
namespace Sys2Proof.Machine
set_option Elab.async false

theorem State.putReg_keeps {s₀ s : State} {k : Nat} {w : Word} (h : Keeps s₀ s) : Keeps s₀ (s.putReg k w) :=
  State.setRegs_keeps Sparse.wf_set h

theorem State.putFld_keeps {s₀ s : State} {k : Nat} {f : Fld} {v : Nat} (hk : Keeps s₀ s) : Keeps s₀ (State.putFld s k f v) := by
  unfold State.putFld; try dsimp only
  repeat' first | (with_reducible assumption) | (with_reducible refine State.putReg_keeps ?_) | (split)

theorem State.setBit_keeps {s₀ s : State} {k : Nat} {f : Fld} (hk : Keeps s₀ s) : Keeps s₀ (State.setBit s k f) := by
  unfold State.setBit; try dsimp only
  repeat' first | (with_reducible assumption) | (with_reducible refine State.putFld_keeps ?_) | (split)

theorem State.clrBit_keeps {s₀ s : State} {k : Nat} {f : Fld} (hk : Keeps s₀ s) : Keeps s₀ (State.clrBit s k f) := by
  unfold State.clrBit; try dsimp only
  repeat' first | (with_reducible assumption) | (with_reducible refine State.putFld_keeps ?_) | (split)

theorem State.count_keeps {s₀ s : State} {k : Nat} {n : Nat} (hk : Keeps s₀ s) : Keeps s₀ (State.count s k n) := by
  unfold State.count; try dsimp only
  repeat' first | (with_reducible assumption) | (with_reducible refine State.putReg_keeps ?_) | (split)

theorem State.clearRegs_keeps {s₀ s : State}  {x0 : List Nat} (hk : Keeps s₀ s) : Keeps s₀ (State.clearRegs s x0) := by
  induction x0 generalizing s with
  | nil =>
    unfold State.clearRegs; try dsimp only
    repeat' first | (with_reducible assumption) | (with_reducible refine State.putReg_keeps ?_) | (split)
  | cons y l ih =>
    unfold State.clearRegs; try dsimp only
    repeat' first | (with_reducible assumption) | (with_reducible refine ih ?_) | (with_reducible refine State.putReg_keeps ?_) | (split)

theorem State.setWatch_keeps {s₀ s : State} {w : Nat} (hk : Keeps s₀ s) : Keeps s₀ (State.setWatch s w) := by
  unfold State.setWatch; try dsimp only
  repeat' first | (with_reducible assumption) | (with_reducible refine State.putReg_keeps ?_) | (split)

theorem State.toTick_keeps {s₀ s : State} {t : Nat} (hk : Keeps s₀ s) : Keeps s₀ (State.toTick s t) := by
  unfold State.toTick; try dsimp only
  repeat' first | (with_reducible assumption) | (with_reducible refine State.putFld_keeps ?_) | (split)

theorem State.tookFree_keeps {s₀ s : State}  (hk : Keeps s₀ s) : Keeps s₀ (State.tookFree s) := by
  unfold State.tookFree; try dsimp only
  repeat' first | (with_reducible assumption) | (with_reducible refine State.setFree_keeps ?_) | (split)

theorem State.showEngine_keeps {s₀ s : State} {e v : Nat} (hk : Keeps s₀ s) : Keeps s₀ (State.showEngine s e v) := by
  unfold State.showEngine; try dsimp only
  repeat' first | (with_reducible assumption) | (with_reducible refine State.putFld_keeps ?_) | (split)

end Sys2Proof.Machine
end

