-- ==== Sys2Proof/Laws/KeepsFlags.lean ====
section
/-! SUPPORT. What the operations of Machine/Flags.lean keep. -/
namespace Sys2Proof.Machine
set_option Elab.async false

theorem State.logRecord_keeps {s₀ s : State} {kind part source code watch tick : Nat} {args : List Nat} (hk : Keeps s₀ s) : Keeps s₀ (State.logRecord s kind part source code watch tick args) := by
  unfold State.logRecord; try dsimp only
  repeat' first | (with_reducible assumption) | (with_reducible refine State.count_keeps ?_) | (with_reducible refine State.setLog_keeps ?_) | (with_reducible refine State.records_keeps ?_) | (with_reducible exact ExP.keeps_error) | (with_reducible refine ExP.keeps_ok ?_) | (split) | (refine ExP.keeps_of ?_ (by with_reducible assumption))

theorem State.occurrenceIn_keeps {s₀ s : State} {line : Nat} {image : Nat} (hk : Keeps s₀ s) : Keeps s₀ (State.occurrenceIn s line image) := by
  unfold State.occurrenceIn; try dsimp only
  repeat' first | (with_reducible assumption) | (with_reducible refine State.setLog_keeps ?_) | (with_reducible refine State.logRecord_keeps ?_) | (with_reducible refine Op.keeps_getD ?_ ?_) | (split)

theorem State.openIncident_keeps {s₀ s : State} {line : Nat} (hk : Keeps s₀ s) : Keeps s₀ (State.openIncident s line) := by
  unfold State.openIncident; try dsimp only
  repeat' first | (with_reducible assumption) | (with_reducible refine State.setLog_keeps ?_) | (with_reducible refine State.setBit_keeps ?_) | (with_reducible refine State.putFld_keeps ?_) | (split)

theorem State.occurrence_keeps {s₀ s : State} {line : Nat} {image : Nat} (hk : Keeps s₀ s) : Keeps s₀ (State.occurrence s line image) := by
  unfold State.occurrence; try dsimp only
  repeat' first | (with_reducible assumption) | (with_reducible refine State.occurrenceIn_keeps ?_) | (with_reducible refine State.openIncident_keeps ?_) | (with_reducible refine State.setBit_keeps ?_) | (split)

theorem State.raise_keeps {s₀ s : State} {key : Nat} {f : Fld} {line : Nat} (hk : Keeps s₀ s) : Keeps s₀ (State.raise s key f line) := by
  unfold State.raise; try dsimp only
  repeat' first | (with_reducible assumption) | (with_reducible refine State.setBit_keeps ?_) | (with_reducible refine State.occurrence_keeps ?_) | (split)

theorem State.alarmWch_keeps {s₀ s : State} {f : Fld} (hk : Keeps s₀ s) : Keeps s₀ (State.alarmWch s f) := by
  unfold State.alarmWch; try dsimp only
  repeat' first | (with_reducible assumption) | (with_reducible refine State.raise_keeps ?_) | (split)

theorem State.alarmBeacon_keeps {s₀ s : State} {g : Nat} {f : Fld} (hk : Keeps s₀ s) : Keeps s₀ (State.alarmBeacon s g f) := by
  unfold State.alarmBeacon; try dsimp only
  repeat' first | (with_reducible assumption) | (with_reducible refine State.raise_keeps ?_) | (split)

theorem State.alarmTmv_keeps {s₀ s : State} {f : Fld} (hk : Keeps s₀ s) : Keeps s₀ (State.alarmTmv s f) := by
  unfold State.alarmTmv; try dsimp only
  repeat' first | (with_reducible assumption) | (with_reducible refine State.raise_keeps ?_) | (split)

theorem State.alarmDft_keeps {s₀ s : State} {f : Fld} (hk : Keeps s₀ s) : Keeps s₀ (State.alarmDft s f) := by
  unfold State.alarmDft; try dsimp only
  repeat' first | (with_reducible assumption) | (with_reducible refine State.raise_keeps ?_) | (split)

theorem State.alarmHbm_keeps {s₀ s : State} {n : Nat} {f : Fld} (hk : Keeps s₀ s) : Keeps s₀ (State.alarmHbm s n f) := by
  unfold State.alarmHbm; try dsimp only
  repeat' first | (with_reducible assumption) | (with_reducible refine State.raise_keeps ?_) | (split)

theorem State.alarmCoh_keeps {s₀ s : State} {f : Fld} (hk : Keeps s₀ s) : Keeps s₀ (State.alarmCoh s f) := by
  unfold State.alarmCoh; try dsimp only
  repeat' first | (with_reducible assumption) | (with_reducible refine State.raise_keeps ?_) | (split)

theorem State.alarmLnk_keeps {s₀ s : State} {n : Nat} {f : Fld} (hk : Keeps s₀ s) : Keeps s₀ (State.alarmLnk s n f) := by
  unfold State.alarmLnk; try dsimp only
  repeat' first | (with_reducible assumption) | (with_reducible refine State.raise_keeps ?_) | (split)

theorem State.alarmPwr_keeps {s₀ s : State} {f : Fld} (hk : Keeps s₀ s) : Keeps s₀ (State.alarmPwr s f) := by
  unfold State.alarmPwr; try dsimp only
  repeat' first | (with_reducible assumption) | (with_reducible refine State.raise_keeps ?_) | (split)

theorem State.alarmCht_keeps {s₀ s : State} {f : Fld} (hk : Keeps s₀ s) : Keeps s₀ (State.alarmCht s f) := by
  unfold State.alarmCht; try dsimp only
  repeat' first | (with_reducible assumption) | (with_reducible refine State.raise_keeps ?_) | (split)

theorem State.alarmFts_keeps {s₀ s : State} {f : Fld} (hk : Keeps s₀ s) : Keeps s₀ (State.alarmFts s f) := by
  unfold State.alarmFts; try dsimp only
  repeat' first | (with_reducible assumption) | (with_reducible refine State.raise_keeps ?_) | (split)

theorem State.suppress_keeps {s₀ s : State} {source code : Nat} {n : Nat} (hk : Keeps s₀ s) : Keeps s₀ (State.suppress s source code n) := by
  unfold State.suppress; try dsimp only
  repeat' first | (with_reducible assumption) | (with_reducible refine State.count_keeps ?_) | (with_reducible refine State.setLog_keeps ?_) | (with_reducible refine Op.keeps_getD ?_ ?_) | (split)

theorem State.event_keeps {s₀ s : State} {die source part code : Nat} {args : List Nat} (hk : Keeps s₀ s) : Keeps s₀ (State.event s die source part code args) := by
  unfold State.event; try dsimp only
  repeat' first | (with_reducible assumption) | (with_reducible refine State.setLog_keeps ?_) | (with_reducible refine State.suppress_keeps ?_) | (split)

theorem State.dropTrace_keeps {s₀ s : State} {die : Nat} {n : Nat} (hk : Keeps s₀ s) : Keeps s₀ (State.dropTrace s die n) := by
  unfold State.dropTrace; try dsimp only
  repeat' first | (with_reducible assumption) | (with_reducible refine State.count_keeps ?_) | (with_reducible refine State.setLog_keeps ?_) | (with_reducible refine Op.keeps_getD ?_ ?_) | (split)

theorem State.trace_keeps {s₀ s : State} {engine kind part plan index : Nat} (hk : Keeps s₀ s) : Keeps s₀ (State.trace s engine kind part plan index) := by
  unfold State.trace; try dsimp only
  repeat' first | (with_reducible assumption) | (with_reducible refine State.setLog_keeps ?_) | (with_reducible refine State.dropTrace_keeps ?_) | (split)

theorem State.blockEvent_keeps {s₀ s : State} {index part code : Nat} {args : List Nat} (hk : Keeps s₀ s) : Keeps s₀ (State.blockEvent s index part code args) := by
  unfold State.blockEvent; try dsimp only
  repeat' first | (with_reducible assumption) | (with_reducible refine State.event_keeps ?_) | (split)

theorem State.engineEvent_keeps {s₀ s : State} {e part code : Nat} {args : List Nat} (hk : Keeps s₀ s) : Keeps s₀ (State.engineEvent s e part code args) := by
  unfold State.engineEvent; try dsimp only
  repeat' first | (with_reducible assumption) | (with_reducible refine State.event_keeps ?_) | (split)

theorem State.keepEvent_keeps {s₀ s : State} {source part code watch tick : Nat} {args : List Nat} (hk : Keeps s₀ s) : Keeps s₀ (State.keepEvent s source part code watch tick args) := by
  unfold State.keepEvent; try dsimp only
  repeat' first | (with_reducible assumption) | (with_reducible refine State.logRecord_keeps ?_) | (with_reducible refine State.setLog_keeps ?_) | (with_reducible refine State.suppress_keeps ?_) | (with_reducible refine Op.keeps_getD ?_ ?_) | (split)

end Sys2Proof.Machine
end

