-- ==== Sys2Proof/Laws/KeepsWire.lean ====
section
/-! SUPPORT. What the operations of Machine/Wire.lean keep. -/
namespace Sys2Proof.Machine
set_option Elab.async false

theorem State.putPort_keeps {s₀ s : State} {oe : Nat} {p : Port} (hk : Keeps s₀ s) : Keeps s₀ (State.putPort s oe p) := by
  unfold State.putPort; try dsimp only
  repeat' first | (with_reducible assumption) | (with_reducible refine State.setLnk_keeps ?_) | (split)

theorem State.send_keeps {s₀ s : State} {chan : Nat} {gr : Bool} {dest : Nat} {bytes : List Byte} (hk : Keeps s₀ s) : Keeps s₀ (State.send s chan gr dest bytes) := by
  unfold State.send; try dsimp only
  repeat' first | (with_reducible assumption) | (with_reducible refine State.setLnk_keeps ?_) | (split)

theorem State.sendCtrl_keeps {s₀ s : State} {oe ctype dest group : Nat} {data : List Byte} {hops : Nat} {src : Option Nat} (hk : Keeps s₀ s) : Keeps s₀ (State.sendCtrl s oe ctype dest group data hops src) := by
  unfold State.sendCtrl; try dsimp only
  repeat' first | (with_reducible assumption) | (with_reducible refine State.putPort_keeps ?_) | (with_reducible refine Op.keeps_getD ?_ ?_) | (split)

theorem State.request_keeps {s₀ s : State} {src l : Nat} {write : Bool} {pa : Nat} {data : List Byte} {len : Nat} {gr mover bad : Bool} (hk : Keeps s₀ s) : Keeps s₀ (State.request s src l write pa data len gr mover bad) := by
  unfold State.request; try dsimp only
  repeat' first | (with_reducible assumption) | (with_reducible refine State.setLnk_keeps ?_) | (with_reducible refine State.send_keeps ?_) | (with_reducible refine State.tookFree_keeps ?_) | (split)

theorem State.lenderLost_keeps {s₀ s : State} {l : Nat} (hk : Keeps s₀ s) : Keeps s₀ (State.lenderLost s l) := by
  unfold State.lenderLost; try dsimp only
  repeat' first | (with_reducible assumption) | (with_reducible refine State.putFld_keeps ?_) | (with_reducible refine State.alarmTmv_keeps ?_) | (split)

theorem State.peerLost_keeps {s₀ s : State} {die pkg cause : Nat} (hk : Keeps s₀ s) : Keeps s₀ (State.peerLost s die pkg cause) := by
  unfold State.peerLost; try dsimp only
  repeat' first | (with_reducible assumption) | (with_reducible refine State.putReg_keeps ?_) | (with_reducible refine State.alarmLnk_keeps ?_) | (with_reducible refine State.lenderLost_keeps ?_) | (split)

end Sys2Proof.Machine
end

