-- ==== Sys2Proof/Laws/KeepsMemory.lean ====
section
/-! SUPPORT. What the operations of Machine/Memory.lean keep. -/
namespace Sys2Proof.Machine
set_option Elab.async false

theorem State.violation_keeps {s₀ s : State} {kind off : Nat} {part : Option Nat} {viaAlias write : Bool} {die : Nat} (hk : Keeps s₀ s) : Keeps s₀ (State.violation s kind off part viaAlias write die) := by
  unfold State.violation; try dsimp only
  repeat' first | (with_reducible assumption) | (with_reducible refine State.count_keeps ?_) | (with_reducible refine State.putReg_keeps ?_) | (with_reducible refine Op.keeps_getD ?_ ?_) | (split)

theorem State.tierLevels_keeps {s₀ s : State} {p : Nat} (hk : Keeps s₀ s) : Keeps s₀ (State.tierLevels s p) := by
  unfold State.tierLevels; try dsimp only
  repeat' first | (with_reducible assumption) | (with_reducible refine State.putFld_keeps ?_) | (with_reducible refine State.clrBit_keeps ?_) | (with_reducible refine foldl_keeps ?_ ?_; intro _ _ _) | (split)

theorem State.touch_keeps {s₀ s : State} {pa : Nat} (hk : Keeps s₀ s) : Keeps s₀ (State.touch s pa) := by
  unfold State.touch; try dsimp only
  repeat' first | (with_reducible assumption) | (with_reducible refine State.setTiers_keeps ?_) | (split)

theorem State.countRead_keeps {s₀ s : State} {die pa n : Nat} (hk : Keeps s₀ s) : Keeps s₀ (State.countRead s die pa n) := by
  unfold State.countRead; try dsimp only
  repeat' first | (with_reducible assumption) | (with_reducible refine State.count_keeps ?_) | (with_reducible refine State.setFlash_keeps ?_) | (with_reducible refine State.request_keeps ?_) | (with_reducible refine Op.keeps_getD ?_ ?_) | (split)

theorem State.noteRead_keeps {s₀ s : State} {pa n : Nat} {part : Option Nat} {die : Nat} (hk : Keeps s₀ s) : Keeps s₀ (State.noteRead s pa n part die) := by
  unfold State.noteRead; try dsimp only
  repeat' first | (with_reducible assumption) | (with_reducible refine State.countRead_keeps ?_) | (with_reducible refine State.touch_keeps ?_) | (with_reducible refine State.violation_keeps ?_) | (with_reducible refine foldl_keeps ?_ ?_; intro _ _ _) | (split)

end Sys2Proof.Machine
end

