-- ==== Sys2Proof/Laws/KeepsTranslate.lean ====
section
/-! SUPPORT. What the operations of Machine/Translate.lean keep. -/
namespace Sys2Proof.Machine
set_option Elab.async false

theorem State.readPiece_keeps {s₀ s : State} {a : Access} {pend : List (Nat × Byte)} {va n : Nat} (hk : Keeps s₀ s) : ExP.keeps s₀ (State.readPiece s a pend va n) := by
  unfold State.readPiece; try dsimp only
  repeat' first | (with_reducible assumption) | (with_reducible refine State.noteRead_keeps ?_) | (with_reducible exact ExP.keeps_error) | (with_reducible refine ExP.keeps_ok ?_) | (split) | (refine ExP.keeps_of ?_ (by with_reducible assumption))

theorem State.readPieces_keeps {s₀ s : State} {a : Access} {pend : List (Nat × Byte)} {x0 : List (Nat × Nat)} (hk : Keeps s₀ s) : ExP.keeps s₀ (State.readPieces s a pend x0) := by
  induction x0 generalizing s with
  | nil =>
    unfold State.readPieces; try dsimp only
    repeat' first | (with_reducible assumption) | (with_reducible refine State.readPiece_keeps ?_) | (with_reducible exact ExP.keeps_error) | (with_reducible refine ExP.keeps_ok ?_) | (split) | (refine ExP.keeps_of ?_ (by with_reducible assumption))
  | cons y l ih =>
    unfold State.readPieces; try dsimp only
    repeat' first | (with_reducible assumption) | (with_reducible refine ih ?_) | (with_reducible refine State.readPiece_keeps ?_) | (with_reducible exact ExP.keeps_error) | (with_reducible refine ExP.keeps_ok ?_) | (split) | (refine ExP.keeps_of ?_ (by with_reducible assumption))

theorem State.vRead_keeps {s₀ s : State} {a : Access} {va n : Nat} (hk : Keeps s₀ s) : ExP.keeps s₀ (State.vRead s a va n) := by
  unfold State.vRead; try dsimp only
  repeat' first | (with_reducible assumption) | (with_reducible refine State.readPieces_keeps ?_) | (with_reducible exact ExP.keeps_error) | (with_reducible refine ExP.keeps_ok ?_) | (split) | (refine ExP.keeps_of ?_ (by with_reducible assumption))

end Sys2Proof.Machine
end

