-- ==== Sys2Proof/Laws/KeepsStore.lean ====
section
/-! SUPPORT. What the operations of Machine/Store.lean keep. -/
namespace Sys2Proof.Machine
set_option Elab.async false

theorem State.poisonWrite_keeps {s₀ s : State} {pa n : Nat} {bad : Bool} (hk : Keeps s₀ s) : Keeps s₀ (State.poisonWrite s pa n bad) := by
  unfold State.poisonWrite; try dsimp only
  repeat' first | (with_reducible assumption) | (with_reducible refine State.setPoison_keeps ?_) | (with_reducible refine State.setFlash_keeps ?_) | (with_reducible refine foldl_keeps ?_ ?_; intro _ _ _) | (split)

theorem State.uncache_keeps {s₀ s : State} {line : Nat} (hk : Keeps s₀ s) : Keeps s₀ (State.uncache s line) := by
  unfold State.uncache; try dsimp only
  repeat' first | (with_reducible assumption) | (with_reducible refine State.setMem_keeps putBytes_wf ?_) | (with_reducible refine State.setMem_keeps Sparse.wf_filter ?_) | (with_reducible refine State.setMem_keeps Sparse.wf_set ?_) | (with_reducible refine State.setCoh_keeps ?_) | (split)

theorem State.tear_keeps {s₀ s : State} {n : Nat} (hk : Keeps s₀ s) : Keeps s₀ (State.tear s n) := by
  unfold State.tear; try dsimp only
  repeat' first | (with_reducible assumption) | (with_reducible refine State.setExp_keeps ?_) | (with_reducible refine State.setBit_keeps ?_) | (with_reducible refine State.count_keeps ?_) | (with_reducible refine State.engineEvent_keeps ?_) | (split)

theorem State.tearHeld_keeps {s₀ s : State} {pa : Nat} (hk : Keeps s₀ s) : Keeps s₀ (State.tearHeld s pa) := by
  unfold State.tearHeld; try dsimp only
  repeat' first | (with_reducible assumption) | (with_reducible refine State.tear_keeps ?_) | (with_reducible refine foldl_keeps ?_ ?_; intro _ _ _) | (split)

theorem State.setCredit_keeps {s₀ s : State} {c : Int} (hk : Keeps s₀ s) : Keeps s₀ (State.setCredit s c) := by
  unfold State.setCredit; try dsimp only
  repeat' first | (with_reducible assumption) | (with_reducible refine State.setFlash_keeps ?_) | (with_reducible refine State.putFld_keeps ?_) | (split)

theorem State.govern_keeps {s₀ s : State}  (hk : Keeps s₀ s) : Keeps s₀ (State.govern s) := by
  unfold State.govern; try dsimp only
  repeat' first | (with_reducible assumption) | (with_reducible refine State.putFld_keeps ?_) | (with_reducible refine State.alarmDft_keeps ?_) | (split)

theorem State.showCache_keeps {s₀ s : State}  (hk : Keeps s₀ s) : Keeps s₀ (State.showCache s) := by
  unfold State.showCache; try dsimp only
  repeat' first | (with_reducible assumption) | (with_reducible refine State.putFld_keeps ?_) | (split)

theorem State.program_keeps {s₀ s : State} {n pages : Nat} (hk : Keeps s₀ s) : Keeps s₀ (State.program s n pages) := by
  unfold State.program; try dsimp only
  repeat' first | (with_reducible assumption) | (with_reducible refine State.setFlash_keeps ?_) | (with_reducible refine State.showCache_keeps ?_) | (with_reducible refine State.count_keeps ?_) | (with_reducible refine State.govern_keeps ?_) | (split)

theorem State.flashAccept_keeps {s₀ s : State} {pa : Nat} {bs : List Byte} {bad : Bool} (hk : Keeps s₀ s) : Keeps s₀ (State.flashAccept s pa bs bad) := by
  unfold State.flashAccept; try dsimp only
  repeat' first | (with_reducible assumption) | (with_reducible refine State.setMem_keeps putBytes_wf ?_) | (with_reducible refine State.setMem_keeps Sparse.wf_filter ?_) | (with_reducible refine State.setMem_keeps Sparse.wf_set ?_) | (with_reducible refine State.poisonWrite_keeps ?_) | (with_reducible refine State.setFlash_keeps ?_) | (with_reducible refine State.count_keeps ?_) | (with_reducible refine State.showCache_keeps ?_) | (with_reducible refine State.setCredit_keeps ?_) | (with_reducible refine State.tierLevels_keeps ?_) | (with_reducible refine State.govern_keeps ?_) | (split)

theorem State.flashWrite_keeps {s₀ s : State} {pa : Nat} {bs : List Byte} {bad : Bool} (hk : Keeps s₀ s) : Keeps s₀ (State.flashWrite s pa bs bad) := by
  unfold State.flashWrite; try dsimp only
  repeat' first | (with_reducible assumption) | (with_reducible refine State.count_keeps ?_) | (with_reducible refine State.flashAccept_keeps ?_) | (split)

theorem State.wrPiece_keeps {s₀ s : State} {die pa : Nat} {bs : List Byte} {bad : Bool} (hk : Keeps s₀ s) : Keeps s₀ (State.wrPiece s die pa bs bad) := by
  unfold State.wrPiece; try dsimp only
  repeat' first | (with_reducible assumption) | (with_reducible refine State.uncache_keeps ?_) | (with_reducible refine State.tearHeld_keeps ?_) | (with_reducible refine State.setMem_keeps putBytes_wf ?_) | (with_reducible refine State.setMem_keeps Sparse.wf_filter ?_) | (with_reducible refine State.setMem_keeps Sparse.wf_set ?_) | (with_reducible refine State.poisonWrite_keeps ?_) | (with_reducible refine State.count_keeps ?_) | (with_reducible refine State.touch_keeps ?_) | (with_reducible refine State.flashWrite_keeps ?_) | (with_reducible refine State.request_keeps ?_) | (with_reducible refine State.setPcie_keeps ?_) | (split)

theorem State.wrMem_keeps {s₀ s : State} {pa : Nat} {bs : List Byte} {bad : Bool} {part : Option Nat} {die : Nat} (hk : Keeps s₀ s) : Keeps s₀ (State.wrMem s pa bs bad part die) := by
  unfold State.wrMem; try dsimp only
  repeat' first | (with_reducible assumption) | (with_reducible refine State.wrPiece_keeps ?_) | (with_reducible refine State.violation_keeps ?_) | (with_reducible refine foldl_keeps ?_ ?_; intro _ _ _) | (split)

theorem State.modRun_keeps {s₀ s : State} {e : Nat} {f : Run → Run} (hk : Keeps s₀ s) : Keeps s₀ (State.modRun s e f) := by
  unfold State.modRun; try dsimp only
  repeat' first | (with_reducible assumption) | (with_reducible refine State.setEng_keeps ?_) | (split)

theorem State.vWrite_keeps {s₀ s : State} {a : Access} {va : Nat} {bs : List Byte} {flags : List Bool} (hk : Keeps s₀ s) : Ex.keeps s₀ (State.vWrite s a va bs flags) := by
  unfold State.vWrite; try dsimp only
  repeat' first | (with_reducible assumption) | (with_reducible refine State.modRun_keeps ?_) | (with_reducible exact Ex.keeps_error) | (with_reducible refine Ex.keeps_ok ?_) | (split) | (refine Ex.keeps_of ?_ (by with_reducible assumption))

theorem State.vStore_keeps {s₀ s : State} {a : Access} {va : Nat} {bs : List Byte} {bad : Bool} (hk : Keeps s₀ s) : Ex.keeps s₀ (State.vStore s a va bs bad) := by
  unfold State.vStore; try dsimp only
  repeat' first | (with_reducible assumption) | (with_reducible refine State.modRun_keeps ?_) | (with_reducible refine State.wrMem_keeps ?_) | (with_reducible exact Ex.keeps_error) | (with_reducible refine Ex.keeps_ok ?_) | (with_reducible refine foldl_keeps ?_ ?_; intro _ _ _) | (split) | (refine Ex.keeps_of ?_ (by with_reducible assumption))

theorem State.putOut_keeps {s₀ s : State} {part e a : Nat} {bs : List Byte} {bad : Bool} (hk : Keeps s₀ s) : Keeps s₀ (State.putOut s part e a bs bad) := by
  unfold State.putOut; try dsimp only
  repeat' first | (with_reducible assumption) | (with_reducible refine State.setSram_keeps putBytes_wf ?_) | (with_reducible refine State.setSram_keeps Sparse.wf_filter ?_) | (with_reducible refine State.setSram_keeps Sparse.wf_set ?_) | (with_reducible refine State.poisonWrite_keeps ?_) | (with_reducible refine State.wrMem_keeps ?_) | (split)

theorem State.putAll_keeps {s₀ s : State} {part e : Nat} {pend : List (Nat × Byte)} {bad : List Nat} (hk : Keeps s₀ s) : Keeps s₀ (State.putAll s part e pend bad) := by
  unfold State.putAll; try dsimp only
  repeat' first | (with_reducible assumption) | (with_reducible refine State.putOut_keeps ?_) | (with_reducible refine foldl_keeps ?_ ?_; intro _ _ _) | (split)

theorem State.drain_keeps {s₀ s : State} {e : Nat} (hk : Keeps s₀ s) : Keeps s₀ (State.drain s e) := by
  unfold State.drain; try dsimp only
  repeat' first | (with_reducible assumption) | (with_reducible refine State.putAll_keeps ?_) | (with_reducible refine State.modRun_keeps ?_) | (split)

theorem State.dropPend_keeps {s₀ s : State} {e : Nat} (hk : Keeps s₀ s) : Keeps s₀ (State.dropPend s e) := by
  unfold State.dropPend; try dsimp only
  repeat' first | (with_reducible assumption) | (with_reducible refine State.putAll_keeps ?_) | (with_reducible refine State.modRun_keeps ?_) | (with_reducible refine State.tookFree_keeps ?_) | (split)

theorem State.pRead_keeps {s₀ s : State} {p va n : Nat} (hk : Keeps s₀ s) : ExP.keeps s₀ (State.pRead s p va n) := by
  unfold State.pRead; try dsimp only
  repeat' first | (with_reducible assumption) | (with_reducible refine State.vRead_keeps ?_) | (with_reducible exact ExP.keeps_error) | (with_reducible refine ExP.keeps_ok ?_) | (split) | (refine ExP.keeps_of ?_ (by with_reducible assumption))

theorem State.pStore_keeps {s₀ s : State} {p va : Nat} {bs : List Byte} (hk : Keeps s₀ s) : Op.keeps s₀ (State.pStore s p va bs) := by
  unfold State.pStore; try dsimp only
  repeat' first | (with_reducible assumption) | (with_reducible refine State.wrMem_keeps ?_) | (with_reducible exact Op.keeps_none) | (with_reducible refine Op.keeps_some ?_) | (with_reducible refine foldl_keeps ?_ ?_; intro _ _ _) | (split) | (refine Op.keeps_of ?_ (by with_reducible assumption))

end Sys2Proof.Machine
end

