-- ==== Sys2Proof/Laws/KeepsFrames.lean ====
section
/-! SUPPORT. What the operations of Machine/Frames.lean keep. -/
namespace Sys2Proof.Machine
set_option Elab.async false

theorem State.zeroRange_keeps {s₀ s : State} {a n : Nat} (hk : Keeps s₀ s) : Keeps s₀ (State.zeroRange s a n) := by
  unfold State.zeroRange; try dsimp only
  repeat' first | (with_reducible assumption) | (with_reducible refine State.setMem_keeps putBytes_wf ?_) | (with_reducible refine State.setMem_keeps Sparse.wf_filter ?_) | (with_reducible refine State.setMem_keeps Sparse.wf_set ?_) | (with_reducible refine State.setPoison_keeps ?_) | (with_reducible refine State.setCoh_keeps ?_) | (with_reducible refine State.setFlash_keeps ?_) | (split)

theorem State.putEntry_keeps {s₀ s : State} {at0 e : Nat} (hk : Keeps s₀ s) : Keeps s₀ (State.putEntry s at0 e) := by
  unfold State.putEntry; try dsimp only
  repeat' first | (with_reducible assumption) | (with_reducible refine State.wrMem_keeps ?_) | (split)

theorem State.remapIn_keeps {s₀ s : State} {find : Nat → Option RawLeaf} {stale shift va src dst n : Nat} (hk : Keeps s₀ s) : Keeps s₀ (State.remapIn s find stale shift va src dst n) := by
  unfold State.remapIn; try dsimp only
  repeat' first | (with_reducible assumption) | (with_reducible refine State.putEntry_keeps ?_) | (with_reducible refine State.count_keeps ?_) | (with_reducible refine foldl_keeps ?_ ?_; intro _ _ _) | (split)

theorem State.flushRange_keeps {s₀ s : State} {p src n : Nat} (hk : Keeps s₀ s) : Keeps s₀ (State.flushRange s p src n) := by
  unfold State.flushRange; try dsimp only
  repeat' first | (with_reducible assumption) | (with_reducible refine State.setMmu_keeps ?_) | (split)

theorem State.remap_keeps {s₀ s : State} {p va src dst n : Nat} (hk : Keeps s₀ s) : Keeps s₀ (State.remap s p va src dst n) := by
  unfold State.remap; try dsimp only
  repeat' first | (with_reducible assumption) | (with_reducible refine State.remapIn_keeps ?_) | (with_reducible refine State.flushRange_keeps ?_) | (split)

theorem State.unmap_keeps {s₀ s : State} {p va base n : Nat} (hk : Keeps s₀ s) : Keeps s₀ (State.unmap s p va base n) := by
  unfold State.unmap; try dsimp only
  repeat' first | (with_reducible assumption) | (with_reducible refine State.putEntry_keeps ?_) | (with_reducible refine State.flushRange_keeps ?_) | (with_reducible refine foldl_keeps ?_ ?_; intro _ _ _) | (split)

theorem State.freeFrame_keeps {s₀ s : State} {base : Nat} {f : Frame} (hk : Keeps s₀ s) : Keeps s₀ (State.freeFrame s base f) := by
  unfold State.freeFrame; try dsimp only
  repeat' first | (with_reducible assumption) | (with_reducible refine State.tearHeld_keeps ?_) | (with_reducible refine State.unmap_keeps ?_) | (with_reducible refine State.setTiers_keeps ?_) | (with_reducible refine State.tierLevels_keeps ?_) | (with_reducible refine State.putReg_keeps ?_) | (split)

theorem State.freeBase_keeps {s₀ s : State} {p base : Nat} (hk : Keeps s₀ s) : Keeps s₀ (State.freeBase s p base) := by
  unfold State.freeBase; try dsimp only
  repeat' first | (with_reducible assumption) | (with_reducible refine State.setBit_keeps ?_) | (with_reducible refine State.setTiers_keeps ?_) | (with_reducible refine State.freeFrame_keeps ?_) | (split)

theorem execFrameZeroed_keeps {s₀ s : State} {base : Nat} (hk : Keeps s₀ s) : Out.keeps s₀ (execFrameZeroed base s) := by
  unfold execFrameZeroed; try dsimp only
  repeat' first | (with_reducible assumption) | (with_reducible refine State.setTiers_keeps ?_) | (with_reducible refine State.zeroRange_keeps ?_) | (with_reducible refine Out.keeps_next ?_) | (split)

theorem State.settleRun_keeps {s₀ s : State} {a n : Nat} (hk : Keeps s₀ s) : Keeps s₀ (State.settleRun s a n) := by
  unfold State.settleRun; try dsimp only
  repeat' first | (with_reducible assumption) | (with_reducible refine State.setTiers_keeps ?_) | (with_reducible refine State.freeFrame_keeps ?_) | (with_reducible refine foldl_keeps ?_ ?_; intro _ _ _) | (split)

theorem State.cancelMove_keeps {s₀ s : State} {m : Move} (hk : Keeps s₀ s) : Keeps s₀ (State.cancelMove s m) := by
  unfold State.cancelMove; try dsimp only
  repeat' first | (with_reducible assumption) | (with_reducible refine State.setTiers_keeps ?_) | (with_reducible refine State.settleRun_keeps ?_) | (with_reducible refine State.tierLevels_keeps ?_) | (with_reducible exact Res.keeps_ill) | (with_reducible exact Res.keeps_illCommon) | (with_reducible exact Res.keeps_trap) | (with_reducible refine Res.keeps_done ?_) | (with_reducible refine Res.keeps_stay ?_) | (split) | (refine Res.keeps_of_done ?_ (by with_reducible assumption))

theorem State.startMove_keeps {s₀ s : State} {base t : Nat} {f : Frame} {engine : Option Nat} (hk : Keeps s₀ s) : Op.keeps s₀ (State.startMove s base t f engine) := by
  unfold State.startMove; try dsimp only
  repeat' first | (with_reducible assumption) | (with_reducible refine State.setTiers_keeps ?_) | (with_reducible refine State.tierLevels_keeps ?_) | (with_reducible refine State.tookFree_keeps ?_) | (with_reducible exact Op.keeps_none) | (with_reducible refine Op.keeps_some ?_) | (with_reducible refine foldl_keeps ?_ ?_; intro _ _ _) | (split) | (refine Op.keeps_of ?_ (by with_reducible assumption))

theorem State.copyRun'_keeps {s₀ s : State} {src dst n part die : Nat} (hk : Keeps s₀ s) : Keeps s₀ (State.copyRun' s src dst n part die) := by
  unfold State.copyRun'; try dsimp only
  repeat' first | (with_reducible assumption) | (with_reducible refine State.uncache_keeps ?_) | (with_reducible refine State.setPcie_keeps ?_) | (with_reducible refine State.noteRead_keeps ?_) | (with_reducible refine State.flashAccept_keeps ?_) | (with_reducible refine State.setMem_keeps putBytes_wf ?_) | (with_reducible refine State.setMem_keeps Sparse.wf_filter ?_) | (with_reducible refine State.setMem_keeps Sparse.wf_set ?_) | (with_reducible refine State.zeroRange_keeps ?_) | (with_reducible refine State.setPoison_keeps ?_) | (with_reducible refine State.count_keeps ?_) | (with_reducible refine State.request_keeps ?_) | (with_reducible refine foldl_keeps ?_ ?_; intro _ _ _) | (split)

theorem State.endMove_keeps {s₀ s : State} {m : Move} (hk : Keeps s₀ s) : Keeps s₀ (State.endMove s m) := by
  unfold State.endMove; try dsimp only
  repeat' first | (with_reducible assumption) | (with_reducible refine State.copyRun'_keeps ?_) | (with_reducible refine State.count_keeps ?_) | (with_reducible refine State.remap_keeps ?_) | (with_reducible refine State.setTiers_keeps ?_) | (with_reducible refine State.freeFrame_keeps ?_) | (with_reducible refine State.tierLevels_keeps ?_) | (with_reducible refine foldl_keeps ?_ ?_; intro _ _ _) | (split)

end Sys2Proof.Machine
end

