-- ==== Sys2Proof/Laws/KeepsPlans.lean ====
section
/-! SUPPORT. What the operations of Machine/Plans.lean keep. -/
namespace Sys2Proof.Machine
set_option Elab.async false

theorem State.buoyInterrupt_keeps {s₀ s : State} {p : Nat} (hk : Keeps s₀ s) : Keeps s₀ (State.buoyInterrupt s p) := by
  unfold State.buoyInterrupt; try dsimp only
  repeat' first | (with_reducible assumption) | (with_reducible refine State.setPcie_keeps ?_) | (split)

theorem State.arms_keeps {s₀ s : State} {p : Nat} (hk : Keeps s₀ s) : Keeps s₀ (State.arms s p) := by
  unfold State.arms; try dsimp only
  repeat' first | (with_reducible assumption) | (with_reducible refine State.putReg_keeps ?_) | (with_reducible refine State.buoyInterrupt_keeps ?_) | (with_reducible refine foldl_keeps ?_ ?_; intro _ _ _) | (split)

theorem State.putBuoy_keeps {s₀ s : State} {b : Nat} {v : Word} (hk : Keeps s₀ s) : Keeps s₀ (State.putBuoy s b v) := by
  unfold State.putBuoy; try dsimp only
  repeat' first | (with_reducible assumption) | (with_reducible refine State.putReg_keeps ?_) | (with_reducible refine State.arms_keeps ?_) | (split)

theorem State.addBuoy_keeps {s₀ s : State} {b : Nat} {v : Word} (hk : Keeps s₀ s) : Keeps s₀ (State.addBuoy s b v) := by
  unfold State.addBuoy; try dsimp only
  repeat' first | (with_reducible assumption) | (with_reducible refine State.putBuoy_keeps ?_) | (split)

theorem State.addOwnBuoy_keeps {s₀ s : State} {p b : Nat} {v : Word} (hk : Keeps s₀ s) : Keeps s₀ (State.addOwnBuoy s p b v) := by
  unfold State.addOwnBuoy; try dsimp only
  repeat' first | (with_reducible assumption) | (with_reducible refine State.addBuoy_keeps ?_) | (split)

theorem State.writeRecord_keeps {s₀ s : State} {pl : Plan} {id status slot : Nat} (hk : Keeps s₀ s) : Keeps s₀ (State.writeRecord s pl id status slot) := by
  unfold State.writeRecord; try dsimp only
  repeat' first | (with_reducible assumption) | (with_reducible refine State.pStore_keeps ?_) | (with_reducible exact Op.keeps_none) | (with_reducible refine Op.keeps_some ?_) | (with_reducible refine Op.keeps_getD ?_ ?_) | (split) | (refine Op.keeps_of ?_ (by with_reducible assumption))

theorem State.modPlan_keeps {s₀ s : State} {id : Nat} {f : Plan → Plan} (hk : Keeps s₀ s) : Keeps s₀ (State.modPlan s id f) := by
  unfold State.modPlan; try dsimp only
  repeat' first | (with_reducible assumption) | (with_reducible refine State.setAdm_keeps ?_) | (split)

theorem State.planEnd_keeps {s₀ s : State} {id : Nat} (hk : Keeps s₀ s) : Keeps s₀ (State.planEnd s id) := by
  unfold State.planEnd; try dsimp only
  repeat' first | (with_reducible assumption) | (with_reducible refine State.writeRecord_keeps ?_) | (with_reducible refine State.setAdm_keeps ?_) | (with_reducible refine State.addBuoy_keeps ?_) | (split)

theorem State.failPlan_keeps {s₀ s : State} {id slot status : Nat} {engine : Nat} (hk : Keeps s₀ s) : Keeps s₀ (State.failPlan s id slot status engine) := by
  unfold State.failPlan; try dsimp only
  repeat' first | (with_reducible assumption) | (with_reducible refine State.setAdm_keeps ?_) | (with_reducible refine State.writeRecord_keeps ?_) | (with_reducible refine State.engineEvent_keeps ?_) | (split)

theorem State.broken_keeps {s₀ s : State} {engine part : Nat} {notStarted : Bool} (hk : Keeps s₀ s) : Keeps s₀ (State.broken s engine part notStarted) := by
  unfold State.broken; try dsimp only
  repeat' first | (with_reducible assumption) | (with_reducible refine State.setBit_keeps ?_) | (with_reducible refine State.alarmWch_keeps ?_) | (with_reducible refine State.count_keeps ?_) | (with_reducible refine State.putReg_keeps ?_) | (split)

theorem State.showPlanes_keeps {s₀ s : State} {e : Nat} (hk : Keeps s₀ s) : Keeps s₀ (State.showPlanes s e) := by
  unfold State.showPlanes; try dsimp only
  repeat' first | (with_reducible assumption) | (with_reducible refine State.putFld_keeps ?_) | (with_reducible refine State.sideArm_keeps ?_) | (with_reducible refine Op.keeps_getD ?_ ?_) | (split)

theorem State.putDeps_keeps {s₀ s : State} {e : Nat} {x : Timing} (hk : Keeps s₀ s) : Keeps s₀ (State.putDeps s e x) := by
  unfold State.putDeps
  exact State.setEng_keeps hk

theorem State.rest_keeps {s₀ s : State} {e : Nat} (hk : Keeps s₀ s) : Keeps s₀ (State.rest s e) := by
  unfold State.rest; try dsimp only
  repeat' first | (with_reducible assumption) | (with_reducible refine State.showEngine_keeps ?_) | (with_reducible refine State.showPlanes_keeps ?_) | (split)

theorem State.cancelMoves_keeps {s₀ s : State} {e : Nat} (hk : Keeps s₀ s) : Keeps s₀ (State.cancelMoves s e) := by
  unfold State.cancelMoves; try dsimp only
  repeat' first | (with_reducible assumption) | (with_reducible refine State.cancelMove_keeps ?_) | (with_reducible refine foldl_keeps ?_ ?_; intro _ _ _) | (split)

theorem State.routeOutcome_keeps {s₀ s : State} {e outcome : Nat} (hk : Keeps s₀ s) : Keeps s₀ (State.routeOutcome s e outcome) := by
  unfold State.routeOutcome; try dsimp only
  repeat' first | (with_reducible assumption) | (with_reducible refine State.setTiers_keeps ?_) | (split)

theorem State.endStream_keeps {s₀ s : State} {n : Nat} (hk : Keeps s₀ s) : Keeps s₀ (State.endStream s n) := by
  unfold State.endStream; try dsimp only
  repeat' first | (with_reducible assumption) | (with_reducible refine State.setExp_keeps ?_) | (with_reducible refine State.clrBit_keeps ?_) | (split)

theorem State.stop_keeps {s₀ s : State} {e : Nat} {st : SlotState} (hk : Keeps s₀ s) : Keeps s₀ (State.stop s e st) := by
  unfold State.stop; try dsimp only
  repeat' first | (with_reducible assumption) | (with_reducible refine State.modPlan_keeps ?_) | (with_reducible refine State.trace_keeps ?_) | (with_reducible refine State.setEng_keeps ?_) | (with_reducible refine State.rest_keeps ?_) | (split)

theorem State.stopAll_keeps {s₀ s : State} {e : Nat} {st : SlotState} (hk : Keeps s₀ s) : Keeps s₀ (State.stopAll s e st) := by
  unfold State.stopAll; try dsimp only
  repeat' first | (with_reducible assumption) | (with_reducible refine State.stop_keeps ?_) | (with_reducible refine foldl_keeps ?_ ?_; intro _ _ _) | (split)

theorem State.dropExchange_keeps {s₀ s : State} {e : Nat} (hk : Keeps s₀ s) : Keeps s₀ (State.dropExchange s e) := by
  unfold State.dropExchange; try dsimp only
  repeat' first | (with_reducible assumption) | (with_reducible refine State.setCol_keeps ?_) | (split)

theorem State.dropUpdate_keeps {s₀ s : State} {e : Nat} (hk : Keeps s₀ s) : Keeps s₀ (State.dropUpdate s e) := by
  unfold State.dropUpdate; try dsimp only
  repeat' first | (with_reducible assumption) | (with_reducible refine State.putAll_keeps ?_) | (with_reducible refine State.wrMem_keeps ?_) | (with_reducible refine State.count_keeps ?_) | (with_reducible refine State.setUpd_keeps ?_) | (with_reducible refine State.tookFree_keeps ?_) | (with_reducible refine foldl_keeps ?_ ?_; intro _ _ _) | (split)

theorem State.discard_keeps {s₀ s : State} {e : Nat} (hk : Keeps s₀ s) : Keeps s₀ (State.discard s e) := by
  unfold State.discard; try dsimp only
  repeat' first | (with_reducible assumption) | (with_reducible refine State.dropPend_keeps ?_) | (with_reducible refine State.cancelMoves_keeps ?_) | (with_reducible refine State.routeOutcome_keeps ?_) | (with_reducible refine State.endStream_keeps ?_) | (with_reducible refine State.dropExchange_keeps ?_) | (with_reducible refine State.dropUpdate_keeps ?_) | (with_reducible refine Op.keeps_getD ?_ ?_) | (with_reducible refine foldl_keeps ?_ ?_; intro _ _ _) | (split)

theorem State.terminate_keeps {s₀ s : State} {e status : Nat} (hk : Keeps s₀ s) : Keeps s₀ (State.terminate s e status) := by
  unfold State.terminate; try dsimp only
  repeat' first | (with_reducible assumption) | (with_reducible refine State.discard_keeps ?_) | (with_reducible refine State.stopAll_keeps ?_) | (with_reducible refine State.broken_keeps ?_) | (with_reducible refine State.failPlan_keeps ?_) | (with_reducible refine State.planEnd_keeps ?_) | (split)

theorem State.planError_keeps {s₀ s : State} {e : Nat} (hk : Keeps s₀ s) : Keeps s₀ (State.planError s e) := by
  unfold State.planError; try dsimp only
  repeat' first | (with_reducible assumption) | (with_reducible refine State.terminate_keeps ?_) | (split)

theorem State.consumePoison_keeps {s₀ s : State} {e pa : Nat} (hk : Keeps s₀ s) : Keeps s₀ (State.consumePoison s e pa) := by
  unfold State.consumePoison; try dsimp only
  repeat' first | (with_reducible assumption) | (with_reducible refine State.count_keeps ?_) | (with_reducible refine State.putReg_keeps ?_) | (with_reducible refine State.engineEvent_keeps ?_) | (with_reducible refine State.terminate_keeps ?_) | (split)

end Sys2Proof.Machine
end

