-- ==== Sys2Proof/Laws/KeepsStreams.lean ====
section
/-! SUPPORT. What the operations of Machine/Streams.lean keep. -/
namespace Sys2Proof.Machine
set_option Elab.async false

theorem State.ownError_keeps {s₀ s : State} {e code idx part : Nat} (hk : Keeps s₀ s) : Keeps s₀ (State.ownError s e code idx part) := by
  unfold State.ownError; try dsimp only
  repeat' first | (with_reducible assumption) | (with_reducible refine State.putReg_keeps ?_) | (split)

theorem State.errorEvent_keeps {s₀ s : State} {e : Nat} {r : Run} {sub : Nat} (hk : Keeps s₀ s) : Keeps s₀ (State.errorEvent s e r sub) := by
  unfold State.errorEvent; try dsimp only
  repeat' first | (with_reducible assumption) | (with_reducible refine State.engineEvent_keeps ?_) | (split)

theorem State.illFormed_keeps {s₀ s : State} {e : Nat} {r : Run} {code : Nat} (hk : Keeps s₀ s) : Keeps s₀ (State.illFormed s e r code) := by
  unfold State.illFormed; try dsimp only
  repeat' first | (with_reducible assumption) | (with_reducible refine State.ownError_keeps ?_) | (with_reducible refine State.errorEvent_keeps ?_) | (with_reducible refine State.planError_keeps ?_) | (split)

theorem State.illCommon_keeps {s₀ s : State} {e : Nat} {r : Run} {code : Nat} (hk : Keeps s₀ s) : Keeps s₀ (State.illCommon s e r code) := by
  unfold State.illCommon; try dsimp only
  repeat' first | (with_reducible assumption) | (with_reducible refine State.putReg_keeps ?_) | (with_reducible refine State.errorEvent_keeps ?_) | (with_reducible refine State.planError_keeps ?_) | (split)

theorem State.faultQueue_keeps {s₀ s : State} {p : Nat} {bs : List Byte} (hk : Keeps s₀ s) : Keeps s₀ (State.faultQueue s p bs) := by
  unfold State.faultQueue; try dsimp only
  repeat' first | (with_reducible assumption) | (with_reducible refine State.count_keeps ?_) | (with_reducible refine State.pStore_keeps ?_) | (with_reducible exact Op.keeps_none) | (with_reducible refine Op.keeps_some ?_) | (split) | (refine Op.keeps_of ?_ (by with_reducible assumption))

theorem State.faultRecord_keeps {s₀ s : State} {e : Nat} {r : Run} {va kind level acc slot : Nat} (hk : Keeps s₀ s) : Keeps s₀ (State.faultRecord s e r va kind level acc slot) := by
  unfold State.faultRecord; try dsimp only
  repeat' first | (with_reducible assumption) | (with_reducible refine State.faultQueue_keeps ?_) | (with_reducible refine State.count_keeps ?_) | (with_reducible refine State.putReg_keeps ?_) | (with_reducible refine State.addOwnBuoy_keeps ?_) | (with_reducible refine State.engineEvent_keeps ?_) | (split)

theorem State.faultSlot_keeps {s₀ s : State} {e : Nat} {r : Run} {va kind level acc : Nat} (hk : Keeps s₀ s) : Keeps s₀ (State.faultSlot s e r va kind level acc) := by
  unfold State.faultSlot; try dsimp only
  repeat' first | (with_reducible assumption) | (with_reducible refine State.faultRecord_keeps ?_) | (with_reducible refine State.planError_keeps ?_) | (with_reducible refine State.setBit_keeps ?_) | (with_reducible refine State.modPlan_keeps ?_) | (with_reducible refine State.trace_keeps ?_) | (with_reducible refine State.setEng_keeps ?_) | (with_reducible refine State.rest_keeps ?_) | (split)

theorem State.showDoorbell_keeps {s₀ s : State} {e : Nat} {on : Bool} (hk : Keeps s₀ s) : Keeps s₀ (State.showDoorbell s e on) := by
  unfold State.showDoorbell; try dsimp only
  repeat' first | (with_reducible assumption) | (with_reducible refine State.putFld_keeps ?_) | (split)

theorem State.atDoorbell_keeps {s₀ s : State} {e : Nat} (hk : Keeps s₀ s) : Keeps s₀ (State.atDoorbell s e) := by
  unfold State.atDoorbell; try dsimp only
  repeat' first | (with_reducible assumption) | (with_reducible refine State.modRun_keeps ?_) | (with_reducible refine State.showDoorbell_keeps ?_) | (split)

theorem State.advance_keeps {s₀ s : State} {e size : Nat} (hk : Keeps s₀ s) : Keeps s₀ (State.advance s e size) := by
  unfold State.advance; try dsimp only
  repeat' first | (with_reducible assumption) | (with_reducible refine State.modRun_keeps ?_) | (with_reducible refine State.tookFree_keeps ?_) | (split)

theorem State.trapped_keeps {s₀ s : State} {e : Nat} {r : Run} {x0 : Trap} (hk : Keeps s₀ s) : Keeps s₀ (State.trapped s e r x0) := by
  cases x0 <;> (unfold State.trapped; try dsimp only) <;> repeat' first | (with_reducible assumption) | (with_reducible refine State.faultSlot_keeps ?_) | (with_reducible refine State.consumePoison_keeps ?_) | (split)

theorem State.settle_keeps {s₀ s : State} {e : Nat} {r : Run} {size : Nat} {x : Res} (hx : Res.keeps s₀ x) (h : Keeps s₀ s) :
    Keeps s₀ (State.settle s e r size x) := by
  cases x with
  | done t => exact State.advance_keeps hx
  | stay t => exact hx
  | ill l => exact State.illFormed_keeps (State.tookFree_keeps h)
  | illCommon l => exact State.illCommon_keeps (State.tookFree_keeps h)
  | trap t => exact State.trapped_keeps h

theorem State.fetchEntry_keeps {s₀ s : State} {e : Nat} {r : Run} {n : Nat} (hk : Keeps s₀ s) : ExP.keeps s₀ (State.fetchEntry s e r n) := by
  unfold State.fetchEntry; try dsimp only
  repeat' first | (with_reducible assumption) | (with_reducible refine State.vRead_keeps ?_) | (with_reducible refine State.stream_keeps ?_) | (with_reducible exact Res.keeps_ill) | (with_reducible exact Res.keeps_illCommon) | (with_reducible exact Res.keeps_trap) | (with_reducible refine Res.keeps_done ?_) | (with_reducible refine Res.keeps_stay ?_) | (with_reducible exact ExP.keeps_error) | (with_reducible refine ExP.keeps_ok ?_) | (split) | (refine ExP.keeps_of ?_ (by with_reducible assumption)) | (refine Res.keeps_of_done ?_ (by with_reducible assumption))

theorem State.runCmd_keeps {s₀ s : State} {e : Nat} {mine : List Byte → Bool} {body : Run → List Byte → State → Res}
    (hb : ∀ r b t, Keeps s₀ t → Res.keeps s₀ (body r b t)) (h : Keeps s₀ s) : Keeps s₀ (State.runCmd s e mine body) := by
  unfold State.runCmd; try dsimp only
  repeat' first | (with_reducible assumption) | (with_reducible refine hb _ _ _ ?_) | (with_reducible refine State.setTracker_keeps ?_) | (with_reducible refine State.atDoorbell_keeps ?_) | (with_reducible refine State.fetchEntry_keeps ?_) | (with_reducible refine State.trapped_keeps ?_) | (with_reducible refine State.illCommon_keeps ?_) | (with_reducible refine State.illFormed_keeps ?_) | (with_reducible refine State.settle_keeps ?_ ?_) | (split) | (refine ExP.keeps_of ?_ (by with_reducible assumption))

theorem Res.ofStore_keeps {s₀ : State} {x : Except Trap State} (h : Ex.keeps s₀ x) : Res.keeps s₀ (Res.ofStore x) := by
  cases x with
  | ok t => exact h
  | error t => exact Res.keeps_trap

theorem State.exposeLoad_keeps {s₀ s : State} {e : Nat} {r : Run} {atCommon : Bool} (hk : Keeps s₀ s) : Keeps s₀ (State.exposeLoad s e r atCommon) := by
  unfold State.exposeLoad; try dsimp only
  repeat' first | (with_reducible assumption) | (with_reducible refine State.setFree_keeps ?_) | (with_reducible refine State.count_keeps ?_) | (with_reducible refine State.putDeps_keeps ?_) | (split)

theorem State.waitCycles_keeps {s₀ s : State} {e n : Nat} (hk : Keeps s₀ s) : Keeps s₀ (State.waitCycles s e n) := by
  unfold State.waitCycles; try dsimp only
  replace hk := State.putDeps_keeps (e := e) (x := (s.depsOf e).pass n) hk
  repeat' first | (with_reducible assumption) | (with_reducible refine State.count_keeps ?_) | (split)

theorem State.commonCycles_keeps {s₀ s : State} {e : Nat} {waits : Bool} (hk : Keeps s₀ s) : Keeps s₀ (State.commonCycles s e waits) := by
  unfold State.commonCycles; try dsimp only
  repeat' first | (with_reducible assumption) | (with_reducible refine State.waitCycles_keeps ?_) | (split)

end Sys2Proof.Machine
end

