-- ==== Sys2Proof/Laws/KeepsCalendar.lean ====
section
/-! SUPPORT. What the operations of Machine/Calendar.lean keep. -/
namespace Sys2Proof.Machine
set_option Elab.async false

theorem State.setUnit_keeps {s₀ s : State} {u : Nat} {x : FtUnit} (hk : Keeps s₀ s) : Keeps s₀ (State.setUnit s u x) := by
  unfold State.setUnit; try dsimp only
  repeat' first | (with_reducible assumption) | (with_reducible refine State.setFt_keeps ?_) | (split)

theorem State.markDue_keeps {s₀ s : State} {u : Nat} (hk : Keeps s₀ s) : Keeps s₀ (State.markDue s u) := by
  unfold State.markDue; try dsimp only
  repeat' first | (with_reducible assumption) | (with_reducible refine State.setUnit_keeps ?_) | (split)

theorem State.placeWindows_keeps {s₀ s : State} {u : Nat} {x0 : Nat} {x1 : Nat} (hk : Keeps s₀ s) : Keeps s₀ (State.placeWindows s u x0 x1) := by
  induction x0 generalizing s x1 with
  | zero =>
    unfold State.placeWindows; try dsimp only
    repeat' first | (with_reducible assumption) | (with_reducible refine State.setFt_keeps ?_) | (split)
  | succ l ih =>
    unfold State.placeWindows; try dsimp only
    repeat' first | (with_reducible assumption) | (with_reducible refine ih ?_) | (with_reducible refine State.setFt_keeps ?_) | (split)

theorem State.reserveTest_keeps {s₀ s : State} {u due : Nat} (hk : Keeps s₀ s) : Keeps s₀ (State.reserveTest s u due) := by
  unfold State.reserveTest; try dsimp only
  repeat' first | (with_reducible assumption) | (with_reducible refine State.markDue_keeps ?_) | (with_reducible refine State.setUnit_keeps ?_) | (with_reducible refine State.placeWindows_keeps ?_) | (split)

theorem State.countUnits_keeps {s₀ s : State}  (hk : Keeps s₀ s) : Keeps s₀ (State.countUnits s) := by
  unfold State.countUnits; try dsimp only
  repeat' first | (with_reducible assumption) | (with_reducible refine State.putFld_keeps ?_) | (split)

theorem State.starve_keeps {s₀ s : State} {u : Nat} (hk : Keeps s₀ s) : Keeps s₀ (State.starve s u) := by
  unfold State.starve; try dsimp only
  repeat' first | (with_reducible assumption) | (with_reducible refine State.setUnit_keeps ?_) | (with_reducible refine State.alarmFts_keeps ?_) | (with_reducible refine State.event_keeps ?_) | (with_reducible refine State.reserveTest_keeps ?_) | (with_reducible refine State.countUnits_keeps ?_) | (split)

theorem State.abortTest_keeps {s₀ s : State} {u : Nat} (hk : Keeps s₀ s) : Keeps s₀ (State.abortTest s u) := by
  unfold State.abortTest; try dsimp only
  repeat' first | (with_reducible assumption) | (with_reducible refine State.setFt_keeps ?_) | (with_reducible refine State.count_keeps ?_) | (with_reducible refine State.setUnit_keeps ?_) | (with_reducible refine State.rest_keeps ?_) | (with_reducible refine State.starve_keeps ?_) | (split)

end Sys2Proof.Machine
end

