-- ==== Sys2Proof/Laws/KeepsAdmission.lean ====
section
/-! SUPPORT. What the operations of Machine/Admission.lean keep. -/
namespace Sys2Proof.Machine
set_option Elab.async false

theorem State.readPlan_keeps {s₀ s : State} {p va : Nat} (h : Keeps s₀ s) : Keeps s₀ (s.readPlan p va).state := by
  unfold State.readPlan; try dsimp only
  repeat' first | (with_reducible assumption) | (with_reducible refine State.pRead_keeps ?_) | (split) | (refine ExP.keeps_of ?_ (by with_reducible assumption))

theorem State.reject_keeps {s₀ s : State} {p : Nat} {result : Option Nat} {reason a : Nat} (hk : Keeps s₀ s) : Keeps s₀ (State.reject s p result reason a) := by
  unfold State.reject; try dsimp only
  repeat' first | (with_reducible assumption) | (with_reducible refine State.count_keeps ?_) | (with_reducible refine State.setBit_keeps ?_) | (with_reducible refine State.pStore_keeps ?_) | (with_reducible exact Op.keeps_none) | (with_reducible refine Op.keeps_some ?_) | (with_reducible refine Op.keeps_getD ?_ ?_) | (split) | (refine Op.keeps_of ?_ (by with_reducible assumption))

theorem State.accept_keeps {s₀ s : State} {p : Nat} {t : PlanText} {start : Nat} (hk : Keeps s₀ s) : Keeps s₀ (State.accept s p t start) := by
  unfold State.accept; try dsimp only
  repeat' first | (with_reducible assumption) | (with_reducible refine State.setAdm_keeps ?_) | (with_reducible refine State.count_keeps ?_) | (with_reducible refine State.abortTest_keeps ?_) | (with_reducible refine State.writeRecord_keeps ?_) | (with_reducible refine foldl_keeps ?_ ?_; intro _ _ _) | (split)

theorem State.decideFront_keeps {s₀ s : State} {p va : Nat} (hk : Keeps s₀ s) : Keeps s₀ (State.decideFront s p va) := by
  unfold State.decideFront; try dsimp only
  repeat' first | (with_reducible assumption) | (with_reducible refine State.readPlan_keeps ?_) | (with_reducible refine State.reject_keeps ?_) | (with_reducible refine State.accept_keeps ?_) | (split)

theorem State.showQueue_keeps {s₀ s : State} {p : Nat} (hk : Keeps s₀ s) : Keeps s₀ (State.showQueue s p) := by
  unfold State.showQueue; try dsimp only
  repeat' first | (with_reducible assumption) | (with_reducible refine State.putFld_keeps ?_) | (split)

theorem State.submit_keeps {s₀ s : State} {p : Nat} (hk : Keeps s₀ s) : Keeps s₀ (State.submit s p) := by
  unfold State.submit; try dsimp only
  repeat' first | (with_reducible assumption) | (with_reducible refine State.setBit_keeps ?_) | (with_reducible refine State.setAdm_keeps ?_) | (with_reducible refine State.showQueue_keeps ?_) | (split)

theorem execPlanAdmit_keeps {s₀ s : State}  (hk : Keeps s₀ s) : Out.keeps s₀ (execPlanAdmit s) := by
  unfold execPlanAdmit; try dsimp only
  repeat' first | (with_reducible assumption) | (with_reducible refine State.setAdm_keeps ?_) | (with_reducible refine State.showQueue_keeps ?_) | (with_reducible refine State.decideFront_keeps ?_) | (with_reducible refine State.tookFree_keeps ?_) | (with_reducible refine Out.keeps_next ?_) | (split)

end Sys2Proof.Machine
end

