-- ==== Sys2Proof/Laws/KeepsFlashTier.lean ====
section
/-! SUPPORT. What the operations of Machine/FlashTier.lean keep. -/
namespace Sys2Proof.Machine
set_option Elab.async false

theorem State.programStripe_keeps {s₀ s : State}  (hk : Keeps s₀ s) : Keeps s₀ (State.programStripe s) := by
  unfold State.programStripe; try dsimp only
  repeat' first | (with_reducible assumption) | (with_reducible refine State.setFlash_keeps ?_) | (with_reducible refine State.program_keeps ?_) | (split)

theorem State.programAll_keeps {s₀ s : State}  (hk : Keeps s₀ s) : Keeps s₀ (State.programAll s) := by
  unfold State.programAll; try dsimp only
  repeat' first | (with_reducible assumption) | (with_reducible refine State.programStripe_keeps ?_) | (with_reducible refine foldl_keeps ?_ ?_; intro _ _ _) | (split)

theorem State.closeStripe_keeps {s₀ s : State}  (hk : Keeps s₀ s) : Keeps s₀ (State.closeStripe s) := by
  unfold State.closeStripe; try dsimp only
  repeat' first | (with_reducible assumption) | (with_reducible refine State.setFlash_keeps ?_) | (with_reducible refine State.program_keeps ?_) | (split)

theorem execStripeClose_keeps {s₀ s : State}  (hk : Keeps s₀ s) : Out.keeps s₀ (execStripeClose s) := by
  unfold execStripeClose; try dsimp only
  repeat' first | (with_reducible assumption) | (with_reducible refine State.closeStripe_keeps ?_) | (with_reducible refine Out.keeps_next ?_) | (split)

theorem execWriteCacheRoom_keeps {s₀ s : State}  (hk : Keeps s₀ s) : Out.keeps s₀ (execWriteCacheRoom s) := by
  unfold execWriteCacheRoom; try dsimp only
  repeat' first | (with_reducible assumption) | (with_reducible refine State.programStripe_keeps ?_) | (with_reducible refine Out.keeps_next ?_) | (split)

theorem State.durabilityBuoys_keeps {s₀ s : State} {w : Nat} (hk : Keeps s₀ s) : Keeps s₀ (State.durabilityBuoys s w) := by
  unfold State.durabilityBuoys; try dsimp only
  repeat' first | (with_reducible assumption) | (with_reducible refine State.putBuoy_keeps ?_) | (with_reducible refine foldl_keeps ?_ ?_; intro _ _ _) | (split)

theorem execDurableAdvance_keeps {s₀ s : State}  (hk : Keeps s₀ s) : Out.keeps s₀ (execDurableAdvance s) := by
  unfold execDurableAdvance; try dsimp only
  repeat' first | (with_reducible assumption) | (with_reducible refine State.programAll_keeps ?_) | (with_reducible refine State.setFlash_keeps ?_) | (with_reducible refine State.putFld_keeps ?_) | (with_reducible refine State.durabilityBuoys_keeps ?_) | (with_reducible refine Out.keeps_next ?_) | (split)

theorem State.relocate_keeps {s₀ s : State} {block : Nat} (hk : Keeps s₀ s) : Keeps s₀ (State.relocate s block) := by
  unfold State.relocate; try dsimp only
  repeat' first | (with_reducible assumption) | (with_reducible refine State.setFlash_keeps ?_) | (split)

theorem execReadLimitRelocate_keeps {s₀ s : State} {block : Nat} (hk : Keeps s₀ s) : Out.keeps s₀ (execReadLimitRelocate block s) := by
  unfold execReadLimitRelocate; try dsimp only
  repeat' first | (with_reducible assumption) | (with_reducible refine State.relocate_keeps ?_) | (with_reducible refine Out.keeps_next ?_) | (with_reducible refine Op.keeps_getD ?_ ?_) | (split)

theorem execFlashPatrol_keeps {s₀ s : State} {block : Nat} {weak : Bool} (hk : Keeps s₀ s) : Out.keeps s₀ (execFlashPatrol block weak s) := by
  unfold execFlashPatrol; try dsimp only
  repeat' first | (with_reducible assumption) | (with_reducible refine State.setFlash_keeps ?_) | (with_reducible refine State.relocate_keeps ?_) | (with_reducible refine Out.keeps_next ?_) | (with_reducible refine Op.keeps_getD ?_ ?_) | (split)

theorem execRelocationDone_keeps {s₀ s : State} {block : Nat} (hk : Keeps s₀ s) : Out.keeps s₀ (execRelocationDone block s) := by
  unfold execRelocationDone; try dsimp only
  repeat' first | (with_reducible assumption) | (with_reducible refine State.setFlash_keeps ?_) | (with_reducible refine State.count_keeps ?_) | (with_reducible refine State.govern_keeps ?_) | (with_reducible refine State.tookFree_keeps ?_) | (with_reducible refine Out.keeps_next ?_) | (split)

theorem State.lifeEstimate_keeps {s₀ s : State} {host nand : Nat} (hk : Keeps s₀ s) : Keeps s₀ (State.lifeEstimate s host nand) := by
  unfold State.lifeEstimate; try dsimp only
  repeat' first | (with_reducible assumption) | (with_reducible refine State.putReg_keeps ?_) | (with_reducible refine State.putFld_keeps ?_) | (split)

theorem State.stepMark_keeps {s₀ s : State}  (hk : Keeps s₀ s) : Keeps s₀ (State.stepMark s) := by
  unfold State.stepMark; try dsimp only
  repeat' first | (with_reducible assumption) | (with_reducible refine State.setFlash_keeps ?_) | (with_reducible refine State.lifeEstimate_keeps ?_) | (with_reducible refine State.putReg_keeps ?_) | (split)

theorem execFlashStackLost_keeps {s₀ s : State} {f : Nat} (hk : Keeps s₀ s) : Out.keeps s₀ (execFlashStackLost f s) := by
  unfold execFlashStackLost; try dsimp only
  repeat' first | (with_reducible assumption) | (with_reducible refine State.putFld_keeps ?_) | (with_reducible refine State.setBit_keeps ?_) | (with_reducible refine State.alarmDft_keeps ?_) | (with_reducible refine State.setFlash_keeps ?_) | (with_reducible refine State.tookFree_keeps ?_) | (with_reducible refine Out.keeps_next ?_) | (split)

theorem execStackRebuildDone_keeps {s₀ s : State} {f : Nat} (hk : Keeps s₀ s) : Out.keeps s₀ (execStackRebuildDone f s) := by
  unfold execStackRebuildDone; try dsimp only
  repeat' first | (with_reducible assumption) | (with_reducible refine State.putFld_keeps ?_) | (with_reducible refine State.clrBit_keeps ?_) | (with_reducible refine State.count_keeps ?_) | (with_reducible refine State.govern_keeps ?_) | (with_reducible refine State.tookFree_keeps ?_) | (with_reducible refine Out.keeps_next ?_) | (split)

end Sys2Proof.Machine
end

