-- ==== Sys2Proof/Laws/KeepsMailbox.lean ====
section
/-! SUPPORT. What the operations of Machine/Mailbox.lean keep. -/
namespace Sys2Proof.Machine
set_option Elab.async false

theorem State.putMbox_keeps {s₀ s : State} {i : Nat} {m : Mailbox} (hk : Keeps s₀ s) : Keeps s₀ (State.putMbox s i m) := by
  unfold State.putMbox; try dsimp only
  repeat' first | (with_reducible assumption) | (with_reducible refine State.setXq_keeps ?_) | (split)

theorem State.dropBit_keeps {s₀ s : State} {p m : Nat} (hk : Keeps s₀ s) : Keeps s₀ (State.dropBit s p m) := by
  unfold State.dropBit; try dsimp only
  repeat' first | (with_reducible assumption) | (with_reducible refine State.setBit_keeps ?_) | (split)

theorem State.post_keeps {s₀ s : State} {p m : Nat} {v : Word} (hk : Keeps s₀ s) : Keeps s₀ (State.post s p m v) := by
  unfold State.post; try dsimp only
  repeat' first | (with_reducible assumption) | (with_reducible refine State.count_keeps ?_) | (with_reducible refine State.dropBit_keeps ?_) | (with_reducible refine State.putMbox_keeps ?_) | (split)

theorem State.takeMail_keeps {s₀ s : State} {p m : Nat} {under : Fld} (hk : Keeps s₀ s) : Pr.keeps s₀ (State.takeMail s p m under) := by
  unfold State.takeMail; try dsimp only
  repeat' first | (with_reducible assumption) | (with_reducible refine State.setBit_keeps ?_) | (with_reducible refine State.putMbox_keeps ?_) | (split) | (with_reducible refine Pr.keeps_mk ?_) | (refine Pr.keeps_of ?_ (by with_reducible assumption))

theorem State.resetMail_keeps {s₀ s : State} {p m : Nat} (hk : Keeps s₀ s) : Keeps s₀ (State.resetMail s p m) := by
  unfold State.resetMail; try dsimp only
  repeat' first | (with_reducible assumption) | (with_reducible refine State.putMbox_keeps ?_) | (with_reducible refine State.setBit_keeps ?_) | (split)

theorem State.xqReport_keeps {s₀ s : State} {image : Word} (hk : Keeps s₀ s) : Keeps s₀ (State.xqReport s image) := by
  unfold State.xqReport; try dsimp only
  repeat' first | (with_reducible assumption) | (with_reducible refine State.count_keeps ?_) | (with_reducible refine State.putReg_keeps ?_) | (with_reducible refine State.blockEvent_keeps ?_) | (split)

theorem State.xqReset_keeps {s₀ s : State}  {x0 : QueueId} (hk : Keeps s₀ s) : Keeps s₀ (State.xqReset s x0) := by
  cases x0 <;> (unfold State.xqReset; try dsimp only) <;> repeat' first | (with_reducible assumption) | (with_reducible refine State.putMbox_keeps ?_) | (with_reducible refine State.setBit_keeps ?_) | (with_reducible refine State.xqReport_keeps ?_) | (with_reducible refine State.event_keeps ?_) | (with_reducible refine State.suppress_keeps ?_) | (with_reducible refine State.trace_keeps ?_) | (with_reducible refine State.dropTrace_keeps ?_) | (with_reducible refine State.setLog_keeps ?_) | (with_reducible refine State.setXq_keeps ?_) | (with_reducible refine foldl_keeps ?_ ?_; intro _ _ _) | (split)

theorem execXqPointerMismatch_keeps {s₀ s : State} {q : QueueId} (hk : Keeps s₀ s) : Out.keeps s₀ (execXqPointerMismatch q s) := by
  unfold execXqPointerMismatch; try dsimp only
  repeat' first | (with_reducible assumption) | (with_reducible refine State.xqReset_keeps ?_) | (with_reducible refine State.tookFree_keeps ?_) | (with_reducible refine Out.keeps_next ?_) | (split)

theorem execXqResetDone_keeps {s₀ s : State} {q : QueueId} (hk : Keeps s₀ s) : Out.keeps s₀ (execXqResetDone q s) := by
  unfold execXqResetDone; try dsimp only
  repeat' first | (with_reducible assumption) | (with_reducible refine State.putMbox_keeps ?_) | (with_reducible refine State.setXq_keeps ?_) | (with_reducible refine Out.keeps_next ?_) | (split)

theorem execMbxResetDone_keeps {s₀ s : State} {p m : Nat} (hk : Keeps s₀ s) : Out.keeps s₀ (execMbxResetDone p m s) := by
  unfold execMbxResetDone; try dsimp only
  repeat' first | (with_reducible assumption) | (with_reducible refine State.putMbox_keeps ?_) | (with_reducible refine State.clrBit_keeps ?_) | (with_reducible refine Out.keeps_next ?_) | (split)

end Sys2Proof.Machine
end

