-- ==== Sys2Proof/Laws/KeepsCommon.lean ====
section
/-! SUPPORT. What the operations of Machine/Common.lean keep. -/
namespace Sys2Proof.Machine
set_option Elab.async false

theorem State.finishSlot_keeps {s₀ s : State} {e : Nat} (hk : Keeps s₀ s) : Keeps s₀ (State.finishSlot s e) := by
  unfold State.finishSlot; try dsimp only
  repeat' first | (with_reducible assumption) | (with_reducible refine State.drain_keeps ?_) | (with_reducible refine State.stopAll_keeps ?_) | (with_reducible refine State.planEnd_keeps ?_) | (with_reducible refine foldl_keeps ?_ ?_; intro _ _ _) | (split)

theorem State.common_keeps {s₀ s : State} {e op : Nat} {body : Run → List Byte → State → Res}
    (hb : ∀ r b t, Keeps s₀ t → Res.keeps s₀ (body r b t)) (h : Keeps s₀ s) : Keeps s₀ (State.common s e op body) := by
  unfold State.common
  refine State.runCmd_keeps (fun r b t ht => ?_) h
  split
  · exact Res.keeps_illCommon
  · split
    · exact Res.keeps_stay h
    · exact hb r b _ (State.exposeLoad_keeps ht)

theorem execNop_keeps {s₀ s : State} {e : Nat} (hk : Keeps s₀ s) : Out.keeps s₀ (execNop e s) := by
  unfold execNop; try dsimp only
  repeat' first | (with_reducible assumption) | (with_reducible refine State.common_keeps (fun _ _ _ _ => ?_) ?_) | (with_reducible refine State.commonCycles_keeps ?_) | (with_reducible refine Out.keeps_next ?_) | (with_reducible exact Res.keeps_ill) | (with_reducible exact Res.keeps_illCommon) | (with_reducible exact Res.keeps_trap) | (with_reducible refine Res.keeps_done ?_) | (with_reducible refine Res.keeps_stay ?_) | (split) | (refine Res.keeps_of_done ?_ (by with_reducible assumption))

theorem execEnd_keeps {s₀ s : State} {e : Nat} (hk : Keeps s₀ s) : Out.keeps s₀ (execEnd e s) := by
  unfold execEnd; try dsimp only
  repeat' first | (with_reducible assumption) | (with_reducible refine State.common_keeps (fun _ _ _ _ => ?_) ?_) | (with_reducible refine State.commonCycles_keeps ?_) | (with_reducible refine State.tookFree_keeps ?_) | (with_reducible refine State.finishSlot_keeps ?_) | (with_reducible refine Out.keeps_next ?_) | (with_reducible exact Res.keeps_ill) | (with_reducible exact Res.keeps_illCommon) | (with_reducible exact Res.keeps_trap) | (with_reducible refine Res.keeps_done ?_) | (with_reducible refine Res.keeps_stay ?_) | (split) | (refine Res.keeps_of_done ?_ (by with_reducible assumption))

theorem execSegmentEnd_keeps {s₀ s : State} {e : Nat} (hk : Keeps s₀ s) : Out.keeps s₀ (execSegmentEnd e s) := by
  unfold execSegmentEnd; try dsimp only
  repeat' first | (with_reducible assumption) | (with_reducible refine State.finishSlot_keeps ?_) | (with_reducible refine State.exposeLoad_keeps ?_) | (with_reducible refine Out.keeps_next ?_) | (split)

theorem execBwait_keeps {s₀ s : State} {e : Nat} (hk : Keeps s₀ s) : Out.keeps s₀ (execBwait e s) := by
  unfold execBwait; try dsimp only
  repeat' first | (with_reducible assumption) | (with_reducible refine State.common_keeps (fun _ _ _ _ => ?_) ?_) | (with_reducible refine State.commonCycles_keeps ?_) | (with_reducible refine State.modRun_keeps ?_) | (with_reducible refine Out.keeps_next ?_) | (with_reducible exact Res.keeps_ill) | (with_reducible exact Res.keeps_illCommon) | (with_reducible exact Res.keeps_trap) | (with_reducible refine Res.keeps_done ?_) | (with_reducible refine Res.keeps_stay ?_) | (split) | (refine Res.keeps_of_done ?_ (by with_reducible assumption))

theorem execBwaitSatisfied_keeps {s₀ s : State} {e : Nat} (hk : Keeps s₀ s) : Out.keeps s₀ (execBwaitSatisfied e s) := by
  unfold execBwaitSatisfied; try dsimp only
  repeat' first | (with_reducible assumption) | (with_reducible refine State.commonCycles_keeps ?_) | (with_reducible refine State.advance_keeps ?_) | (with_reducible refine Out.keeps_next ?_) | (split)

theorem execBwaitExpired_keeps {s₀ s : State} {e : Nat} (hk : Keeps s₀ s) : Out.keeps s₀ (execBwaitExpired e s) := by
  unfold execBwaitExpired; try dsimp only
  repeat' first | (with_reducible assumption) | (with_reducible refine State.commonCycles_keeps ?_) | (with_reducible refine State.count_keeps ?_) | (with_reducible refine State.illCommon_keeps ?_) | (with_reducible refine State.tookFree_keeps ?_) | (with_reducible refine Out.keeps_next ?_) | (with_reducible exact Res.keeps_ill) | (with_reducible exact Res.keeps_illCommon) | (with_reducible exact Res.keeps_trap) | (with_reducible refine Res.keeps_done ?_) | (with_reducible refine Res.keeps_stay ?_) | (split) | (refine Res.keeps_of_done ?_ (by with_reducible assumption))

theorem execBsignal_keeps {s₀ s : State} {e : Nat} (hk : Keeps s₀ s) : Out.keeps s₀ (execBsignal e s) := by
  unfold execBsignal; try dsimp only
  repeat' first | (with_reducible assumption) | (with_reducible refine State.common_keeps (fun _ _ _ _ => ?_) ?_) | (with_reducible refine State.putBuoy_keeps ?_) | (with_reducible refine State.commonCycles_keeps ?_) | (with_reducible refine Out.keeps_next ?_) | (with_reducible exact Res.keeps_ill) | (with_reducible exact Res.keeps_illCommon) | (with_reducible exact Res.keeps_trap) | (with_reducible refine Res.keeps_done ?_) | (with_reducible refine Res.keeps_stay ?_) | (split) | (refine Res.keeps_of_done ?_ (by with_reducible assumption))

theorem execBadd_keeps {s₀ s : State} {e : Nat} (hk : Keeps s₀ s) : Out.keeps s₀ (execBadd e s) := by
  unfold execBadd; try dsimp only
  repeat' first | (with_reducible assumption) | (with_reducible refine State.common_keeps (fun _ _ _ _ => ?_) ?_) | (with_reducible refine State.addBuoy_keeps ?_) | (with_reducible refine State.commonCycles_keeps ?_) | (with_reducible refine Out.keeps_next ?_) | (with_reducible exact Res.keeps_ill) | (with_reducible exact Res.keeps_illCommon) | (with_reducible exact Res.keeps_trap) | (with_reducible refine Res.keeps_done ?_) | (with_reducible refine Res.keeps_stay ?_) | (split) | (refine Res.keeps_of_done ?_ (by with_reducible assumption))

theorem execBcmp_keeps {s₀ s : State} {e : Nat} (hk : Keeps s₀ s) : Out.keeps s₀ (execBcmp e s) := by
  unfold execBcmp; try dsimp only
  repeat' first | (with_reducible assumption) | (with_reducible refine State.common_keeps (fun _ _ _ _ => ?_) ?_) | (with_reducible refine State.vStore_keeps ?_) | (with_reducible refine State.putBuoy_keeps ?_) | (with_reducible refine State.commonCycles_keeps ?_) | (with_reducible refine Out.keeps_next ?_) | (with_reducible exact Res.keeps_ill) | (with_reducible exact Res.keeps_illCommon) | (with_reducible exact Res.keeps_trap) | (with_reducible refine Res.keeps_done ?_) | (with_reducible refine Res.keeps_stay ?_) | (with_reducible exact Ex.keeps_error) | (with_reducible refine Ex.keeps_ok ?_) | (split) | (refine Ex.keeps_of ?_ (by with_reducible assumption)) | (refine Res.keeps_of_done ?_ (by with_reducible assumption))

theorem execMpost_keeps {s₀ s : State} {e : Nat} (hk : Keeps s₀ s) : Out.keeps s₀ (execMpost e s) := by
  unfold execMpost; try dsimp only
  repeat' first | (with_reducible assumption) | (with_reducible refine State.common_keeps (fun _ _ _ _ => ?_) ?_) | (with_reducible refine State.post_keeps ?_) | (with_reducible refine State.commonCycles_keeps ?_) | (with_reducible refine Out.keeps_next ?_) | (with_reducible exact Res.keeps_ill) | (with_reducible exact Res.keeps_illCommon) | (with_reducible exact Res.keeps_trap) | (with_reducible refine Res.keeps_done ?_) | (with_reducible refine Res.keeps_stay ?_) | (split) | (refine Res.keeps_of_done ?_ (by with_reducible assumption))

theorem State.someTick_keeps {s₀ s : State}  (hk : Keeps s₀ s) : Keeps s₀ (State.someTick s) := by
  unfold State.someTick; try dsimp only
  repeat' first | (with_reducible assumption) | (with_reducible refine State.toTick_keeps ?_) | (with_reducible refine State.tookFree_keeps ?_) | (split)

theorem execTstamp_keeps {s₀ s : State} {e : Nat} (hk : Keeps s₀ s) : Out.keeps s₀ (execTstamp e s) := by
  unfold execTstamp; try dsimp only
  repeat' first | (with_reducible assumption) | (with_reducible refine State.common_keeps (fun _ _ _ _ => ?_) ?_) | (with_reducible refine State.someTick_keeps ?_) | (with_reducible refine Res.ofStore_keeps ?_) | (with_reducible refine State.commonCycles_keeps ?_) | (with_reducible refine State.vStore_keeps ?_) | (with_reducible refine Out.keeps_next ?_) | (with_reducible exact Res.keeps_ill) | (with_reducible exact Res.keeps_illCommon) | (with_reducible exact Res.keeps_trap) | (with_reducible refine Res.keeps_done ?_) | (with_reducible refine Res.keeps_stay ?_) | (with_reducible exact Ex.keeps_error) | (with_reducible refine Ex.keeps_ok ?_) | (split) | (refine Ex.keeps_of ?_ (by with_reducible assumption)) | (refine Res.keeps_of_done ?_ (by with_reducible assumption))

end Sys2Proof.Machine
end

