-- ==== Sys2Proof/Laws/KeepsOperands.lean ====
section
/-! SUPPORT. What the operations of Machine/Operands.lean keep. -/
namespace Sys2Proof.Machine
set_option Elab.async false

theorem State.readWith_keeps {s₀ s : State} {a : Access} {pend : List (Nat × Byte)} {pl : Place} {addr n : Nat} (hk : Keeps s₀ s) : ExP.keeps s₀ (State.readWith s a pend pl addr n) := by
  unfold State.readWith; try dsimp only
  repeat' first | (with_reducible assumption) | (with_reducible refine State.readPieces_keeps ?_) | (with_reducible exact ExP.keeps_error) | (with_reducible refine ExP.keeps_ok ?_) | (split) | (refine ExP.keeps_of ?_ (by with_reducible assumption))

theorem State.readAt_keeps {s₀ s : State} {a : Access} {pl : Place} {addr n : Nat} (hk : Keeps s₀ s) : ExP.keeps s₀ (State.readAt s a pl addr n) := by
  unfold State.readAt; try dsimp only
  repeat' first | (with_reducible assumption) | (with_reducible refine State.readWith_keeps ?_) | (with_reducible exact ExP.keeps_error) | (with_reducible refine ExP.keeps_ok ?_) | (split) | (refine ExP.keeps_of ?_ (by with_reducible assumption))

theorem State.writeAt_keeps {s₀ s : State} {a : Access} {pl : Place} {addr : Nat} {bs : List Byte} {flags : List Bool} (hk : Keeps s₀ s) : Ex.keeps s₀ (State.writeAt s a pl addr bs flags) := by
  unfold State.writeAt; try dsimp only
  repeat' first | (with_reducible assumption) | (with_reducible refine State.modRun_keeps ?_) | (with_reducible refine State.vWrite_keeps ?_) | (with_reducible exact Ex.keeps_error) | (with_reducible refine Ex.keeps_ok ?_) | (split) | (refine Ex.keeps_of ?_ (by with_reducible assumption))

theorem foldM_keeps {α : Type} {s₀ s : State} {f : State → α → Except Trap State} {l : List α}
    (hf : ∀ t x, Keeps s₀ t → Ex.keeps s₀ (f t x)) (h : Keeps s₀ s) : Ex.keeps s₀ (foldM f l s) := by
  induction l generalizing s with
  | nil => exact h
  | cons x l ih =>
    unfold foldM
    split
    · exact Ex.keeps_error
    · exact ih (Ex.keeps_of (hf _ _ h) (by with_reducible assumption))

theorem State.readRows_keeps {s₀ s : State} {a : Access} {pl : Place} {n : Nat} {x0 : List Nat} (hk : Keeps s₀ s) : ExP.keeps s₀ (State.readRows s a pl n x0) := by
  induction x0 generalizing s with
  | nil =>
    unfold State.readRows; try dsimp only
    repeat' first | (with_reducible assumption) | (with_reducible refine State.readAt_keeps ?_) | (with_reducible exact ExP.keeps_error) | (with_reducible refine ExP.keeps_ok ?_) | (split) | (refine ExP.keeps_of ?_ (by with_reducible assumption))
  | cons y l ih =>
    unfold State.readRows; try dsimp only
    repeat' first | (with_reducible assumption) | (with_reducible refine ih ?_) | (with_reducible refine State.readAt_keeps ?_) | (with_reducible exact ExP.keeps_error) | (with_reducible refine ExP.keeps_ok ?_) | (split) | (refine ExP.keeps_of ?_ (by with_reducible assumption))

end Sys2Proof.Machine
end

