-- ==== Sys2Proof/Laws/KeepsCopy.lean ====
section
/-! SUPPORT. What the operations of Machine/Copy.lean keep. -/
namespace Sys2Proof.Machine
set_option Elab.async false

theorem State.copyRow_keeps {s₀ s : State} {a : Access} {pend0 : List (Nat × Byte)} {from' tgt : Place} {c : CopyCmd} {r : Nat} (hk : Keeps s₀ s) : Ex.keeps s₀ (State.copyRow s a pend0 from' tgt c r) := by
  unfold State.copyRow; try dsimp only
  repeat' first | (with_reducible assumption) | (with_reducible refine State.readWith_keeps ?_) | (with_reducible refine State.readAt_keeps ?_) | (with_reducible refine State.writeAt_keeps ?_) | (with_reducible exact Ex.keeps_error) | (with_reducible refine Ex.keeps_ok ?_) | (with_reducible exact ExP.keeps_error) | (with_reducible refine ExP.keeps_ok ?_) | (split) | (refine Ex.keeps_of ?_ (by with_reducible assumption)) | (refine ExP.keeps_of ?_ (by with_reducible assumption))

theorem State.copyColumn_keeps {s₀ s : State} {a : Access} {pend0 : List (Nat × Byte)} {from' tgt : Place} {c : CopyCmd} {j : Nat} (hk : Keeps s₀ s) : Ex.keeps s₀ (State.copyColumn s a pend0 from' tgt c j) := by
  unfold State.copyColumn; try dsimp only
  repeat' first | (with_reducible assumption) | (with_reducible refine State.writeAt_keeps ?_) | (with_reducible exact Ex.keeps_error) | (with_reducible refine Ex.keeps_ok ?_) | (split) | (refine Ex.keeps_of ?_ (by with_reducible assumption))

theorem State.readSource_keeps {s₀ s : State} {a : Access} {from' : Place} {c : CopyCmd} (hk : Keeps s₀ s) : Ex.keeps s₀ (State.readSource s a from' c) := by
  unfold State.readSource; try dsimp only
  repeat' first | (with_reducible assumption) | (with_reducible refine State.readRows_keeps ?_) | (with_reducible exact Ex.keeps_error) | (with_reducible refine Ex.keeps_ok ?_) | (with_reducible exact ExP.keeps_error) | (with_reducible refine ExP.keeps_ok ?_) | (split) | (refine Ex.keeps_of ?_ (by with_reducible assumption)) | (refine ExP.keeps_of ?_ (by with_reducible assumption))

theorem State.copyBytes_keeps {s₀ s : State} {e : Nat} {r : Run} {c : CopyCmd} (hk : Keeps s₀ s) : Ex.keeps s₀ (State.copyBytes s e r c) := by
  unfold State.copyBytes; try dsimp only
  repeat' first | (with_reducible assumption) | (with_reducible refine foldM_keeps (fun _ _ _ => ?_) ?_) | (with_reducible refine State.writeAt_keeps ?_) | (with_reducible refine State.readSource_keeps ?_) | (with_reducible refine State.copyColumn_keeps ?_) | (with_reducible refine State.copyRow_keeps ?_) | (with_reducible exact Ex.keeps_error) | (with_reducible refine Ex.keeps_ok ?_) | (split) | (refine Ex.keeps_of ?_ (by with_reducible assumption))

theorem State.copyCount_keeps {s₀ s : State} {e cycles bytes done : Nat} {waits : Bool} (hk : Keeps s₀ s) : Keeps s₀ (State.copyCount s e cycles bytes done waits) := by
  unfold State.copyCount; try dsimp only
  repeat' first | (with_reducible assumption) | (with_reducible refine State.count_keeps ?_) | (with_reducible refine State.tookFree_keeps ?_) | (split)

theorem State.copyRun_keeps {s₀ s : State} {e op : Nat} (hk : Keeps s₀ s) : Keeps s₀ (State.copyRun s e op) := by
  unfold State.copyRun; try dsimp only
  repeat' first | (with_reducible assumption) | (with_reducible refine State.runCmd_keeps (fun _ _ _ _ => ?_) ?_) | (with_reducible refine State.copyBytes_keeps ?_) | (with_reducible refine State.copyCount_keeps ?_) | (with_reducible refine State.modRun_keeps ?_) | (with_reducible exact Res.keeps_ill) | (with_reducible exact Res.keeps_illCommon) | (with_reducible exact Res.keeps_trap) | (with_reducible refine Res.keeps_done ?_) | (with_reducible refine Res.keeps_stay ?_) | (with_reducible exact Ex.keeps_error) | (with_reducible refine Ex.keeps_ok ?_) | (split) | (refine Ex.keeps_of ?_ (by with_reducible assumption)) | (refine Res.keeps_of_done ?_ (by with_reducible assumption))

theorem execCcopy_keeps {s₀ s : State} {e : Nat} (hk : Keeps s₀ s) : Out.keeps s₀ (execCcopy e s) := by
  unfold execCcopy; try dsimp only
  repeat' first | (with_reducible assumption) | (with_reducible refine State.copyRun_keeps ?_) | (with_reducible refine Out.keeps_next ?_) | (split)

theorem execCfill_keeps {s₀ s : State} {e : Nat} (hk : Keeps s₀ s) : Out.keeps s₀ (execCfill e s) := by
  unfold execCfill; try dsimp only
  repeat' first | (with_reducible assumption) | (with_reducible refine State.copyRun_keeps ?_) | (with_reducible refine Out.keeps_next ?_) | (split)

theorem State.fence_keeps {s₀ s : State} {e op : Nat} {codes : List Byte → List Nat} (hk : Keeps s₀ s) : Keeps s₀ (State.fence s e op codes) := by
  unfold State.fence; try dsimp only
  repeat' first | (with_reducible assumption) | (with_reducible refine State.runCmd_keeps (fun _ _ _ _ => ?_) ?_) | (with_reducible refine State.modRun_keeps ?_) | (with_reducible exact Res.keeps_ill) | (with_reducible exact Res.keeps_illCommon) | (with_reducible exact Res.keeps_trap) | (with_reducible refine Res.keeps_done ?_) | (with_reducible refine Res.keeps_stay ?_) | (split) | (refine Res.keeps_of_done ?_ (by with_reducible assumption))

theorem State.fenceDone_keeps {s₀ s : State} {e : Nat} {count : State → State} (hcount : ∀  t, Keeps s₀ t → Keeps s₀ (count  t)) (hk : Keeps s₀ s) : Keeps s₀ (State.fenceDone s e count) := by
  unfold State.fenceDone; try dsimp only
  repeat' first | (with_reducible assumption) | (with_reducible refine State.fence_keeps ?_) | (with_reducible refine State.drain_keeps ?_) | (with_reducible refine State.advance_keeps ?_) | (with_reducible refine hcount _ ?_) | (split)

theorem execCfence_keeps {s₀ s : State} {e : Nat} (hk : Keeps s₀ s) : Out.keeps s₀ (execCfence e s) := by
  unfold execCfence; try dsimp only
  repeat' first | (with_reducible assumption) | (with_reducible refine State.fence_keeps ?_) | (with_reducible refine Out.keeps_next ?_) | (split)

theorem execCfenceComplete_keeps {s₀ s : State} {e : Nat} (hk : Keeps s₀ s) : Out.keeps s₀ (execCfenceComplete e s) := by
  unfold execCfenceComplete; try dsimp only
  repeat' first | (with_reducible assumption) | (with_reducible refine State.fenceDone_keeps (fun _ _ => ?_) ?_) | (with_reducible refine State.copyCount_keeps ?_) | (with_reducible refine Out.keeps_next ?_) | (split)

theorem execCompletionRecordWrite_keeps {s₀ s : State} {e : Nat} (hk : Keeps s₀ s) : Out.keeps s₀ (execCompletionRecordWrite e s) := by
  unfold execCompletionRecordWrite; try dsimp only
  repeat' first | (with_reducible assumption) | (with_reducible refine State.drain_keeps ?_) | (with_reducible refine State.vStore_keeps ?_) | (with_reducible refine State.trapped_keeps ?_) | (with_reducible refine State.copyCount_keeps ?_) | (with_reducible refine State.advance_keeps ?_) | (with_reducible refine Out.keeps_next ?_) | (with_reducible exact Ex.keeps_error) | (with_reducible refine Ex.keeps_ok ?_) | (split) | (refine Ex.keeps_of ?_ (by with_reducible assumption))

end Sys2Proof.Machine
end

