-- ==== Sys2Proof/Laws/KeepsMatrix.lean ====
section
/-! SUPPORT. What the operations of Machine/Matrix.lean keep. -/
namespace Sys2Proof.Machine
set_option Elab.async false

theorem State.readPlane_keeps {s₀ s : State} {a : Access} {e kr : Nat} {d : Desc} (hk : Keeps s₀ s) : ExP.keeps s₀ (State.readPlane s a e kr d) := by
  unfold State.readPlane; try dsimp only
  repeat' first | (with_reducible assumption) | (with_reducible refine State.readRows_keeps ?_) | (with_reducible exact ExP.keeps_error) | (with_reducible refine ExP.keeps_ok ?_) | (split) | (refine ExP.keeps_of ?_ (by with_reducible assumption))

theorem execMload_keeps {s₀ s : State} {e : Nat} (hk : Keeps s₀ s) : Out.keeps s₀ (execMload e s) := by
  unfold execMload; try dsimp only
  repeat' first | (with_reducible assumption) | (with_reducible refine State.exposeLoad_keeps ?_) | (with_reducible refine State.putDeps_keeps ?_) | (with_reducible refine State.tookFree_keeps ?_) | (with_reducible refine State.runCmd_keeps (fun _ _ _ _ => ?_) ?_) | (with_reducible refine State.readPlane_keeps ?_) | (with_reducible refine State.modRun_keeps ?_) | (with_reducible refine State.showPlanes_keeps ?_) | (with_reducible refine Out.keeps_next ?_) | (with_reducible exact Res.keeps_ill) | (with_reducible exact Res.keeps_illCommon) | (with_reducible exact Res.keeps_trap) | (with_reducible refine Res.keeps_done ?_) | (with_reducible refine Res.keeps_stay ?_) | (with_reducible exact ExP.keeps_error) | (with_reducible refine ExP.keeps_ok ?_) | (split) | (refine ExP.keeps_of ?_ (by with_reducible assumption)) | (refine Res.keeps_of_done ?_ (by with_reducible assumption))

theorem execShadowLoadDone_keeps {s₀ s : State} {e : Nat} (hk : Keeps s₀ s) : Out.keeps s₀ (execShadowLoadDone e s) := by
  unfold execShadowLoadDone; try dsimp only
  repeat' first | (with_reducible assumption) | (with_reducible refine State.modRun_keeps ?_) | (with_reducible refine State.showPlanes_keeps ?_) | (with_reducible refine State.count_keeps ?_) | (with_reducible refine Out.keeps_next ?_) | (split)

theorem State.streamOne_keeps {s₀ s : State} {r : Run} {e free : Nat} {p : Plane} {b : List Byte} {i : Nat} (hk : Keeps s₀ s) : Ex.keeps s₀ (State.streamOne s r e free p b i) := by
  unfold State.streamOne; try dsimp only
  repeat' first | (with_reducible assumption) | (with_reducible refine State.readWith_keeps ?_) | (with_reducible refine State.writeAt_keeps ?_) | (with_reducible refine State.count_keeps ?_) | (with_reducible exact Ex.keeps_error) | (with_reducible refine Ex.keeps_ok ?_) | (with_reducible exact ExP.keeps_error) | (with_reducible refine ExP.keeps_ok ?_) | (split) | (refine Ex.keeps_of ?_ (by with_reducible assumption)) | (refine ExP.keeps_of ?_ (by with_reducible assumption))

theorem State.meCycles_keeps {s₀ s : State} {e adv shadow : Nat} (hk : Keeps s₀ s) : Keeps s₀ (State.meCycles s e adv shadow) := by
  unfold State.meCycles; try dsimp only
  repeat' first | (with_reducible assumption) | (with_reducible refine State.count_keeps ?_) | (with_reducible refine State.setFree_keeps ?_) | (split)

theorem State.stream_keeps {s₀ s : State} {r : Run} {e : Nat} {p : Plane} {b : List Byte} {swaps : Bool} {shadow : Nat} (hk : Keeps s₀ s) : Res.keeps s₀ (State.stream s r e p b swaps shadow) := by
  unfold State.stream; try dsimp only
  repeat' first | (with_reducible assumption) | (with_reducible refine foldM_keeps (fun _ _ _ => ?_) ?_) | (with_reducible refine State.streamOne_keeps ?_) | (with_reducible refine State.modRun_keeps ?_) | (with_reducible refine State.meCycles_keeps ?_) | (with_reducible refine State.count_keeps ?_) | (with_reducible exact Res.keeps_ill) | (with_reducible exact Res.keeps_illCommon) | (with_reducible exact Res.keeps_trap) | (with_reducible refine Res.keeps_done ?_) | (with_reducible refine Res.keeps_stay ?_) | (with_reducible exact Ex.keeps_error) | (with_reducible refine Ex.keeps_ok ?_) | (split) | (refine Ex.keeps_of ?_ (by with_reducible assumption)) | (refine Res.keeps_of_done ?_ (by with_reducible assumption))

theorem State.swapStream_keeps {s₀ s : State} {r : Run} {e : Nat} {b : List Byte} (hk : Keeps s₀ s) : Res.keeps s₀ (State.swapStream s r e b) := by
  unfold State.swapStream; try dsimp only
  repeat' first | (with_reducible assumption) | (with_reducible refine State.exposeLoad_keeps ?_) | (with_reducible refine State.putDeps_keeps ?_) | (with_reducible refine State.modRun_keeps ?_) | (with_reducible refine State.showPlanes_keeps ?_) | (with_reducible refine State.stream_keeps ?_) | (with_reducible exact Res.keeps_ill) | (with_reducible exact Res.keeps_illCommon) | (with_reducible exact Res.keeps_trap) | (with_reducible refine Res.keeps_done ?_) | (with_reducible refine Res.keeps_stay ?_) | (split) | (refine Res.keeps_of_done ?_ (by with_reducible assumption))

theorem execMstream_keeps {s₀ s : State} {e : Nat} (hk : Keeps s₀ s) : Out.keeps s₀ (execMstream e s) := by
  unfold execMstream; try dsimp only
  repeat' first | (with_reducible assumption) | (with_reducible refine State.runCmd_keeps (fun _ _ _ _ => ?_) ?_) | (with_reducible refine State.modRun_keeps ?_) | (with_reducible refine State.swapStream_keeps ?_) | (with_reducible refine State.stream_keeps ?_) | (with_reducible refine Out.keeps_next ?_) | (with_reducible exact Res.keeps_ill) | (with_reducible exact Res.keeps_illCommon) | (with_reducible exact Res.keeps_trap) | (with_reducible refine Res.keeps_done ?_) | (with_reducible refine Res.keeps_stay ?_) | (split) | (refine Res.keeps_of_done ?_ (by with_reducible assumption))

theorem execSwap_keeps {s₀ s : State} {e : Nat} (hk : Keeps s₀ s) : Out.keeps s₀ (execSwap e s) := by
  unfold execSwap; try dsimp only
  repeat' first | (with_reducible assumption) | (with_reducible refine State.modRun_keeps ?_) | (with_reducible refine State.fetchEntry_keeps ?_) | (with_reducible refine State.trapped_keeps ?_) | (with_reducible refine State.settle_keeps ?_ ?_) | (with_reducible refine State.swapStream_keeps ?_) | (with_reducible refine Out.keeps_next ?_) | (with_reducible exact Res.keeps_ill) | (with_reducible exact Res.keeps_illCommon) | (with_reducible exact Res.keeps_trap) | (with_reducible refine Res.keeps_done ?_) | (with_reducible refine Res.keeps_stay ?_) | (with_reducible exact ExP.keeps_error) | (with_reducible refine ExP.keeps_ok ?_) | (split) | (refine ExP.keeps_of ?_ (by with_reducible assumption)) | (refine Res.keeps_of_done ?_ (by with_reducible assumption))

theorem execMfence_keeps {s₀ s : State} {e : Nat} (hk : Keeps s₀ s) : Out.keeps s₀ (execMfence e s) := by
  unfold execMfence; try dsimp only
  repeat' first | (with_reducible assumption) | (with_reducible refine State.fence_keeps ?_) | (with_reducible refine Out.keeps_next ?_) | (split)

theorem execMfenceComplete_keeps {s₀ s : State} {e : Nat} (hk : Keeps s₀ s) : Out.keeps s₀ (execMfenceComplete e s) := by
  unfold execMfenceComplete; try dsimp only
  repeat' first | (with_reducible assumption) | (with_reducible refine State.fenceDone_keeps (fun _ _ => ?_) ?_) | (with_reducible refine State.meCycles_keeps ?_) | (with_reducible refine Out.keeps_next ?_) | (split)

end Sys2Proof.Machine
end

