-- ==== Sys2Proof/Laws/KeepsVector.lean ====
section
/-! SUPPORT. What the operations of Machine/Vector.lean keep. -/
namespace Sys2Proof.Machine
set_option Elab.async false

theorem State.veExc_keeps {s₀ s : State} {e : Nat} {xs : List Exc} (hk : Keeps s₀ s) : Keeps s₀ (State.veExc s e xs) := by
  unfold State.veExc; try dsimp only
  repeat' first | (with_reducible assumption) | (with_reducible refine State.count_keeps ?_) | (split)

theorem State.veCount_keeps {s₀ s : State} {e cost w dep : Nat} (hk : Keeps s₀ s) : Keeps s₀ (State.veCount s e cost w dep) := by
  unfold State.veCount; try dsimp only
  repeat' first | (with_reducible assumption) | (with_reducible refine State.count_keeps ?_) | (split)

theorem State.veCycles_keeps {s₀ s : State} {e cost : Nat} {memory : Bool} {reads writes : List Nat} {red : Option (Nat × Nat)} (hk : Keeps s₀ s) :
    Keeps s₀ (State.veCycles s e cost memory reads writes red) := by
  unfold State.veCycles
  exact State.tookFree_keeps (State.veCount_keeps (State.putDeps_keeps hk))

theorem State.putVx_keeps {s₀ s : State} {e : Nat} {v : VectorState} (hk : Keeps s₀ s) : Keeps s₀ (State.putVx s e v) := by
  unfold State.putVx; try dsimp only
  repeat' first | (with_reducible assumption) | (with_reducible refine State.modRun_keeps ?_) | (with_reducible refine State.showPlanes_keeps ?_) | (split)

theorem State.vcmd_keeps {s₀ s : State} {e : Nat} {mine : List Byte → Bool} {codes : List Byte → List Nat} {body : Run → List Byte → State → Res} (hbody : ∀ y0 y1 t, Keeps s₀ t → Res.keeps s₀ (body y0 y1 t)) (hk : Keeps s₀ s) : Keeps s₀ (State.vcmd s e mine codes body) := by
  unfold State.vcmd; try dsimp only
  repeat' first | (with_reducible assumption) | (with_reducible refine State.runCmd_keeps (fun _ _ _ _ => ?_) ?_) | (with_reducible exact Res.keeps_ill) | (with_reducible exact Res.keeps_illCommon) | (with_reducible exact Res.keeps_trap) | (with_reducible refine Res.keeps_done ?_) | (with_reducible refine Res.keeps_stay ?_) | (with_reducible refine hbody _ _ _ ?_) | (split) | (refine Res.keeps_of_done ?_ (by with_reducible assumption))

theorem State.loadRows_keeps {s₀ s : State} {a : Access} {e : Nat} {d : Desc} {n : Nat} (hk : Keeps s₀ s) : ExP.keeps s₀ (State.loadRows s a e d n) := by
  unfold State.loadRows; try dsimp only
  repeat' first | (with_reducible assumption) | (with_reducible refine State.readRows_keeps ?_) | (with_reducible exact ExP.keeps_error) | (with_reducible refine ExP.keeps_ok ?_) | (split) | (refine ExP.keeps_of ?_ (by with_reducible assumption))

theorem execVload_keeps {s₀ s : State} {e : Nat} (hk : Keeps s₀ s) : Out.keeps s₀ (execVload e s) := by
  unfold execVload; try dsimp only
  repeat' first | (with_reducible assumption) | (with_reducible refine State.vcmd_keeps (fun _ _ _ _ => ?_) ?_) | (with_reducible refine State.loadRows_keeps ?_) | (with_reducible refine State.sideArm_keeps ?_) | (with_reducible refine State.putVx_keeps ?_) | (with_reducible refine State.veExc_keeps ?_) | (with_reducible refine State.veCycles_keeps ?_) | (with_reducible refine Out.keeps_next ?_) | (with_reducible exact Res.keeps_ill) | (with_reducible exact Res.keeps_illCommon) | (with_reducible exact Res.keeps_trap) | (with_reducible refine Res.keeps_done ?_) | (with_reducible refine Res.keeps_stay ?_) | (with_reducible exact ExP.keeps_error) | (with_reducible refine ExP.keeps_ok ?_) | (with_reducible refine Op.keeps_getD ?_ ?_) | (with_reducible refine foldl_keeps ?_ ?_; intro _ _ _) | (split) | (refine ExP.keeps_of ?_ (by with_reducible assumption)) | (refine Res.keeps_of_done ?_ (by with_reducible assumption))

theorem State.storeRows_keeps {s₀ s : State} {a : Access} {e : Nat} {d : Desc} {rows : List (List Byte × List Byte × List Exc)} (hk : Keeps s₀ s) : Ex.keeps s₀ (State.storeRows s a e d rows) := by
  unfold State.storeRows; try dsimp only
  repeat' first | (with_reducible assumption) | (with_reducible refine foldM_keeps (fun _ _ _ => ?_) ?_) | (with_reducible refine State.writeAt_keeps ?_) | (with_reducible exact Ex.keeps_error) | (with_reducible refine Ex.keeps_ok ?_) | (split) | (refine Ex.keeps_of ?_ (by with_reducible assumption))

theorem execVstore_keeps {s₀ s : State} {e : Nat} (hk : Keeps s₀ s) : Out.keeps s₀ (execVstore e s) := by
  unfold execVstore; try dsimp only
  repeat' first | (with_reducible assumption) | (with_reducible refine State.runCmd_keeps (fun _ _ _ _ => ?_) ?_) | (with_reducible refine State.writeAt_keeps ?_) | (with_reducible refine State.putVx_keeps ?_) | (with_reducible refine State.veExc_keeps ?_) | (with_reducible refine State.veCycles_keeps ?_) | (with_reducible refine State.storeRows_keeps ?_) | (with_reducible refine Out.keeps_next ?_) | (with_reducible exact Res.keeps_ill) | (with_reducible exact Res.keeps_illCommon) | (with_reducible exact Res.keeps_trap) | (with_reducible refine Res.keeps_done ?_) | (with_reducible refine Res.keeps_stay ?_) | (with_reducible exact Ex.keeps_error) | (with_reducible refine Ex.keeps_ok ?_) | (split) | (refine Ex.keeps_of ?_ (by with_reducible assumption)) | (refine Res.keeps_of_done ?_ (by with_reducible assumption))

theorem State.readBcast_keeps {s₀ s : State} {a : Access} {e : Nat} {used : Bool} {d : Desc} {rows : Nat} (hk : Keeps s₀ s) : ExP.keeps s₀ (State.readBcast s a e used d rows) := by
  unfold State.readBcast; try dsimp only
  repeat' first | (with_reducible assumption) | (with_reducible refine State.readRows_keeps ?_) | (with_reducible exact ExP.keeps_error) | (with_reducible refine ExP.keeps_ok ?_) | (with_reducible refine Op.keeps_getD ?_ ?_) | (split) | (refine ExP.keeps_of ?_ (by with_reducible assumption))

theorem execVchain_keeps {s₀ s : State} {e : Nat} (hk : Keeps s₀ s) : Out.keeps s₀ (execVchain e s) := by
  unfold execVchain; try dsimp only
  repeat' first | (with_reducible assumption) | (with_reducible refine State.vcmd_keeps (fun _ _ _ _ => ?_) ?_) | (with_reducible refine State.readBcast_keeps ?_) | (with_reducible refine State.putVx_keeps ?_) | (with_reducible refine State.veExc_keeps ?_) | (with_reducible refine State.veCycles_keeps ?_) | (with_reducible refine Out.keeps_next ?_) | (with_reducible exact Res.keeps_ill) | (with_reducible exact Res.keeps_illCommon) | (with_reducible exact Res.keeps_trap) | (with_reducible refine Res.keeps_done ?_) | (with_reducible refine Res.keeps_stay ?_) | (with_reducible exact ExP.keeps_error) | (with_reducible refine ExP.keeps_ok ?_) | (split) | (refine ExP.keeps_of ?_ (by with_reducible assumption)) | (refine Res.keeps_of_done ?_ (by with_reducible assumption))

theorem execVred_keeps {s₀ s : State} {e : Nat} (hk : Keeps s₀ s) : Out.keeps s₀ (execVred e s) := by
  unfold execVred; try dsimp only
  repeat' first | (with_reducible assumption) | (with_reducible refine State.vcmd_keeps (fun _ _ _ _ => ?_) ?_) | (with_reducible refine State.putVx_keeps ?_) | (with_reducible refine State.veExc_keeps ?_) | (with_reducible refine State.veCycles_keeps ?_) | (with_reducible refine Out.keeps_next ?_) | (with_reducible exact Res.keeps_ill) | (with_reducible exact Res.keeps_illCommon) | (with_reducible exact Res.keeps_trap) | (with_reducible refine Res.keeps_done ?_) | (with_reducible refine Res.keeps_stay ?_) | (with_reducible refine foldl_keeps ?_ ?_; intro _ _ _) | (split) | (refine Res.keeps_of_done ?_ (by with_reducible assumption))

theorem execVscan_keeps {s₀ s : State} {e : Nat} (hk : Keeps s₀ s) : Out.keeps s₀ (execVscan e s) := by
  unfold execVscan; try dsimp only
  repeat' first | (with_reducible assumption) | (with_reducible refine State.vcmd_keeps (fun _ _ _ _ => ?_) ?_) | (with_reducible refine State.putVx_keeps ?_) | (with_reducible refine State.veExc_keeps ?_) | (with_reducible refine State.veCycles_keeps ?_) | (with_reducible refine Out.keeps_next ?_) | (with_reducible exact Res.keeps_ill) | (with_reducible exact Res.keeps_illCommon) | (with_reducible exact Res.keeps_trap) | (with_reducible refine Res.keeps_done ?_) | (with_reducible refine Res.keeps_stay ?_) | (with_reducible refine foldl_keeps ?_ ?_; intro _ _ _) | (split) | (refine Res.keeps_of_done ?_ (by with_reducible assumption))

theorem execVcompress_keeps {s₀ s : State} {e : Nat} (hk : Keeps s₀ s) : Out.keeps s₀ (execVcompress e s) := by
  unfold execVcompress; try dsimp only
  repeat' first | (with_reducible assumption) | (with_reducible refine State.vcmd_keeps (fun _ _ _ _ => ?_) ?_) | (with_reducible refine State.putVx_keeps ?_) | (with_reducible refine State.veCycles_keeps ?_) | (with_reducible refine Out.keeps_next ?_) | (with_reducible exact Res.keeps_ill) | (with_reducible exact Res.keeps_illCommon) | (with_reducible exact Res.keeps_trap) | (with_reducible refine Res.keeps_done ?_) | (with_reducible refine Res.keeps_stay ?_) | (split) | (refine Res.keeps_of_done ?_ (by with_reducible assumption))

theorem execVexpand_keeps {s₀ s : State} {e : Nat} (hk : Keeps s₀ s) : Out.keeps s₀ (execVexpand e s) := by
  unfold execVexpand; try dsimp only
  repeat' first | (with_reducible assumption) | (with_reducible refine State.vcmd_keeps (fun _ _ _ _ => ?_) ?_) | (with_reducible refine State.putVx_keeps ?_) | (with_reducible refine State.veCycles_keeps ?_) | (with_reducible refine Out.keeps_next ?_) | (with_reducible exact Res.keeps_ill) | (with_reducible exact Res.keeps_illCommon) | (with_reducible exact Res.keeps_trap) | (with_reducible refine Res.keeps_done ?_) | (with_reducible refine Res.keeps_stay ?_) | (with_reducible refine foldl_keeps ?_ ?_; intro _ _ _) | (split) | (refine Res.keeps_of_done ?_ (by with_reducible assumption))

theorem execVxpose_keeps {s₀ s : State} {e : Nat} (hk : Keeps s₀ s) : Out.keeps s₀ (execVxpose e s) := by
  unfold execVxpose; try dsimp only
  repeat' first | (with_reducible assumption) | (with_reducible refine State.vcmd_keeps (fun _ _ _ _ => ?_) ?_) | (with_reducible refine State.putVx_keeps ?_) | (with_reducible refine State.veCycles_keeps ?_) | (with_reducible refine Out.keeps_next ?_) | (with_reducible exact Res.keeps_ill) | (with_reducible exact Res.keeps_illCommon) | (with_reducible exact Res.keeps_trap) | (with_reducible refine Res.keeps_done ?_) | (with_reducible refine Res.keeps_stay ?_) | (with_reducible refine foldl_keeps ?_ ?_; intro _ _ _) | (split) | (refine Res.keeps_of_done ?_ (by with_reducible assumption))

theorem State.wordStore_keeps {s₀ s : State} {r : Run} {e : Nat} {b : List Byte} {v : Nat} (hk : Keeps s₀ s) : Ex.keeps s₀ (State.wordStore s r e b v) := by
  unfold State.wordStore; try dsimp only
  repeat' first | (with_reducible assumption) | (with_reducible refine State.writeAt_keeps ?_) | (with_reducible exact Ex.keeps_error) | (with_reducible refine Ex.keeps_ok ?_) | (split) | (refine Ex.keeps_of ?_ (by with_reducible assumption))

theorem State.vcnt_keeps {s₀ s : State} {e : Nat} {acts : List Nat} {f : BitVec 32 → BitVec 32 → BitVec 32} (hk : Keeps s₀ s) : Keeps s₀ (State.vcnt s e acts f) := by
  unfold State.vcnt; try dsimp only
  repeat' first | (with_reducible assumption) | (with_reducible refine State.vcmd_keeps (fun _ _ _ _ => ?_) ?_) | (with_reducible refine State.putVx_keeps ?_) | (with_reducible refine State.veCycles_keeps ?_) | (with_reducible exact Res.keeps_ill) | (with_reducible exact Res.keeps_illCommon) | (with_reducible exact Res.keeps_trap) | (with_reducible refine Res.keeps_done ?_) | (with_reducible refine Res.keeps_stay ?_) | (split) | (refine Res.keeps_of_done ?_ (by with_reducible assumption))

theorem execVcntSet_keeps {s₀ s : State} {e : Nat} (hk : Keeps s₀ s) : Out.keeps s₀ (execVcntSet e s) := by
  unfold execVcntSet; try dsimp only
  repeat' first | (with_reducible assumption) | (with_reducible refine State.vcnt_keeps ?_) | (with_reducible refine Out.keeps_next ?_) | (split)

theorem execVcntAdd_keeps {s₀ s : State} {e : Nat} (hk : Keeps s₀ s) : Out.keeps s₀ (execVcntAdd e s) := by
  unfold execVcntAdd; try dsimp only
  repeat' first | (with_reducible assumption) | (with_reducible refine State.vcnt_keeps ?_) | (with_reducible refine Out.keeps_next ?_) | (split)

theorem execVcntStore_keeps {s₀ s : State} {e : Nat} (hk : Keeps s₀ s) : Out.keeps s₀ (execVcntStore e s) := by
  unfold execVcntStore; try dsimp only
  repeat' first | (with_reducible assumption) | (with_reducible refine State.vcmd_keeps (fun _ _ _ _ => ?_) ?_) | (with_reducible refine State.wordStore_keeps ?_) | (with_reducible refine State.veCycles_keeps ?_) | (with_reducible refine Out.keeps_next ?_) | (with_reducible exact Res.keeps_ill) | (with_reducible exact Res.keeps_illCommon) | (with_reducible exact Res.keeps_trap) | (with_reducible refine Res.keeps_done ?_) | (with_reducible refine Res.keeps_stay ?_) | (with_reducible exact Ex.keeps_error) | (with_reducible refine Ex.keeps_ok ?_) | (split) | (refine Ex.keeps_of ?_ (by with_reducible assumption)) | (refine Res.keeps_of_done ?_ (by with_reducible assumption))

theorem execVfence_keeps {s₀ s : State} {e : Nat} (hk : Keeps s₀ s) : Out.keeps s₀ (execVfence e s) := by
  unfold execVfence; try dsimp only
  repeat' first | (with_reducible assumption) | (with_reducible refine State.fence_keeps ?_) | (with_reducible refine Out.keeps_next ?_) | (split)

theorem execVfenceComplete_keeps {s₀ s : State} {e : Nat} (hk : Keeps s₀ s) : Out.keeps s₀ (execVfenceComplete e s) := by
  unfold execVfenceComplete; try dsimp only
  repeat' first | (with_reducible assumption) | (with_reducible refine State.fenceDone_keeps (fun _ _ => ?_) ?_) | (with_reducible refine State.veCycles_keeps ?_) | (with_reducible refine Out.keeps_next ?_) | (split)

theorem State.sideUse_keeps {s₀ s : State} {e : Nat} {r : Run} (hk : Keeps s₀ s) : Keeps s₀ (State.sideUse s e r) := by
  unfold State.sideUse; try dsimp only
  repeat' first | (with_reducible assumption) | (with_reducible refine State.count_keeps ?_) | (with_reducible refine State.engineEvent_keeps ?_) | (split)

theorem State.sideArm_keeps {s₀ s : State} {e : Nat} {acts : List Nat} {arm start : Nat} (hk : Keeps s₀ s) : Keeps s₀ (State.sideArm s e acts arm start) := by
  unfold State.sideArm; try dsimp only
  repeat' first | (with_reducible assumption) | (with_reducible refine State.vcmd_keeps (fun _ _ _ _ => ?_) ?_) | (with_reducible refine State.putVx_keeps ?_) | (with_reducible refine State.sideUse_keeps ?_) | (with_reducible refine State.veCycles_keeps ?_) | (with_reducible exact Res.keeps_ill) | (with_reducible exact Res.keeps_illCommon) | (with_reducible exact Res.keeps_trap) | (with_reducible refine Res.keeps_done ?_) | (with_reducible refine Res.keeps_stay ?_) | (split) | (refine Res.keeps_of_done ?_ (by with_reducible assumption))

theorem execVsideArmSum_keeps {s₀ s : State} {e : Nat} (hk : Keeps s₀ s) : Out.keeps s₀ (execVsideArmSum e s) := by
  unfold execVsideArmSum; try dsimp only
  repeat' first | (with_reducible assumption) | (with_reducible refine State.sideArm_keeps ?_) | (with_reducible refine Out.keeps_next ?_) | (split)

theorem execVsideArmMax_keeps {s₀ s : State} {e : Nat} (hk : Keeps s₀ s) : Out.keeps s₀ (execVsideArmMax e s) := by
  unfold execVsideArmMax; try dsimp only
  repeat' first | (with_reducible assumption) | (with_reducible refine State.sideArm_keeps ?_) | (with_reducible refine Out.keeps_next ?_) | (split)

theorem execVsideStore_keeps {s₀ s : State} {e : Nat} (hk : Keeps s₀ s) : Out.keeps s₀ (execVsideStore e s) := by
  unfold execVsideStore; try dsimp only
  repeat' first | (with_reducible assumption) | (with_reducible refine State.vcmd_keeps (fun _ _ _ _ => ?_) ?_) | (with_reducible refine State.wordStore_keeps ?_) | (with_reducible refine State.sideUse_keeps ?_) | (with_reducible refine State.veCycles_keeps ?_) | (with_reducible refine Out.keeps_next ?_) | (with_reducible exact Res.keeps_ill) | (with_reducible exact Res.keeps_illCommon) | (with_reducible exact Res.keeps_trap) | (with_reducible refine Res.keeps_done ?_) | (with_reducible refine Res.keeps_stay ?_) | (with_reducible exact Ex.keeps_error) | (with_reducible refine Ex.keeps_ok ?_) | (split) | (refine Ex.keeps_of ?_ (by with_reducible assumption)) | (refine Res.keeps_of_done ?_ (by with_reducible assumption))

end Sys2Proof.Machine
end

