-- ==== Sys2Proof/Laws/KeepsGroup.lean ====
section
/-! SUPPORT. What the operations of Machine/Group.lean keep. -/
namespace Sys2Proof.Machine
set_option Elab.async false

theorem State.putGroup_keeps {s₀ s : State} {g : Nat} {x : Group} (hk : Keeps s₀ s) : Keeps s₀ (State.putGroup s g x) := by
  unfold State.putGroup; try dsimp only
  repeat' first | (with_reducible assumption) | (with_reducible refine State.setCol_keeps ?_) | (split)

theorem State.showGroup_keeps {s₀ s : State} {g : Nat} (hk : Keeps s₀ s) : Keeps s₀ (State.showGroup s g) := by
  unfold State.showGroup; try dsimp only
  repeat' first | (with_reducible assumption) | (with_reducible refine State.putFld_keeps ?_) | (split)

theorem State.groupApply_keeps {s₀ s : State} {g : Nat} (hk : Keeps s₀ s) : Keeps s₀ (State.groupApply s g) := by
  unfold State.groupApply; try dsimp only
  repeat' first | (with_reducible assumption) | (with_reducible refine State.setBit_keeps ?_) | (with_reducible refine State.putFld_keeps ?_) | (with_reducible refine State.putGroup_keeps ?_) | (with_reducible refine State.showGroup_keeps ?_) | (split)

theorem execGroupApplyEffect_keeps {s₀ s : State} {g : Nat} (hk : Keeps s₀ s) : Out.keeps s₀ (execGroupApplyEffect g s) := by
  unfold execGroupApplyEffect; try dsimp only
  repeat' first | (with_reducible assumption) | (with_reducible refine State.putGroup_keeps ?_) | (with_reducible refine State.clrBit_keeps ?_) | (with_reducible refine State.showGroup_keeps ?_) | (with_reducible refine Out.keeps_next ?_) | (split)

theorem State.putStep_keeps {s₀ s : State} {n g : Nat} {o : OpenStep} (hk : Keeps s₀ s) : Keeps s₀ (State.putStep s n g o) := by
  unfold State.putStep; try dsimp only
  repeat' first | (with_reducible assumption) | (with_reducible refine State.setCol_keeps ?_) | (split)

theorem State.putCap_keeps {s₀ s : State} {g : Nat} {c : Capture} (hk : Keeps s₀ s) : Keeps s₀ (State.putCap s g c) := by
  unfold State.putCap; try dsimp only
  repeat' first | (with_reducible assumption) | (with_reducible refine State.putGroup_keeps ?_) | (split)

theorem State.writeCap_keeps {s₀ s : State} {a : Access} {g state ids subs bcn : Nat} (hk : Keeps s₀ s) : Ex.keeps s₀ (State.writeCap s a g state ids subs bcn) := by
  unfold State.writeCap; try dsimp only
  repeat' first | (with_reducible assumption) | (with_reducible refine State.vStore_keeps ?_) | (with_reducible exact Ex.keeps_error) | (with_reducible refine Ex.keeps_ok ?_) | (split) | (refine Ex.keeps_of ?_ (by with_reducible assumption))

theorem State.abandonCap_keeps {s₀ s : State} {a : Access} {g : Nat} (hk : Keeps s₀ s) : Ex.keeps s₀ (State.abandonCap s a g) := by
  unfold State.abandonCap; try dsimp only
  repeat' first | (with_reducible assumption) | (with_reducible refine State.putCap_keeps ?_) | (with_reducible refine State.setBit_keeps ?_) | (with_reducible refine State.writeCap_keeps ?_) | (with_reducible exact Ex.keeps_error) | (with_reducible refine Ex.keeps_ok ?_) | (split) | (refine Ex.keeps_of ?_ (by with_reducible assumption))

theorem State.appendCap_keeps {s₀ s : State} {a : Access} {g : Nat} {bs : List Byte} {entry : Bool} (hk : Keeps s₀ s) : Ex.keeps s₀ (State.appendCap s a g bs entry) := by
  unfold State.appendCap; try dsimp only
  repeat' first | (with_reducible assumption) | (with_reducible refine State.abandonCap_keeps ?_) | (with_reducible refine State.vStore_keeps ?_) | (with_reducible refine State.putCap_keeps ?_) | (with_reducible refine State.writeCap_keeps ?_) | (with_reducible exact Ex.keeps_error) | (with_reducible refine Ex.keeps_ok ?_) | (split) | (refine Ex.keeps_of ?_ (by with_reducible assumption))

theorem State.beginCap_keeps {s₀ s : State} {a : Access} {g step : Nat} (hk : Keeps s₀ s) : Ex.keeps s₀ (State.beginCap s a g step) := by
  unfold State.beginCap; try dsimp only
  repeat' first | (with_reducible assumption) | (with_reducible refine State.setBit_keeps ?_) | (with_reducible refine step_keeps ?_) | (with_reducible refine State.putCap_keeps ?_) | (with_reducible refine State.abandonCap_keeps ?_) | (with_reducible refine State.writeCap_keeps ?_) | (with_reducible refine Out.keeps_next ?_) | (with_reducible exact Ex.keeps_error) | (with_reducible refine Ex.keeps_ok ?_) | (split) | (refine Out.keeps_of ?_ (by with_reducible assumption)) | (refine Ex.keeps_of ?_ (by with_reducible assumption))

theorem State.capStatus_keeps {s₀ s : State} {g : Nat} {f : Fld} {tag : Nat} (hk : Keeps s₀ s) : Keeps s₀ (State.capStatus s g f tag) := by
  unfold State.capStatus; try dsimp only
  repeat' first | (with_reducible assumption) | (with_reducible refine State.setBit_keeps ?_) | (with_reducible refine State.putFld_keeps ?_) | (split)

theorem execFlipToggle_keeps {s₀ s : State}  (hk : Keeps s₀ s) : Out.keeps s₀ (execFlipToggle s) := by
  unfold execFlipToggle; try dsimp only
  repeat' first | (with_reducible assumption) | (with_reducible refine State.setCol_keeps ?_) | (with_reducible refine State.putReg_keeps ?_) | (with_reducible refine Out.keeps_next ?_) | (with_reducible refine foldl_keeps ?_ ?_; intro _ _ _) | (split)

end Sys2Proof.Machine
end

