-- ==== Sys2Proof/Laws/KeepsExchange.lean ====
section
/-! SUPPORT. What the operations of Machine/Exchange.lean keep. -/
namespace Sys2Proof.Machine
set_option Elab.async false

theorem execCstep_keeps {s₀ s : State} {e : Nat} (hk : Keeps s₀ s) : Out.keeps s₀ (execCstep e s) := by
  unfold execCstep; try dsimp only
  repeat' first | (with_reducible assumption) | (with_reducible refine State.runCmd_keeps (fun _ _ _ _ => ?_) ?_) | (with_reducible refine step_keeps ?_) | (with_reducible refine State.beginCap_keeps ?_) | (with_reducible refine State.putGroup_keeps ?_) | (with_reducible refine State.putStep_keeps ?_) | (with_reducible refine Out.keeps_next ?_) | (with_reducible exact Res.keeps_ill) | (with_reducible exact Res.keeps_illCommon) | (with_reducible exact Res.keeps_trap) | (with_reducible refine Res.keeps_done ?_) | (with_reducible refine Res.keeps_stay ?_) | (with_reducible exact Ex.keeps_error) | (with_reducible refine Ex.keeps_ok ?_) | (split) | (refine Out.keeps_of ?_ (by with_reducible assumption)) | (refine Ex.keeps_of ?_ (by with_reducible assumption)) | (refine Res.keeps_of_done ?_ (by with_reducible assumption))

theorem State.sendRun_keeps {s₀ s : State} {d : Reduce} {x : SendRun} (hk : Keeps s₀ s) : Keeps s₀ (State.sendRun s d x) := by
  unfold State.sendRun; try dsimp only
  repeat' first | (with_reducible assumption) | (with_reducible refine State.send_keeps ?_) | (with_reducible refine Op.keeps_getD ?_ ?_) | (with_reducible refine foldl_keeps ?_ ?_; intro _ _ _) | (split)

theorem State.sendNew_keeps {s₀ s : State} {before : State} {d : Reduce} {elems : List Nat} (hk : Keeps s₀ s) : Keeps s₀ (State.sendNew s before d elems) := by
  unfold State.sendNew; try dsimp only
  repeat' first | (with_reducible assumption) | (with_reducible refine State.sendRun_keeps ?_) | (with_reducible refine foldl_keeps ?_ ?_; intro _ _ _) | (split)

theorem State.reduceInput_keeps {s₀ s : State} {a : Access} {b : List Byte} (hk : Keeps s₀ s) : ExP.keeps s₀ (State.reduceInput s a b) := by
  unfold State.reduceInput; try dsimp only
  repeat' first | (with_reducible assumption) | (with_reducible refine State.vRead_keeps ?_) | (with_reducible exact ExP.keeps_error) | (with_reducible refine ExP.keeps_ok ?_) | (split) | (refine ExP.keeps_of ?_ (by with_reducible assumption))

theorem State.replayReduce_keeps {s₀ s : State} {a : Access} {n : Nat} {d : Reduce} (hk : Keeps s₀ s) : Ex.keeps s₀ (State.replayReduce s a n d) := by
  unfold State.replayReduce; try dsimp only
  repeat' first | (with_reducible assumption) | (with_reducible refine State.capStatus_keeps ?_) | (with_reducible refine State.putStep_keeps ?_) | (with_reducible refine State.vRead_keeps ?_) | (with_reducible refine State.count_keeps ?_) | (with_reducible refine State.vStore_keeps ?_) | (with_reducible exact Ex.keeps_error) | (with_reducible refine Ex.keeps_ok ?_) | (with_reducible exact ExP.keeps_error) | (with_reducible refine ExP.keeps_ok ?_) | (split) | (refine Ex.keeps_of ?_ (by with_reducible assumption)) | (refine ExP.keeps_of ?_ (by with_reducible assumption))

theorem execCreduce_keeps {s₀ s : State} {e : Nat} (hk : Keeps s₀ s) : Out.keeps s₀ (execCreduce e s) := by
  unfold execCreduce; try dsimp only
  repeat' first | (with_reducible assumption) | (with_reducible refine State.runCmd_keeps (fun _ _ _ _ => ?_) ?_) | (with_reducible refine State.reduceInput_keeps ?_) | (with_reducible refine step_keeps ?_) | (with_reducible refine State.putStep_keeps ?_) | (with_reducible refine Res.ofStore_keeps ?_) | (with_reducible refine State.replayReduce_keeps ?_) | (with_reducible refine State.setCol_keeps ?_) | (with_reducible refine State.modRun_keeps ?_) | (with_reducible refine State.count_keeps ?_) | (with_reducible refine State.sendRun_keeps ?_) | (with_reducible refine Out.keeps_next ?_) | (with_reducible exact Res.keeps_ill) | (with_reducible exact Res.keeps_illCommon) | (with_reducible exact Res.keeps_trap) | (with_reducible refine Res.keeps_done ?_) | (with_reducible refine Res.keeps_stay ?_) | (with_reducible exact Ex.keeps_error) | (with_reducible refine Ex.keeps_ok ?_) | (with_reducible exact ExP.keeps_error) | (with_reducible refine ExP.keeps_ok ?_) | (with_reducible refine foldl_keeps ?_ ?_; intro _ _ _) | (split) | (refine Out.keeps_of ?_ (by with_reducible assumption)) | (refine Ex.keeps_of ?_ (by with_reducible assumption)) | (refine ExP.keeps_of ?_ (by with_reducible assumption)) | (refine Res.keeps_of_done ?_ (by with_reducible assumption))

theorem State.collArrives_keeps {s₀ s : State} {x : CollData} (hk : Keeps s₀ s) : Keeps s₀ (State.collArrives s x) := by
  unfold State.collArrives; try dsimp only
  repeat' first | (with_reducible assumption) | (with_reducible refine State.setCol_keeps ?_) | (with_reducible refine State.sendNew_keeps ?_) | (split)

theorem execColl_keeps {s₀ s : State} {g tag step src off : Nat} {data : List Byte} (hk : Keeps s₀ s) : Out.keeps s₀ (execColl g tag step src off data s) := by
  unfold execColl; try dsimp only
  repeat' first | (with_reducible assumption) | (with_reducible refine State.collArrives_keeps ?_) | (with_reducible refine step_keeps ?_) | (with_reducible refine Out.keeps_next ?_) | (split) | (refine Out.keeps_of ?_ (by with_reducible assumption))

theorem State.dropInbox_keeps {s₀ s : State} {d : Reduce} (hk : Keeps s₀ s) : Keeps s₀ (State.dropInbox s d) := by
  unfold State.dropInbox; try dsimp only
  repeat' first | (with_reducible assumption) | (with_reducible refine State.setCol_keeps ?_) | (split)

theorem execCreduceComplete_keeps {s₀ s : State} {e : Nat} (hk : Keeps s₀ s) : Out.keeps s₀ (execCreduceComplete e s) := by
  unfold execCreduceComplete; try dsimp only
  repeat' first | (with_reducible assumption) | (with_reducible refine State.vStore_keeps ?_) | (with_reducible refine State.trapped_keeps ?_) | (with_reducible refine State.putStep_keeps ?_) | (with_reducible refine State.appendCap_keeps ?_) | (with_reducible refine State.dropInbox_keeps ?_) | (with_reducible refine State.setCol_keeps ?_) | (with_reducible refine State.advance_keeps ?_) | (with_reducible refine Out.keeps_next ?_) | (with_reducible exact Ex.keeps_error) | (with_reducible refine Ex.keeps_ok ?_) | (split) | (refine Ex.keeps_of ?_ (by with_reducible assumption))

theorem execExchFailed_keeps {s₀ s : State} {e : Nat} (hk : Keeps s₀ s) : Out.keeps s₀ (execExchFailed e s) := by
  unfold execExchFailed; try dsimp only
  repeat' first | (with_reducible assumption) | (with_reducible refine foldM_keeps (fun _ _ _ => ?_) ?_) | (with_reducible refine State.vStore_keeps ?_) | (with_reducible refine State.trapped_keeps ?_) | (with_reducible refine State.putStep_keeps ?_) | (with_reducible refine State.dropInbox_keeps ?_) | (with_reducible refine State.count_keeps ?_) | (with_reducible refine State.setCol_keeps ?_) | (with_reducible refine State.advance_keeps ?_) | (with_reducible refine Out.keeps_next ?_) | (with_reducible exact Ex.keeps_error) | (with_reducible refine Ex.keeps_ok ?_) | (split) | (refine Ex.keeps_of ?_ (by with_reducible assumption))

end Sys2Proof.Machine
end

