-- ==== Sys2Proof/Laws/KeepsBeacon.lean ====
section
/-! SUPPORT. What the operations of Machine/Beacon.lean keep. -/
namespace Sys2Proof.Machine
set_option Elab.async false

theorem State.closeStep_keeps {s₀ s : State} {g step : Nat} (hk : Keeps s₀ s) : Keeps s₀ (State.closeStep s g step) := by
  unfold State.closeStep; try dsimp only
  repeat' first | (with_reducible assumption) | (with_reducible refine State.setCol_keeps ?_) | (with_reducible refine step_keeps ?_) | (with_reducible refine State.putGroup_keeps ?_) | (with_reducible refine Out.keeps_next ?_) | (split) | (refine Out.keeps_of ?_ (by with_reducible assumption))

theorem State.flood_keeps {s₀ s : State} {g : Nat} {x : Round} (hk : Keeps s₀ s) : Keeps s₀ (State.flood s g x) := by
  unfold State.flood; try dsimp only
  repeat' first | (with_reducible assumption) | (with_reducible refine State.sendCtrl_keeps ?_) | (with_reducible refine foldl_keeps ?_ ?_; intro _ _ _) | (split)

theorem State.putRound_keeps {s₀ s : State} {g : Nat} {x : Option Round} (hk : Keeps s₀ s) : Keeps s₀ (State.putRound s g x) := by
  unfold State.putRound; try dsimp only
  repeat' first | (with_reducible assumption) | (with_reducible refine State.putGroup_keeps ?_) | (split)

theorem execSubroundOpen_keeps {s₀ s : State} {g : Nat} (hk : Keeps s₀ s) : Out.keeps s₀ (execSubroundOpen g s) := by
  unfold execSubroundOpen; try dsimp only
  repeat' first | (with_reducible assumption) | (with_reducible refine State.toTick_keeps ?_) | (with_reducible refine State.putRound_keeps ?_) | (with_reducible refine State.flood_keeps ?_) | (with_reducible refine Out.keeps_next ?_) | (split)

theorem State.merge_keeps {s₀ s : State} {g : Nat} {x : Round} {b : List Byte} (hk : Keeps s₀ s) : Keeps s₀ (State.merge s g x b) := by
  unfold State.merge; try dsimp only
  repeat' first | (with_reducible assumption) | (with_reducible refine State.putRound_keeps ?_) | (with_reducible refine State.alarmBeacon_keeps ?_) | (split)

theorem State.beaconArrives_keeps {s₀ s : State} {g : Nat} {b : List Byte} (hk : Keeps s₀ s) : Keeps s₀ (State.beaconArrives s g b) := by
  unfold State.beaconArrives; try dsimp only
  repeat' first | (with_reducible assumption) | (with_reducible refine State.merge_keeps ?_) | (with_reducible refine State.count_keeps ?_) | (split)

theorem execBeaconMessage_keeps {s₀ s : State} {g : Nat} {data : List Byte} (hk : Keeps s₀ s) : Out.keeps s₀ (execBeaconMessage g data s) := by
  unfold execBeaconMessage; try dsimp only
  repeat' first | (with_reducible assumption) | (with_reducible refine State.beaconArrives_keeps ?_) | (with_reducible refine Out.keeps_next ?_) | (split)

theorem State.beaconRegs_keeps {s₀ s : State} {g : Nat} {x : Round} {v : Verdict} (hk : Keeps s₀ s) : Keeps s₀ (State.beaconRegs s g x v) := by
  unfold State.beaconRegs; try dsimp only
  repeat' first | (with_reducible assumption) | (with_reducible refine State.putReg_keeps ?_) | (with_reducible refine State.putFld_keeps ?_) | (with_reducible refine State.count_keeps ?_) | (with_reducible refine foldl_keeps ?_ ?_; intro _ _ _) | (split)

theorem State.endRound_keeps {s₀ s : State} {a : Access} {g : Nat} {x : Round} {v : Verdict} (hk : Keeps s₀ s) : Ex.keeps s₀ (State.endRound s a g x v) := by
  unfold State.endRound; try dsimp only
  repeat' first | (with_reducible assumption) | (with_reducible refine State.appendCap_keeps ?_) | (with_reducible refine State.putCap_keeps ?_) | (with_reducible refine State.setBit_keeps ?_) | (with_reducible refine State.writeCap_keeps ?_) | (with_reducible refine State.vStore_keeps ?_) | (with_reducible refine State.beaconRegs_keeps ?_) | (with_reducible refine State.putGroup_keeps ?_) | (with_reducible refine State.setCol_keeps ?_) | (with_reducible refine State.blockEvent_keeps ?_) | (with_reducible refine State.stepMark_keeps ?_) | (with_reducible exact Ex.keeps_error) | (with_reducible refine Ex.keeps_ok ?_) | (split) | (refine Ex.keeps_of ?_ (by with_reducible assumption))

theorem execBeaconDecide_keeps {s₀ s : State} {g : Nat} (hk : Keeps s₀ s) : Out.keeps s₀ (execBeaconDecide g s) := by
  unfold execBeaconDecide; try dsimp only
  repeat' first | (with_reducible assumption) | (with_reducible refine State.putRound_keeps ?_) | (with_reducible refine State.toTick_keeps ?_) | (with_reducible refine State.endRound_keeps ?_) | (with_reducible refine State.trapped_keeps ?_) | (with_reducible refine State.advance_keeps ?_) | (with_reducible refine Out.keeps_next ?_) | (with_reducible exact Ex.keeps_error) | (with_reducible refine Ex.keeps_ok ?_) | (split) | (refine Ex.keeps_of ?_ (by with_reducible assumption))

theorem State.replayRound_keeps {s₀ s : State} {a : Access} {g : Nat} {x : Round} (hk : Keeps s₀ s) : Ex.keeps s₀ (State.replayRound s a g x) := by
  unfold State.replayRound; try dsimp only
  repeat' first | (with_reducible assumption) | (with_reducible refine State.setBit_keeps ?_) | (with_reducible refine State.endRound_keeps ?_) | (with_reducible exact Ex.keeps_error) | (with_reducible refine Ex.keeps_ok ?_) | (split) | (refine Ex.keeps_of ?_ (by with_reducible assumption))

theorem execCbeacon_keeps {s₀ s : State} {e : Nat} (hk : Keeps s₀ s) : Out.keeps s₀ (execCbeacon e s) := by
  unfold execCbeacon; try dsimp only
  repeat' first | (with_reducible assumption) | (with_reducible refine State.runCmd_keeps (fun _ _ _ _ => ?_) ?_) | (with_reducible refine step_keeps ?_) | (with_reducible refine State.closeStep_keeps ?_) | (with_reducible refine Res.ofStore_keeps ?_) | (with_reducible refine State.replayRound_keeps ?_) | (with_reducible refine State.putRound_keeps ?_) | (with_reducible refine State.modRun_keeps ?_) | (with_reducible refine State.flood_keeps ?_) | (with_reducible refine Out.keeps_next ?_) | (with_reducible exact Res.keeps_ill) | (with_reducible exact Res.keeps_illCommon) | (with_reducible exact Res.keeps_trap) | (with_reducible refine Res.keeps_done ?_) | (with_reducible refine Res.keeps_stay ?_) | (with_reducible exact Ex.keeps_error) | (with_reducible refine Ex.keeps_ok ?_) | (split) | (refine Out.keeps_of ?_ (by with_reducible assumption)) | (refine Ex.keeps_of ?_ (by with_reducible assumption)) | (refine Res.keeps_of_done ?_ (by with_reducible assumption))

end Sys2Proof.Machine
end

