-- ==== Sys2Proof/Laws/KeepsTimebase.lean ====
section
/-! SUPPORT. What the operations of Machine/Timebase.lean keep. -/
namespace Sys2Proof.Machine
set_option Elab.async false

theorem State.tbEnter_keeps {s₀ s : State} {v : Nat} (hk : Keeps s₀ s) : Keeps s₀ (State.tbEnter s v) := by
  unfold State.tbEnter; try dsimp only
  repeat' first | (with_reducible assumption) | (with_reducible refine State.putFld_keeps ?_) | (split)

theorem State.tbSplit_keeps {s₀ s : State}  (hk : Keeps s₀ s) : Keeps s₀ (State.tbSplit s) := by
  unfold State.tbSplit; try dsimp only
  repeat' first | (with_reducible assumption) | (with_reducible refine State.tbEnter_keeps ?_) | (with_reducible refine State.alarmWch_keeps ?_) | (split)

theorem State.tbAcquire_keeps {s₀ s : State}  (hk : Keeps s₀ s) : Keeps s₀ (State.tbAcquire s) := by
  unfold State.tbAcquire; try dsimp only
  repeat' first | (with_reducible assumption) | (with_reducible refine State.setTb_keeps ?_) | (with_reducible refine State.tbEnter_keeps ?_) | (split)

theorem State.tbWatch_keeps {s₀ s : State}  (hk : Keeps s₀ s) : Keeps s₀ (State.tbWatch s) := by
  unfold State.tbWatch; try dsimp only
  repeat' first | (with_reducible assumption) | (with_reducible refine State.setTb_keeps ?_) | (split)

theorem execHoldoverEntry_keeps {s₀ s : State}  (hk : Keeps s₀ s) : Out.keeps s₀ (execHoldoverEntry s) := by
  unfold execHoldoverEntry; try dsimp only
  repeat' first | (with_reducible assumption) | (with_reducible refine State.setTb_keeps ?_) | (with_reducible refine State.tbEnter_keeps ?_) | (with_reducible refine Out.keeps_next ?_) | (split)

theorem execAcquireTimeout_keeps {s₀ s : State}  (hk : Keeps s₀ s) : Out.keeps s₀ (execAcquireTimeout s) := by
  unfold execAcquireTimeout; try dsimp only
  repeat' first | (with_reducible assumption) | (with_reducible refine State.tbSplit_keeps ?_) | (with_reducible refine Out.keeps_next ?_) | (split)

theorem execTbLock_keeps {s₀ s : State}  (hk : Keeps s₀ s) : Out.keeps s₀ (execTbLock s) := by
  unfold execTbLock; try dsimp only
  repeat' first | (with_reducible assumption) | (with_reducible refine State.setTb_keeps ?_) | (with_reducible refine State.tbEnter_keeps ?_) | (with_reducible refine Out.keeps_next ?_) | (split)

theorem execTbLockLost_keeps {s₀ s : State}  (hk : Keeps s₀ s) : Out.keeps s₀ (execTbLockLost s) := by
  unfold execTbLockLost; try dsimp only
  repeat' first | (with_reducible assumption) | (with_reducible refine State.tbAcquire_keeps ?_) | (with_reducible refine State.alarmWch_keeps ?_) | (with_reducible refine Out.keeps_next ?_) | (split)

theorem execWatchUnlocked_keeps {s₀ s : State}  (hk : Keeps s₀ s) : Out.keeps s₀ (execWatchUnlocked s) := by
  unfold execWatchUnlocked; try dsimp only
  repeat' first | (with_reducible assumption) | (with_reducible refine State.setTb_keeps ?_) | (with_reducible refine State.alarmWch_keeps ?_) | (with_reducible refine Out.keeps_next ?_) | (split)

theorem execHoldoverSplit_keeps {s₀ s : State}  (hk : Keeps s₀ s) : Out.keeps s₀ (execHoldoverSplit s) := by
  unfold execHoldoverSplit; try dsimp only
  repeat' first | (with_reducible assumption) | (with_reducible refine State.tbSplit_keeps ?_) | (with_reducible refine Out.keeps_next ?_) | (split)

theorem State.joinAs_keeps {s₀ s : State} {role0 : Nat} (hk : Keeps s₀ s) : Keeps s₀ (State.joinAs s role0) := by
  unfold State.joinAs; try dsimp only
  repeat' first | (with_reducible assumption) | (with_reducible refine State.alarmWch_keeps ?_) | (with_reducible refine State.putFld_keeps ?_) | (with_reducible refine State.setTb_keeps ?_) | (with_reducible refine State.tbEnter_keeps ?_) | (with_reducible refine State.tbAcquire_keeps ?_) | (split)

theorem execWatchCountStep_keeps {s₀ s : State} {count : Nat} (hk : Keeps s₀ s) : Out.keeps s₀ (execWatchCountStep count s) := by
  unfold execWatchCountStep; try dsimp only
  repeat' first | (with_reducible assumption) | (with_reducible refine State.setTb_keeps ?_) | (with_reducible refine State.alarmWch_keeps ?_) | (with_reducible refine State.setFt_keeps ?_) | (with_reducible refine State.setWatch_keeps ?_) | (with_reducible refine Out.keeps_next ?_) | (split)

theorem State.showOffset_keeps {s₀ s : State} {x : Int} (hk : Keeps s₀ s) : Keeps s₀ (State.showOffset s x) := by
  unfold State.showOffset; try dsimp only
  repeat' first | (with_reducible assumption) | (with_reducible refine State.setTb_keeps ?_) | (with_reducible refine State.putFld_keeps ?_) | (with_reducible refine State.tookFree_keeps ?_) | (split)

theorem State.measured_keeps {s₀ s : State} {x : Int} (hk : Keeps s₀ s) : Keeps s₀ (State.measured s x) := by
  unfold State.measured; try dsimp only
  repeat' first | (with_reducible assumption) | (with_reducible refine State.showOffset_keeps ?_) | (with_reducible refine State.setTb_keeps ?_) | (with_reducible refine State.alarmWch_keeps ?_) | (with_reducible refine State.tbSplit_keeps ?_) | (with_reducible refine State.tbAcquire_keeps ?_) | (split)

theorem State.showDelay_keeps {s₀ s : State} {x : Int} (hk : Keeps s₀ s) : Keeps s₀ (State.showDelay s x) := by
  unfold State.showDelay; try dsimp only
  repeat' first | (with_reducible assumption) | (with_reducible refine State.putFld_keeps ?_) | (with_reducible refine State.tookFree_keeps ?_) | (split)

theorem State.timeRsp_keeps {s₀ s : State} {t1 t2 t3 : Nat} {locked : Bool} (hk : Keeps s₀ s) : Keeps s₀ (State.timeRsp s t1 t2 t3 locked) := by
  unfold State.timeRsp; try dsimp only
  repeat' first | (with_reducible assumption) | (with_reducible refine State.toTick_keeps ?_) | (with_reducible refine State.tookFree_keeps ?_) | (with_reducible refine State.measured_keeps ?_) | (with_reducible refine State.showDelay_keeps ?_) | (split)

theorem execTimeRspReceive_keeps {s₀ s : State} {t1 t2 t3 : Nat} {locked : Bool} (hk : Keeps s₀ s) : Out.keeps s₀ (execTimeRspReceive t1 t2 t3 locked s) := by
  unfold execTimeRspReceive; try dsimp only
  repeat' first | (with_reducible assumption) | (with_reducible refine State.timeRsp_keeps ?_) | (with_reducible refine Out.keeps_next ?_) | (split)

end Sys2Proof.Machine
end

