-- ==== Sys2Proof/Laws/KeepsLinks.lean ====
section
/-! SUPPORT. What the operations of Machine/Links.lean keep. -/
namespace Sys2Proof.Machine
set_option Elab.async false

theorem State.takeHead_keeps {s₀ s : State} {oe v : Nat} {m : Packet} (hk : Keeps s₀ s) : Keeps s₀ (State.takeHead s oe v m) := by
  unfold State.takeHead; try dsimp only
  repeat' first | (with_reducible assumption) | (with_reducible refine State.setLnk_keeps ?_) | (with_reducible refine State.putPort_keeps ?_) | (split)

theorem State.fillBody_keeps {s₀ s : State} {oe v : Nat} {x0 : Nat} {x1 : Nat} {x2 : List Byte} (hk : Keeps s₀ s) : Pr.keeps s₀ (State.fillBody s oe v x0 x1 x2) := by
  induction x0 generalizing s x1 x2 with
  | zero =>
    unfold State.fillBody; try dsimp only
    repeat' first | (with_reducible assumption) | (with_reducible refine State.takeHead_keeps ?_) | (with_reducible refine State.putPort_keeps ?_) | (split) | (with_reducible refine Pr.keeps_mk ?_) | (refine Pr.keeps_of ?_ (by with_reducible assumption))
  | succ l ih =>
    unfold State.fillBody; try dsimp only
    repeat' first | (with_reducible assumption) | (with_reducible refine ih ?_) | (with_reducible refine State.takeHead_keeps ?_) | (with_reducible refine State.putPort_keeps ?_) | (split) | (with_reducible refine Pr.keeps_mk ?_) | (refine Pr.keeps_of ?_ (by with_reducible assumption))

theorem State.showPort_keeps {s₀ s : State} {oe v : Nat} (hk : Keeps s₀ s) : Keeps s₀ (State.showPort s oe v) := by
  unfold State.showPort; try dsimp only
  repeat' first | (with_reducible assumption) | (with_reducible refine State.putFld_keeps ?_) | (split)

theorem State.showEth_keeps {s₀ s : State} {oe : Nat} {up : Bool} (hk : Keeps s₀ s) : Keeps s₀ (State.showEth s oe up) := by
  unfold State.showEth; try dsimp only
  repeat' first | (with_reducible assumption) | (with_reducible refine State.putFld_keeps ?_) | (split)

theorem State.startTraining_keeps {s₀ s : State} {oe kind : Nat} (hk : Keeps s₀ s) : Keeps s₀ (State.startTraining s oe kind) := by
  unfold State.startTraining; try dsimp only
  repeat' first | (with_reducible assumption) | (with_reducible refine State.showPort_keeps ?_) | (with_reducible refine State.putPort_keeps ?_) | (split)

theorem State.clearCommands_keeps {s₀ s : State} {oe : Nat} (hk : Keeps s₀ s) : Keeps s₀ (State.clearCommands s oe) := by
  unfold State.clearCommands; try dsimp only
  repeat' first | (with_reducible assumption) | (with_reducible refine State.clrBit_keeps ?_) | (split)

theorem State.lostWith_keeps {s₀ s : State} {before : State} {oe : Nat} (hk : Keeps s₀ s) : Keeps s₀ (State.lostWith s before oe) := by
  unfold State.lostWith; try dsimp only
  repeat' first | (with_reducible assumption) | (with_reducible refine State.peerLost_keeps ?_) | (with_reducible refine foldl_keeps ?_ ?_; intro _ _ _) | (split)

theorem State.reroute_keeps {s₀ s : State} {l : List (Nat × List Byte)} (hk : Keeps s₀ s) : Keeps s₀ (State.reroute s l) := by
  unfold State.reroute; try dsimp only
  repeat' first | (with_reducible assumption) | (with_reducible refine State.putPort_keeps ?_) | (with_reducible refine foldl_keeps ?_ ?_; intro _ _ _) | (split)

theorem State.leaveUp_keeps {s₀ s : State} {oe : Nat} {command : Bool} (hk : Keeps s₀ s) : Keeps s₀ (State.leaveUp s oe command) := by
  unfold State.leaveUp; try dsimp only
  repeat' first | (with_reducible assumption) | (with_reducible refine State.putPort_keeps ?_) | (with_reducible refine State.showPort_keeps ?_) | (with_reducible refine State.showEth_keeps ?_) | (with_reducible refine State.count_keeps ?_) | (with_reducible refine State.reroute_keeps ?_) | (with_reducible refine State.alarmLnk_keeps ?_) | (with_reducible refine State.lostWith_keeps ?_) | (split)

theorem State.autoTrain_keeps {s₀ s : State} {oe : Nat} (hk : Keeps s₀ s) : Keeps s₀ (State.autoTrain s oe) := by
  unfold State.autoTrain; try dsimp only
  repeat' first | (with_reducible assumption) | (with_reducible refine State.startTraining_keeps ?_) | (split)

theorem State.commandTraining_keeps {s₀ s : State} {oe kind : Nat} (hk : Keeps s₀ s) : Keeps s₀ (State.commandTraining s oe kind) := by
  unfold State.commandTraining; try dsimp only
  repeat' first | (with_reducible assumption) | (with_reducible refine State.leaveUp_keeps ?_) | (with_reducible refine State.startTraining_keeps ?_) | (split)

theorem State.startChange_keeps {s₀ s : State} {oe : Nat} {half : Bool} (hk : Keeps s₀ s) : Keeps s₀ (State.startChange s oe half) := by
  unfold State.startChange; try dsimp only
  repeat' first | (with_reducible assumption) | (with_reducible refine State.commandTraining_keeps ?_) | (with_reducible refine State.putPort_keeps ?_) | (with_reducible refine Op.keeps_getD ?_ ?_) | (split)

theorem State.portCommand_keeps {s₀ s : State} {oe : Nat} {full retrain change : Bool} (hk : Keeps s₀ s) : Keeps s₀ (State.portCommand s oe full retrain change) := by
  unfold State.portCommand; try dsimp only
  repeat' first | (with_reducible assumption) | (with_reducible refine State.commandTraining_keeps ?_) | (with_reducible refine State.setBit_keeps ?_) | (with_reducible refine State.startChange_keeps ?_) | (with_reducible refine State.sendCtrl_keeps ?_) | (split)

theorem State.sendCtrlFlit_keeps {s₀ s : State} {oe : Nat} {c : Nat × List Byte} (hk : Keeps s₀ s) : Keeps s₀ (State.sendCtrlFlit s oe c) := by
  unfold State.sendCtrlFlit; try dsimp only
  repeat' first | (with_reducible assumption) | (with_reducible refine State.putPort_keeps ?_) | (with_reducible refine State.sendNew_keeps ?_) | (with_reducible refine State.tookFree_keeps ?_) | (with_reducible refine State.count_keeps ?_) | (with_reducible refine State.startChange_keeps ?_) | (split)

theorem State.sendStream_keeps {s₀ s : State} {oe v : Nat} (hk : Keeps s₀ s) : Keeps s₀ (State.sendStream s oe v) := by
  unfold State.sendStream; try dsimp only
  repeat' first | (with_reducible assumption) | (with_reducible refine Pr.keeps_fst (State.fillBody_keeps ?_)) | (with_reducible refine State.fillBody_keeps ?_) | (with_reducible refine State.putPort_keeps ?_) | (with_reducible refine State.sendNew_keeps ?_) | (with_reducible refine State.count_keeps ?_) | (split) | (with_reducible refine Pr.keeps_mk ?_) | (refine Pr.keeps_of ?_ (by with_reducible assumption))

theorem execFlitSlot_keeps {s₀ s : State} {die port : Nat} (hk : Keeps s₀ s) : Out.keeps s₀ (execFlitSlot die port s) := by
  unfold execFlitSlot; try dsimp only
  repeat' first | (with_reducible assumption) | (with_reducible refine State.putPort_keeps ?_) | (with_reducible refine State.count_keeps ?_) | (with_reducible refine State.sendCtrlFlit_keeps ?_) | (with_reducible refine State.sendStream_keeps ?_) | (with_reducible refine Out.keeps_next ?_) | (split)

theorem execReplayReqReceive_keeps {s₀ s : State} {die port seq : Nat} (hk : Keeps s₀ s) : Out.keeps s₀ (execReplayReqReceive die port seq s) := by
  unfold execReplayReqReceive; try dsimp only
  repeat' first | (with_reducible assumption) | (with_reducible refine State.putPort_keeps ?_) | (with_reducible refine Out.keeps_next ?_) | (split)

theorem execReplayReqRepeat_keeps {s₀ s : State} {die port : Nat} (hk : Keeps s₀ s) : Out.keeps s₀ (execReplayReqRepeat die port s) := by
  unfold execReplayReqRepeat; try dsimp only
  repeat' first | (with_reducible assumption) | (with_reducible refine State.putPort_keeps ?_) | (with_reducible refine Out.keeps_next ?_) | (split)

theorem execReplayTimeout_keeps {s₀ s : State} {die port : Nat} (hk : Keeps s₀ s) : Out.keeps s₀ (execReplayTimeout die port s) := by
  unfold execReplayTimeout; try dsimp only
  repeat' first | (with_reducible assumption) | (with_reducible refine State.leaveUp_keeps ?_) | (with_reducible refine State.putFld_keeps ?_) | (with_reducible refine State.autoTrain_keeps ?_) | (with_reducible refine State.putPort_keeps ?_) | (with_reducible refine Out.keeps_next ?_) | (split)

theorem State.trainingFailed_keeps {s₀ s : State} {oe code : Nat} (hk : Keeps s₀ s) : Keeps s₀ (State.trainingFailed s oe code) := by
  unfold State.trainingFailed; try dsimp only
  repeat' first | (with_reducible assumption) | (with_reducible refine State.clearCommands_keeps ?_) | (with_reducible refine State.putPort_keeps ?_) | (with_reducible refine State.putFld_keeps ?_) | (with_reducible refine State.showPort_keeps ?_) | (split)

theorem State.miswired_keeps {s₀ s : State} {oe : Nat} (hk : Keeps s₀ s) : Keeps s₀ (State.miswired s oe) := by
  unfold State.miswired; try dsimp only
  repeat' first | (with_reducible assumption) | (with_reducible refine State.trainingFailed_keeps ?_) | (with_reducible refine State.alarmLnk_keeps ?_) | (split)

theorem State.trained_keeps {s₀ s : State} {oe pkg peer : Nat} (hk : Keeps s₀ s) : Keeps s₀ (State.trained s oe pkg peer) := by
  unfold State.trained; try dsimp only
  repeat' first | (with_reducible assumption) | (with_reducible refine State.clearCommands_keeps ?_) | (with_reducible refine State.putPort_keeps ?_) | (with_reducible refine State.tookFree_keeps ?_) | (with_reducible refine State.setBoot_keeps ?_) | (with_reducible refine State.putFld_keeps ?_) | (with_reducible refine State.showPort_keeps ?_) | (with_reducible refine State.showEth_keeps ?_) | (split)

theorem execTrainingComplete_keeps {s₀ s : State} {die port pkg peer : Nat} (hk : Keeps s₀ s) : Out.keeps s₀ (execTrainingComplete die port pkg peer s) := by
  unfold execTrainingComplete; try dsimp only
  repeat' first | (with_reducible assumption) | (with_reducible refine State.trained_keeps ?_) | (with_reducible refine State.miswired_keeps ?_) | (with_reducible refine Out.keeps_next ?_) | (split)

theorem State.abortChange_keeps {s₀ s : State} {oe : Nat} (hk : Keeps s₀ s) : Keeps s₀ (State.abortChange s oe) := by
  unfold State.abortChange; try dsimp only
  repeat' first | (with_reducible assumption) | (with_reducible refine State.clearCommands_keeps ?_) | (with_reducible refine State.putPort_keeps ?_) | (with_reducible refine State.putFld_keeps ?_) | (with_reducible refine State.showPort_keeps ?_) | (with_reducible refine State.alarmLnk_keeps ?_) | (with_reducible refine State.autoTrain_keeps ?_) | (with_reducible refine Op.keeps_getD ?_ ?_) | (split)

theorem execTrainingFail_keeps {s₀ s : State} {die port cause : Nat} (hk : Keeps s₀ s) : Out.keeps s₀ (execTrainingFail die port cause s) := by
  unfold execTrainingFail; try dsimp only
  repeat' first | (with_reducible assumption) | (with_reducible refine State.miswired_keeps ?_) | (with_reducible refine State.abortChange_keeps ?_) | (with_reducible refine State.clearCommands_keeps ?_) | (with_reducible refine State.putPort_keeps ?_) | (with_reducible refine State.putFld_keeps ?_) | (with_reducible refine State.trainingFailed_keeps ?_) | (with_reducible refine Out.keeps_next ?_) | (split)

theorem execTrainingRetry_keeps {s₀ s : State} {die port : Nat} (hk : Keeps s₀ s) : Out.keeps s₀ (execTrainingRetry die port s) := by
  unfold execTrainingRetry; try dsimp only
  repeat' first | (with_reducible assumption) | (with_reducible refine State.startTraining_keeps ?_) | (with_reducible refine Out.keeps_next ?_) | (split)

theorem execPortDown_keeps {s₀ s : State} {die port : Nat} (hk : Keeps s₀ s) : Out.keeps s₀ (execPortDown die port s) := by
  unfold execPortDown; try dsimp only
  repeat' first | (with_reducible assumption) | (with_reducible refine State.leaveUp_keeps ?_) | (with_reducible refine State.autoTrain_keeps ?_) | (with_reducible refine State.abortChange_keeps ?_) | (with_reducible refine Out.keeps_next ?_) | (split)

theorem execPortChange_keeps {s₀ s : State} {die port value : Nat} (hk : Keeps s₀ s) : Out.keeps s₀ (execPortChange die port value s) := by
  unfold execPortChange; try dsimp only
  repeat' first | (with_reducible assumption) | (with_reducible refine State.startChange_keeps ?_) | (with_reducible refine Out.keeps_next ?_) | (split)

theorem execLaserLow_keeps {s₀ s : State} {connector : Nat} (hk : Keeps s₀ s) : Out.keeps s₀ (execLaserLow connector s) := by
  unfold execLaserLow; try dsimp only
  repeat' first | (with_reducible assumption) | (with_reducible refine State.putPort_keeps ?_) | (with_reducible refine State.leaveUp_keeps ?_) | (with_reducible refine State.alarmLnk_keeps ?_) | (with_reducible refine Out.keeps_next ?_) | (with_reducible refine foldl_keeps ?_ ?_; intro _ _ _) | (split)

theorem execLaserRestored_keeps {s₀ s : State} {connector : Nat} (hk : Keeps s₀ s) : Out.keeps s₀ (execLaserRestored connector s) := by
  unfold execLaserRestored; try dsimp only
  repeat' first | (with_reducible assumption) | (with_reducible refine State.putPort_keeps ?_) | (with_reducible refine State.startTraining_keeps ?_) | (with_reducible refine Out.keeps_next ?_) | (with_reducible refine foldl_keeps ?_ ?_; intro _ _ _) | (split)

theorem execTimeReqSend_keeps {s₀ s : State}  (hk : Keeps s₀ s) : Out.keeps s₀ (execTimeReqSend s) := by
  unfold execTimeReqSend; try dsimp only
  repeat' first | (with_reducible assumption) | (with_reducible refine State.toTick_keeps ?_) | (with_reducible refine State.sendCtrl_keeps ?_) | (with_reducible refine State.tookFree_keeps ?_) | (with_reducible refine Out.keeps_next ?_) | (split)

theorem State.timeReq_keeps {s₀ s : State} {oe t1 : Nat} (hk : Keeps s₀ s) : Keeps s₀ (State.timeReq s oe t1) := by
  unfold State.timeReq; try dsimp only
  repeat' first | (with_reducible assumption) | (with_reducible refine State.sendCtrl_keeps ?_) | (with_reducible refine State.tookFree_keeps ?_) | (split)

theorem execTimeReqReceive_keeps {s₀ s : State} {die port t1 : Nat} (hk : Keeps s₀ s) : Out.keeps s₀ (execTimeReqReceive die port t1 s) := by
  unfold execTimeReqReceive; try dsimp only
  repeat' first | (with_reducible assumption) | (with_reducible refine State.timeReq_keeps ?_) | (with_reducible refine Out.keeps_next ?_) | (split)

end Sys2Proof.Machine
end

