-- ==== Sys2Proof/Laws/KeepsReset.lean ====
section
/-! SUPPORT. What the operations of Machine/Reset.lean keep. -/
namespace Sys2Proof.Machine
set_option Elab.async false

theorem State.flashDurable_keeps {s₀ s : State}  (hk : Keeps s₀ s) : Keeps s₀ (State.flashDurable s) := by
  unfold State.flashDurable; try dsimp only
  repeat' first | (with_reducible assumption) | (with_reducible refine State.programAll_keeps ?_) | (with_reducible refine State.closeStripe_keeps ?_) | (with_reducible refine State.setFlash_keeps ?_) | (with_reducible refine State.putFld_keeps ?_) | (split)

theorem State.unwrite_keeps {s₀ s : State} {w : FlashWrite} (hk : Keeps s₀ s) : Keeps s₀ (State.unwrite s w) := by
  unfold State.unwrite; try dsimp only
  repeat' first | (with_reducible assumption) | (with_reducible refine State.setMem_keeps putBytes_wf ?_) | (with_reducible refine State.setMem_keeps Sparse.wf_filter ?_) | (with_reducible refine State.setMem_keeps Sparse.wf_set ?_) | (with_reducible refine State.setPoison_keeps ?_) | (with_reducible refine foldl_keeps ?_ ?_; intro _ _ _) | (split)

theorem State.flashLoss_keeps {s₀ s : State}  (hk : Keeps s₀ s) : Keeps s₀ (State.flashLoss s) := by
  unfold State.flashLoss; try dsimp only
  repeat' first | (with_reducible assumption) | (with_reducible refine State.unwrite_keeps ?_) | (with_reducible refine State.setFlash_keeps ?_) | (with_reducible refine State.tookFree_keeps ?_) | (with_reducible refine foldl_keeps ?_ ?_; intro _ _ _) | (split)

/-- A state with another's queue whose stores are canonical where the other's are. -/
theorem Keeps.of_parts {s₀ s t : State} (h : Keeps s₀ s) (hq : t.pending = s.pending) (hr : Sparse.wf s.regs = true → Sparse.wf t.regs = true)
    (hm : Sparse.wf s.mem = true → Sparse.wf t.mem = true) (hv : Sparse.wf s.sram = true → Sparse.wf t.sram = true) : Keeps s₀ t :=
  ⟨hq.trans h.queue, fun i => ⟨hr (h.inv i).1, hm (h.inv i).2.1, hv (h.inv i).2.2⟩⟩

/-- The reset values of the registers are in canonical form. -/
theorem resetRegs_wf : Sparse.wf resetRegs = true := by decide

/-- Every register's reset value, with the stored fields' own, is in canonical form. -/
theorem State.resetRegisters_wf (s : State) : Sparse.wf s.resetRegisters = true := by
  have go : ∀ (ms : List (Nat × Word)) (l : List (Nat × Word)) (f : Nat × Word → Word), Sparse.wf l = true →
      Sparse.wf (ms.foldl (fun l e => Sparse.set l e.1 (f e)) l) = true := by
    intro ms
    induction ms with
    | nil => intro l f h; exact h
    | cons e ms ih => intro l f h; exact ih _ f (Sparse.wf_set h)
  exact go storedMasks resetRegs _ resetRegs_wf

theorem State.dropVolatile_keeps {s₀ s : State} (h : Keeps s₀ s) : Keeps s₀ (State.dropVolatile s) :=
  Keeps.of_parts h rfl id Sparse.wf_filter (fun _ => rfl)

theorem State.closeIncident_keeps {s₀ s : State} {cause : Nat} (hk : Keeps s₀ s) : Keeps s₀ (State.closeIncident s cause) := by
  unfold State.closeIncident; try dsimp only
  repeat' first | (with_reducible assumption) | (with_reducible refine State.setLog_keeps ?_) | (with_reducible refine State.clrBit_keeps ?_) | (split)

theorem State.packageReset_keeps {s₀ s : State}  (hk : Keeps s₀ s) : Keeps s₀ (State.packageReset s) := by
  unfold State.packageReset; try dsimp only
  repeat' first | (with_reducible assumption) | (with_reducible refine State.closeIncident_keeps ?_) | (with_reducible refine State.dropVolatile_keeps ?_) | (with_reducible refine State.setRegs_keeps (fun _ => State.resetRegisters_wf _) ?_) | (with_reducible refine State.setLog_keeps ?_) | (with_reducible refine State.setFt_keeps ?_) | (with_reducible refine State.setBoot_keeps ?_) | (with_reducible refine State.setPwr_keeps ?_) | (with_reducible refine State.setFlash_keeps ?_) | (with_reducible refine State.putReg_keeps ?_) | (with_reducible refine State.putFld_keeps ?_) | (with_reducible refine State.tookFree_keeps ?_) | (split)

theorem State.flashStop_keeps {s₀ s : State}  (hk : Keeps s₀ s) : Keeps s₀ (State.flashStop s) := by
  unfold State.flashStop; try dsimp only
  repeat' first | (with_reducible assumption) | (with_reducible refine State.setFlash_keeps ?_) | (with_reducible refine State.putFld_keeps ?_) | (with_reducible refine State.tookFree_keeps ?_) | (split)

theorem State.finalRecord_keeps {s₀ s : State}  (hk : Keeps s₀ s) : Keeps s₀ (State.finalRecord s) := by
  unfold State.finalRecord; try dsimp only
  repeat' first | (with_reducible assumption) | (with_reducible refine State.logRecord_keeps ?_) | (with_reducible refine State.setLog_keeps ?_) | (split)

theorem State.powerLoss_keeps {s₀ s : State} {cause : Nat} (hk : Keeps s₀ s) : Keeps s₀ (State.powerLoss s cause) := by
  unfold State.powerLoss; try dsimp only
  repeat' first | (with_reducible assumption) | (with_reducible refine State.occurrence_keeps ?_) | (with_reducible refine State.tookFree_keeps ?_) | (with_reducible refine State.flashStop_keeps ?_) | (with_reducible refine State.setAdm_keeps ?_) | (with_reducible refine State.setEng_keeps ?_) | (with_reducible refine State.setExp_keeps ?_) | (with_reducible refine State.setCol_keeps ?_) | (with_reducible refine State.setUpd_keeps ?_) | (with_reducible refine State.setDraws_keeps ?_) | (with_reducible refine State.setProbe_keeps ?_) | (with_reducible refine State.setBoot_keeps ?_) | (with_reducible refine State.finalRecord_keeps ?_) | (with_reducible refine State.closeIncident_keeps ?_) | (with_reducible refine State.setPwr_keeps ?_) | (split)

end Sys2Proof.Machine
end

