-- ==== Sys2Proof/Laws/KeepsSextant.lean ====
section
/-! SUPPORT. What the operations of Machine/Sextant.lean keep. -/
namespace Sys2Proof.Machine
set_option Elab.async false

theorem State.runAt_keeps {s₀ s : State} {d k : Nat} (hk : Keeps s₀ s) : Keeps s₀ (State.runAt s d k) := by
  unfold State.runAt; try dsimp only
  repeat' first | (with_reducible assumption) | (with_reducible refine State.putFld_keeps ?_) | (with_reducible refine State.setPwr_keeps ?_) | (split)

theorem State.movePoint_keeps {s₀ s : State} {d k : Nat} (hk : Keeps s₀ s) : Keeps s₀ (State.movePoint s d k) := by
  unfold State.movePoint; try dsimp only
  repeat' first | (with_reducible assumption) | (with_reducible refine State.putFld_keeps ?_) | (with_reducible refine State.setPwr_keeps ?_) | (with_reducible refine State.runAt_keeps ?_) | (split)

theorem State.retarget_keeps {s₀ s : State} {d k : Nat} (hk : Keeps s₀ s) : Keeps s₀ (State.retarget s d k) := by
  unfold State.retarget; try dsimp only
  repeat' first | (with_reducible assumption) | (with_reducible refine State.setPwr_keeps ?_) | (with_reducible refine State.movePoint_keeps ?_) | (split)

theorem execOpChangeDone_keeps {s₀ s : State} {d : Nat} (hk : Keeps s₀ s) : Out.keeps s₀ (execOpChangeDone d s) := by
  unfold execOpChangeDone; try dsimp only
  repeat' first | (with_reducible assumption) | (with_reducible refine State.setPwr_keeps ?_) | (with_reducible refine State.runAt_keeps ?_) | (with_reducible refine State.putFld_keeps ?_) | (with_reducible refine State.movePoint_keeps ?_) | (with_reducible refine Out.keeps_next ?_) | (split)

theorem State.fastDie_keeps {s₀ s : State} {d : Nat} (hk : Keeps s₀ s) : Keeps s₀ (State.fastDie s d) := by
  unfold State.fastDie; try dsimp only
  repeat' first | (with_reducible assumption) | (with_reducible refine State.setPwr_keeps ?_) | (with_reducible refine State.movePoint_keeps ?_) | (with_reducible refine State.putFld_keeps ?_) | (split)

theorem execFastLimit_keeps {s₀ s : State}  (hk : Keeps s₀ s) : Out.keeps s₀ (execFastLimit s) := by
  unfold execFastLimit; try dsimp only
  repeat' first | (with_reducible assumption) | (with_reducible refine State.fastDie_keeps ?_) | (with_reducible refine State.setBit_keeps ?_) | (with_reducible refine State.alarmPwr_keeps ?_) | (with_reducible refine Out.keeps_next ?_) | (with_reducible refine foldl_keeps ?_ ?_; intro _ _ _) | (split)

theorem execModeTakesEffect_keeps {s₀ s : State}  (hk : Keeps s₀ s) : Out.keeps s₀ (execModeTakesEffect s) := by
  unfold execModeTakesEffect; try dsimp only
  repeat' first | (with_reducible assumption) | (with_reducible refine State.setPwr_keeps ?_) | (with_reducible refine State.putFld_keeps ?_) | (with_reducible refine Out.keeps_next ?_) | (split)

theorem State.capStep_keeps {s₀ s : State} {d : Nat} (hk : Keeps s₀ s) : Keeps s₀ (State.capStep s d) := by
  unfold State.capStep; try dsimp only
  repeat' first | (with_reducible assumption) | (with_reducible refine State.setPwr_keeps ?_) | (with_reducible refine Op.keeps_getD ?_ ?_) | (split)

theorem State.fixedStep_keeps {s₀ s : State} {held : Bool} {enough : Bool} (hk : Keeps s₀ s) : Keeps s₀ (State.fixedStep s held enough) := by
  unfold State.fixedStep; try dsimp only
  repeat' first | (with_reducible assumption) | (with_reducible refine State.setPwr_keeps ?_) | (with_reducible refine State.clrBit_keeps ?_) | (with_reducible refine State.setBit_keeps ?_) | (with_reducible refine State.alarmPwr_keeps ?_) | (with_reducible refine Op.keeps_getD ?_ ?_) | (split)

theorem State.setDie_keeps {s₀ s : State} {point d : Nat} (hk : Keeps s₀ s) : Keeps s₀ (State.setDie s point d) := by
  unfold State.setDie; try dsimp only
  repeat' first | (with_reducible assumption) | (with_reducible refine State.count_keeps ?_) | (with_reducible refine State.retarget_keeps ?_) | (with_reducible refine Op.keeps_getD ?_ ?_) | (split)

theorem State.meters_keeps {s₀ s : State} {inputW vin : Nat} {energies : List Nat} {allowW : Nat} {hist : List Nat} (hk : Keeps s₀ s) : Keeps s₀ (State.meters s inputW vin energies allowW hist) := by
  unfold State.meters; try dsimp only
  repeat' first | (with_reducible assumption) | (with_reducible refine State.putFld_keeps ?_) | (with_reducible refine State.count_keeps ?_) | (with_reducible refine State.setPwr_keeps ?_) | (with_reducible refine State.tookFree_keeps ?_) | (with_reducible refine Op.keeps_getD ?_ ?_) | (with_reducible refine foldl_keeps ?_ ?_; intro _ _ _) | (split)

theorem State.bandTime_keeps {s₀ s : State}  (hk : Keeps s₀ s) : Keeps s₀ (State.bandTime s) := by
  unfold State.bandTime; try dsimp only
  repeat' first | (with_reducible assumption) | (with_reducible refine State.toTick_keeps ?_) | (with_reducible refine State.setPwr_keeps ?_) | (split)

theorem State.holdStep_keeps {s₀ s : State} {allowW : Nat} {rail9 : Frac} (hk : Keeps s₀ s) : Keeps s₀ (State.holdStep s allowW rail9) := by
  unfold State.holdStep; try dsimp only
  repeat' first | (with_reducible assumption) | (with_reducible refine State.putFld_keeps ?_) | (with_reducible refine State.count_keeps ?_) | (split)

theorem execSextantBand_keeps {s₀ s : State} {inputW vin : Nat} {energies : List Nat} (hk : Keeps s₀ s) : Out.keeps s₀ (execSextantBand inputW vin energies s) := by
  unfold execSextantBand; try dsimp only
  repeat' first | (with_reducible assumption) | (with_reducible refine State.bandTime_keeps ?_) | (with_reducible refine State.meters_keeps ?_) | (with_reducible refine State.setPwr_keeps ?_) | (with_reducible refine State.count_keeps ?_) | (with_reducible refine State.clrBit_keeps ?_) | (with_reducible refine State.holdStep_keeps ?_) | (with_reducible refine State.fixedStep_keeps ?_) | (with_reducible refine State.capStep_keeps ?_) | (with_reducible refine State.setDie_keeps ?_) | (with_reducible refine Out.keeps_next ?_) | (with_reducible refine foldl_keeps ?_ ?_; intro _ _ _) | (split)

theorem State.showTemp_keeps {s₀ s : State} {source temp level : Nat} (hk : Keeps s₀ s) : Keeps s₀ (State.showTemp s source temp level) := by
  unfold State.showTemp; try dsimp only
  repeat' first | (with_reducible assumption) | (with_reducible refine State.putFld_keeps ?_) | (split)

theorem State.reach_keeps {s₀ s : State} {source temp before level : Nat} (hk : Keeps s₀ s) : Keeps s₀ (State.reach s source temp before level) := by
  unfold State.reach; try dsimp only
  repeat' first | (with_reducible assumption) | (with_reducible refine State.putReg_keeps ?_) | (with_reducible refine State.alarmPwr_keeps ?_) | (with_reducible refine State.setBit_keeps ?_) | (with_reducible refine State.setPwr_keeps ?_) | (with_reducible refine State.keepEvent_keeps ?_) | (with_reducible refine State.setBoot_keeps ?_) | (with_reducible refine State.powerLoss_keeps ?_) | (split)

theorem execThermalSample_keeps {s₀ s : State} {source temp : Nat} (hk : Keeps s₀ s) : Out.keeps s₀ (execThermalSample source temp s) := by
  unfold execThermalSample; try dsimp only
  repeat' first | (with_reducible assumption) | (with_reducible refine State.setPwr_keeps ?_) | (with_reducible refine State.showTemp_keeps ?_) | (with_reducible refine State.reach_keeps ?_) | (with_reducible refine Out.keeps_next ?_) | (split)

theorem execEmergencyEnd_keeps {s₀ s : State}  (hk : Keeps s₀ s) : Out.keeps s₀ (execEmergencyEnd s) := by
  unfold execEmergencyEnd; try dsimp only
  repeat' first | (with_reducible assumption) | (with_reducible refine State.clrBit_keeps ?_) | (with_reducible refine Out.keeps_next ?_) | (split)

theorem State.learnOne_keeps {s₀ s : State} {p : PartDesc} {k d : Nat} (hk : Keeps s₀ s) : Keeps s₀ (State.learnOne s p k d) := by
  unfold State.learnOne; try dsimp only
  repeat' first | (with_reducible assumption) | (with_reducible refine State.tookFree_keeps ?_) | (with_reducible refine State.setPwr_keeps ?_) | (split)

theorem State.learn_keeps {s₀ s : State}  (hk : Keeps s₀ s) : Keeps s₀ (State.learn s) := by
  unfold State.learn; try dsimp only
  repeat' first | (with_reducible assumption) | (with_reducible refine State.learnOne_keeps ?_) | (with_reducible refine Op.keeps_getD ?_ ?_) | (with_reducible refine foldl_keeps ?_ ?_; intro _ _ _) | (split)

theorem State.belowPromise_keeps {s₀ s : State}  (hk : Keeps s₀ s) : Keeps s₀ (State.belowPromise s) := by
  unfold State.belowPromise; try dsimp only
  repeat' first | (with_reducible assumption) | (with_reducible refine State.count_keeps ?_) | (with_reducible refine State.alarmPwr_keeps ?_) | (split)

theorem State.pwrWatch_keeps {s₀ s : State}  (hk : Keeps s₀ s) : Keeps s₀ (State.pwrWatch s) := by
  unfold State.pwrWatch; try dsimp only
  repeat' first | (with_reducible assumption) | (with_reducible refine State.learn_keeps ?_) | (with_reducible refine State.belowPromise_keeps ?_) | (with_reducible refine State.setPwr_keeps ?_) | (split)

end Sys2Proof.Machine
end

