-- ==== Sys2Proof/Laws/KeepsChart.lean ====
section
/-! SUPPORT. What the operations of Machine/Chart.lean keep. -/
namespace Sys2Proof.Machine
set_option Elab.async false

theorem State.applyGroup_keeps {s₀ s : State} {c : Chart} {g : Nat} (hk : Keeps s₀ s) : Keeps s₀ (State.applyGroup s c g) := by
  unfold State.applyGroup; try dsimp only
  repeat' first | (with_reducible assumption) | (with_reducible refine State.putReg_keeps ?_) | (with_reducible refine State.putGroup_keeps ?_) | (with_reducible refine State.showGroup_keeps ?_) | (split)

theorem State.applyPart_keeps {s₀ s : State} {d : PartDesc} (hk : Keeps s₀ s) : Keeps s₀ (State.applyPart s d) := by
  unfold State.applyPart; try dsimp only
  repeat' first | (with_reducible assumption) | (with_reducible refine State.putFld_keeps ?_) | (with_reducible refine State.tierLevels_keeps ?_) | (with_reducible refine Op.keeps_getD ?_ ?_) | (with_reducible refine foldl_keeps ?_ ?_; intro _ _ _) | (split)

theorem State.applyPort_keeps {s₀ s : State} {c : Chart} {oe : Nat} (hk : Keeps s₀ s) : Keeps s₀ (State.applyPort s c oe) := by
  unfold State.applyPort; try dsimp only
  repeat' first | (with_reducible assumption) | (with_reducible refine State.putPort_keeps ?_) | (with_reducible refine State.putFld_keeps ?_) | (with_reducible refine State.setBit_keeps ?_) | (split)

theorem State.applyChart_keeps {s₀ s : State} {c : Chart} {source fail : Nat} (hk : Keeps s₀ s) : Keeps s₀ (State.applyChart s c source fail) := by
  unfold State.applyChart; try dsimp only
  repeat' first | (with_reducible assumption) | (with_reducible refine State.setBoot_keeps ?_) | (with_reducible refine State.putFld_keeps ?_) | (with_reducible refine State.applyPort_keeps ?_) | (with_reducible refine State.setBit_keeps ?_) | (with_reducible refine State.applyGroup_keeps ?_) | (with_reducible refine State.applyPart_keeps ?_) | (with_reducible refine State.setTiers_keeps ?_) | (with_reducible refine State.putReg_keeps ?_) | (with_reducible refine State.setPwr_keeps ?_) | (with_reducible refine foldl_keeps ?_ ?_; intro _ _ _) | (split)

end Sys2Proof.Machine
end

