-- ==== Sys2Proof/Laws/KeepsHbm.lean ====
section
/-! SUPPORT. What the operations of Machine/Hbm.lean keep. -/
namespace Sys2Proof.Machine
set_option Elab.async false

theorem State.putStack_keeps {s₀ s : State} {n : Nat} {x : HbmStack} (hk : Keeps s₀ s) : Keeps s₀ (State.putStack s n x) := by
  unfold State.putStack; try dsimp only
  repeat' first | (with_reducible assumption) | (with_reducible refine State.setHbm_keeps ?_) | (split)

theorem execHbmBandStart_keeps {s₀ s : State} {n : Nat} (hk : Keeps s₀ s) : Out.keeps s₀ (execHbmBandStart n s) := by
  unfold execHbmBandStart; try dsimp only
  repeat' first | (with_reducible assumption) | (with_reducible refine State.putStack_keeps ?_) | (with_reducible refine Out.keeps_next ?_) | (split)

theorem execHbmQueueAdmit_keeps {s₀ s : State} {n cls : Nat} {write : Bool} {addr bytes : Nat} (hk : Keeps s₀ s) : Out.keeps s₀ (execHbmQueueAdmit n cls write addr bytes s) := by
  unfold execHbmQueueAdmit; try dsimp only
  repeat' first | (with_reducible assumption) | (with_reducible refine State.putStack_keeps ?_) | (with_reducible refine State.count_keeps ?_) | (with_reducible refine State.tookFree_keeps ?_) | (with_reducible refine Out.keeps_next ?_) | (split)

theorem execHbmRefresh_keeps {s₀ s : State} {n temp : Nat} (hk : Keeps s₀ s) : Out.keeps s₀ (execHbmRefresh n temp s) := by
  unfold execHbmRefresh; try dsimp only
  repeat' first | (with_reducible assumption) | (with_reducible refine State.putFld_keeps ?_) | (with_reducible refine Out.keeps_next ?_) | (split)

theorem State.weakRow_keeps {s₀ s : State} {n row : Nat} (hk : Keeps s₀ s) : Keeps s₀ (State.weakRow s n row) := by
  unfold State.weakRow; try dsimp only
  repeat' first | (with_reducible assumption) | (with_reducible refine State.alarmHbm_keeps ?_) | (with_reducible refine State.putStack_keeps ?_) | (with_reducible refine State.putFld_keeps ?_) | (split)

theorem State.hbmCorrected_keeps {s₀ s : State} {n off kind die : Nat} (hk : Keeps s₀ s) : Keeps s₀ (State.hbmCorrected s n off kind die) := by
  unfold State.hbmCorrected; try dsimp only
  repeat' first | (with_reducible assumption) | (with_reducible refine State.count_keeps ?_) | (with_reducible refine State.putReg_keeps ?_) | (with_reducible refine State.blockEvent_keeps ?_) | (with_reducible refine State.putStack_keeps ?_) | (with_reducible refine State.weakRow_keeps ?_) | (with_reducible refine Op.keeps_getD ?_ ?_) | (split)

theorem State.hbmUncorrectable_keeps {s₀ s : State} {n off die : Nat} (hk : Keeps s₀ s) : Keeps s₀ (State.hbmUncorrectable s n off die) := by
  unfold State.hbmUncorrectable; try dsimp only
  repeat' first | (with_reducible assumption) | (with_reducible refine State.setPoison_keeps ?_) | (with_reducible refine State.count_keeps ?_) | (with_reducible refine State.putReg_keeps ?_) | (with_reducible refine State.alarmHbm_keeps ?_) | (with_reducible refine State.blockEvent_keeps ?_) | (with_reducible refine State.weakRow_keeps ?_) | (split)

theorem State.hbmError_keeps {s₀ s : State} {n off kind die : Nat} {ecc : Ecc} (hk : Keeps s₀ s) : Keeps s₀ (State.hbmError s n off kind die ecc) := by
  unfold State.hbmError; try dsimp only
  repeat' first | (with_reducible assumption) | (with_reducible refine State.hbmCorrected_keeps ?_) | (with_reducible refine State.hbmUncorrectable_keeps ?_) | (split)

theorem execHbmScrub_keeps {s₀ s : State} {n off : Nat} {ecc : Ecc} (hk : Keeps s₀ s) : Out.keeps s₀ (execHbmScrub n off ecc s) := by
  unfold execHbmScrub; try dsimp only
  repeat' first | (with_reducible assumption) | (with_reducible refine State.putStack_keeps ?_) | (with_reducible refine State.count_keeps ?_) | (with_reducible refine State.putFld_keeps ?_) | (with_reducible refine State.hbmError_keeps ?_) | (with_reducible refine Out.keeps_next ?_) | (split)

end Sys2Proof.Machine
end

