-- ==== Sys2Proof/Laws/KeepsBoot.lean ====
section
/-! SUPPORT. What the operations of Machine/Boot.lean keep. -/
namespace Sys2Proof.Machine
set_option Elab.async false

theorem State.setDomains_keeps {s₀ s : State} {mask : Nat} (hk : Keeps s₀ s) : Keeps s₀ (State.setDomains s mask) := by
  unfold State.setDomains; try dsimp only
  repeat' first | (with_reducible assumption) | (with_reducible refine State.putReg_keeps ?_) | (with_reducible refine State.putFld_keeps ?_) | (split)

theorem State.switchOn_keeps {s₀ s : State} {l : List Nat} (hk : Keeps s₀ s) : Keeps s₀ (State.switchOn s l) := by
  unfold State.switchOn; try dsimp only
  repeat' first | (with_reducible assumption) | (with_reducible refine State.setBoot_keeps ?_) | (with_reducible refine State.setDomains_keeps ?_) | (split)

theorem State.trainAll_keeps {s₀ s : State} {keys : List Nat} (hk : Keeps s₀ s) : Pr.keeps s₀ (State.trainAll s keys) := by
  unfold State.trainAll; try dsimp only
  repeat' first | (with_reducible assumption) | (with_reducible refine State.setBoot_keeps ?_) | (with_reducible refine foldl_keeps ?_ ?_; intro _ _ _) | (split) | (with_reducible refine Pr.keeps_mk ?_) | (refine Pr.keeps_of ?_ (by with_reducible assumption))

theorem State.energize_keeps {s₀ s : State} {attempt : Nat} (hk : Keeps s₀ s) : Keeps s₀ (State.energize s attempt) := by
  unfold State.energize; try dsimp only
  repeat' first | (with_reducible assumption) | (with_reducible refine State.packageReset_keeps ?_) | (with_reducible refine State.setBoot_keeps ?_) | (with_reducible refine State.setDomains_keeps ?_) | (split)

theorem State.goDark_keeps {s₀ s : State} {keep : List Nat} (hk : Keeps s₀ s) : Keeps s₀ (State.goDark s keep) := by
  unfold State.goDark; try dsimp only
  repeat' first | (with_reducible assumption) | (with_reducible refine State.flashLoss_keeps ?_) | (with_reducible refine State.dropVolatile_keeps ?_) | (with_reducible refine State.setBoot_keeps ?_) | (with_reducible refine State.setPwr_keeps ?_) | (with_reducible refine State.setDomains_keeps ?_) | (split)

theorem execPowerDown_keeps {s₀ s : State}  (hk : Keeps s₀ s) : Out.keeps s₀ (execPowerDown s) := by
  unfold execPowerDown; try dsimp only
  repeat' first | (with_reducible assumption) | (with_reducible refine State.goDark_keeps ?_) | (with_reducible refine Out.keeps_next ?_) | (split)

theorem execInputBelowDropout_keeps {s₀ s : State}  (hk : Keeps s₀ s) : Out.keeps s₀ (execInputBelowDropout s) := by
  unfold execInputBelowDropout; try dsimp only
  repeat' first | (with_reducible assumption) | (with_reducible refine State.goDark_keeps ?_) | (with_reducible refine State.setDomains_keeps ?_) | (with_reducible refine State.setBoot_keeps ?_) | (with_reducible refine Out.keeps_next ?_) | (split)

theorem State.railRecord_keeps {s₀ s : State} {rail when' : Nat} (hk : Keeps s₀ s) : Keeps s₀ (State.railRecord s rail when') := by
  unfold State.railRecord; try dsimp only
  repeat' first | (with_reducible assumption) | (with_reducible refine State.setLog_keeps ?_) | (with_reducible refine State.keepEvent_keeps ?_) | (with_reducible refine State.putReg_keeps ?_) | (with_reducible refine State.setBoot_keeps ?_) | (split)

theorem State.showFailure_keeps {s₀ s : State} {die : Option Nat} {cause : Nat} (hk : Keeps s₀ s) : Keeps s₀ (State.showFailure s die cause) := by
  unfold State.showFailure; try dsimp only
  repeat' first | (with_reducible assumption) | (with_reducible refine State.putFld_keeps ?_) | (with_reducible refine State.setBit_keeps ?_) | (split)

theorem State.powerUpFailed_keeps {s₀ s : State} {rail : Nat} (hk : Keeps s₀ s) : Keeps s₀ (State.powerUpFailed s rail) := by
  unfold State.powerUpFailed; try dsimp only
  repeat' first | (with_reducible assumption) | (with_reducible refine State.railRecord_keeps ?_) | (with_reducible refine State.showFailure_keeps ?_) | (with_reducible refine State.goDark_keeps ?_) | (with_reducible refine State.setBoot_keeps ?_) | (split)

theorem execPowerUp_keeps {s₀ s : State} {fail : Option Nat} (hk : Keeps s₀ s) : Out.keeps s₀ (execPowerUp fail s) := by
  unfold execPowerUp; try dsimp only
  repeat' first | (with_reducible assumption) | (with_reducible refine State.setBoot_keeps ?_) | (with_reducible refine State.energize_keeps ?_) | (with_reducible refine State.powerUpFailed_keeps ?_) | (with_reducible refine Out.keeps_next ?_) | (split)

theorem execPowerUpRetry_keeps {s₀ s : State}  (hk : Keeps s₀ s) : Out.keeps s₀ (execPowerUpRetry s) := by
  unfold execPowerUpRetry; try dsimp only
  repeat' first | (with_reducible assumption) | (with_reducible refine State.energize_keeps ?_) | (with_reducible refine Out.keeps_next ?_) | (split)

theorem execPowerRestore_keeps {s₀ s : State}  (hk : Keeps s₀ s) : Out.keeps s₀ (execPowerRestore s) := by
  unfold execPowerRestore; try dsimp only
  repeat' first | (with_reducible assumption) | (with_reducible refine State.setBoot_keeps ?_) | (with_reducible refine State.energize_keeps ?_) | (with_reducible refine Out.keeps_next ?_) | (split)

theorem execRefclkRestore_keeps {s₀ s : State}  (hk : Keeps s₀ s) : Out.keeps s₀ (execRefclkRestore s) := by
  unfold execRefclkRestore; try dsimp only
  repeat' first | (with_reducible assumption) | (with_reducible refine State.setBoot_keeps ?_) | (with_reducible refine State.energize_keeps ?_) | (with_reducible refine Out.keeps_next ?_) | (split)

theorem execRailFault_keeps {s₀ s : State} {rail : Nat} (hk : Keeps s₀ s) : Out.keeps s₀ (execRailFault rail s) := by
  unfold execRailFault; try dsimp only
  repeat' first | (with_reducible assumption) | (with_reducible refine State.powerUpFailed_keeps ?_) | (with_reducible refine State.railRecord_keeps ?_) | (with_reducible refine Out.keeps_next ?_) | (split)

theorem execRailOutOfWindow_keeps {s₀ s : State} {rail : Nat} (hk : Keeps s₀ s) : Out.keeps s₀ (execRailOutOfWindow rail s) := by
  unfold execRailOutOfWindow; try dsimp only
  repeat' first | (with_reducible assumption) | (with_reducible refine State.railRecord_keeps ?_) | (with_reducible refine State.powerLoss_keeps ?_) | (with_reducible refine Out.keeps_next ?_) | (split)

theorem execPowerFailWarning_keeps {s₀ s : State}  (hk : Keeps s₀ s) : Out.keeps s₀ (execPowerFailWarning s) := by
  unfold execPowerFailWarning; try dsimp only
  repeat' first | (with_reducible assumption) | (with_reducible refine State.powerLoss_keeps ?_) | (with_reducible refine State.setBoot_keeps ?_) | (with_reducible refine Out.keeps_next ?_) | (split)

theorem execOverVoltage_keeps {s₀ s : State}  (hk : Keeps s₀ s) : Out.keeps s₀ (execOverVoltage s) := by
  unfold execOverVoltage; try dsimp only
  repeat' first | (with_reducible assumption) | (with_reducible refine State.powerLoss_keeps ?_) | (with_reducible refine State.setBoot_keeps ?_) | (with_reducible refine Out.keeps_next ?_) | (split)

theorem State.keeperRecord_keeps {s₀ s : State} {code : Nat} {args : List Nat} (hk : Keeps s₀ s) : Keeps s₀ (State.keeperRecord s code args) := by
  unfold State.keeperRecord; try dsimp only
  repeat' first | (with_reducible assumption) | (with_reducible refine State.keepEvent_keeps ?_) | (split)

theorem execRefclkLoss_keeps {s₀ s : State}  (hk : Keeps s₀ s) : Out.keeps s₀ (execRefclkLoss s) := by
  unfold execRefclkLoss; try dsimp only
  repeat' first | (with_reducible assumption) | (with_reducible refine State.setBoot_keeps ?_) | (with_reducible refine State.showFailure_keeps ?_) | (with_reducible refine State.keeperRecord_keeps ?_) | (with_reducible refine State.powerLoss_keeps ?_) | (with_reducible refine Out.keeps_next ?_) | (split)

theorem State.warmReset_keeps {s₀ s : State} {cause : Nat} (hk : Keeps s₀ s) : Keeps s₀ (State.warmReset s cause) := by
  unfold State.warmReset; try dsimp only
  repeat' first | (with_reducible assumption) | (with_reducible refine State.flashDurable_keeps ?_) | (with_reducible refine State.setBoot_keeps ?_) | (with_reducible refine State.packageReset_keeps ?_) | (with_reducible refine State.setDomains_keeps ?_) | (split)

theorem execSysReset_keeps {s₀ s : State} {ms : Nat} (hk : Keeps s₀ s) : Out.keeps s₀ (execSysReset ms s) := by
  unfold execSysReset; try dsimp only
  repeat' first | (with_reducible assumption) | (with_reducible refine State.warmReset_keeps ?_) | (with_reducible refine Out.keeps_next ?_) | (split)

theorem State.bootFailed_keeps {s₀ s : State} {die cause : Nat} (hk : Keeps s₀ s) : Keeps s₀ (State.bootFailed s die cause) := by
  unfold State.bootFailed; try dsimp only
  repeat' first | (with_reducible assumption) | (with_reducible refine State.showFailure_keeps ?_) | (with_reducible refine State.keeperRecord_keeps ?_) | (with_reducible refine State.setDomains_keeps ?_) | (with_reducible refine State.setBoot_keeps ?_) | (with_reducible refine State.setPwr_keeps ?_) | (split)

theorem State.stageDone_keeps {s₀ s : State} {n ms : Nat} {full : Bool} (hk : Keeps s₀ s) : Keeps s₀ (State.stageDone s n ms full) := by
  unfold State.stageDone; try dsimp only
  repeat' first | (with_reducible assumption) | (with_reducible refine State.putFld_keeps ?_) | (with_reducible refine State.setBit_keeps ?_) | (with_reducible refine State.setBoot_keeps ?_) | (with_reducible refine State.keeperRecord_keeps ?_) | (split)

theorem State.eraseSecrets_keeps {s₀ s : State}  (hk : Keeps s₀ s) : Keeps s₀ (State.eraseSecrets s) := by
  unfold State.eraseSecrets; try dsimp only
  repeat' first | (with_reducible assumption) | (with_reducible refine State.clrBit_keeps ?_) | (with_reducible refine State.setBoot_keeps ?_) | (with_reducible refine State.setMem_keeps putBytes_wf ?_) | (with_reducible refine State.setMem_keeps Sparse.wf_filter ?_) | (with_reducible refine State.setMem_keeps Sparse.wf_set ?_) | (with_reducible refine State.setPoison_keeps ?_) | (with_reducible refine State.setTiers_keeps ?_) | (with_reducible refine State.setFlash_keeps ?_) | (with_reducible refine State.setBit_keeps ?_) | (with_reducible refine State.putFld_keeps ?_) | (split)

theorem State.eraseDone_keeps {s₀ s : State}  (hk : Keeps s₀ s) : Keeps s₀ (State.eraseDone s) := by
  unfold State.eraseDone; try dsimp only
  repeat' first | (with_reducible assumption) | (with_reducible refine State.eraseSecrets_keeps ?_) | (with_reducible refine State.keeperRecord_keeps ?_) | (with_reducible refine State.clrBit_keeps ?_) | (with_reducible refine State.setBit_keeps ?_) | (split)

theorem State.loadVtable_keeps {s₀ s : State} {d : Nat} (hk : Keeps s₀ s) : Keeps s₀ (State.loadVtable s d) := by
  unfold State.loadVtable; try dsimp only
  repeat' first | (with_reducible assumption) | (with_reducible refine State.putReg_keeps ?_) | (with_reducible refine State.setBoot_keeps ?_) | (with_reducible refine State.setBit_keeps ?_) | (with_reducible refine State.alarmPwr_keeps ?_) | (with_reducible refine foldl_keeps ?_ ?_; intro _ _ _) | (split)

theorem State.mapEngine_keeps {s₀ s : State} {d i phys : Nat} (hk : Keeps s₀ s) : Keeps s₀ (State.mapEngine s d i phys) := by
  unfold State.mapEngine; try dsimp only
  repeat' first | (with_reducible assumption) | (with_reducible refine State.putFld_keeps ?_) | (split)

theorem State.loadSpares_keeps {s₀ s : State} {ok : Bool} {d : Nat} (hk : Keeps s₀ s) : Keeps s₀ (State.loadSpares s ok d) := by
  unfold State.loadSpares; try dsimp only
  repeat' first | (with_reducible assumption) | (with_reducible refine State.setBoot_keeps ?_) | (with_reducible refine State.setFt_keeps ?_) | (with_reducible refine State.keeperRecord_keeps ?_) | (with_reducible refine State.mapEngine_keeps ?_) | (with_reducible refine State.putFld_keeps ?_) | (with_reducible refine foldl_keeps ?_ ?_; intro _ _ _) | (split)

theorem State.previousAlarms_keeps {s₀ s : State}  (hk : Keeps s₀ s) : Keeps s₀ (State.previousAlarms s) := by
  unfold State.previousAlarms; try dsimp only
  repeat' first | (with_reducible assumption) | (with_reducible refine State.alarmPwr_keeps ?_) | (split)

theorem State.dropSettings_keeps {s₀ s : State}  (hk : Keeps s₀ s) : Keeps s₀ (State.dropSettings s) := by
  unfold State.dropSettings; try dsimp only
  repeat' first | (with_reducible assumption) | (with_reducible refine State.setBoot_keeps ?_) | (split)

theorem execStageKeeper_keeps {s₀ s : State} {copies spareOk ms : Nat} (hk : Keeps s₀ s) : Out.keeps s₀ (execStageKeeper copies spareOk ms s) := by
  unfold execStageKeeper; try dsimp only
  repeat' first | (with_reducible assumption) | (with_reducible refine State.setLog_keeps ?_) | (with_reducible refine State.eraseDone_keeps ?_) | (with_reducible refine State.logRecord_keeps ?_) | (with_reducible refine State.setBoot_keeps ?_) | (with_reducible refine State.dropSettings_keeps ?_) | (with_reducible refine State.previousAlarms_keeps ?_) | (with_reducible refine State.loadVtable_keeps ?_) | (with_reducible refine State.loadSpares_keeps ?_) | (with_reducible refine State.putFld_keeps ?_) | (with_reducible refine State.countUnits_keeps ?_) | (with_reducible refine State.stageDone_keeps ?_) | (with_reducible refine Out.keeps_next ?_) | (with_reducible refine foldl_keeps ?_ ?_; intro _ _ _) | (split)

theorem State.chartDomains_keeps {s₀ s : State}  (hk : Keeps s₀ s) : Keeps s₀ (State.chartDomains s) := by
  unfold State.chartDomains; try dsimp only
  repeat' first | (with_reducible assumption) | (with_reducible refine State.setDomains_keeps ?_) | (split)

theorem execStageChart_keeps {s₀ s : State} {ms : Nat} (hk : Keeps s₀ s) : Out.keeps s₀ (execStageChart ms s) := by
  unfold execStageChart; try dsimp only
  repeat' first | (with_reducible assumption) | (with_reducible refine State.putFld_keeps ?_) | (with_reducible refine State.applyChart_keeps ?_) | (with_reducible refine State.alarmCht_keeps ?_) | (with_reducible refine State.chartDomains_keeps ?_) | (with_reducible refine State.stageDone_keeps ?_) | (with_reducible refine Out.keeps_next ?_) | (split)

theorem State.startDie_keeps {s₀ s : State} {d : Nat} (hk : Keeps s₀ s) : Keeps s₀ (State.startDie s d) := by
  unfold State.startDie; try dsimp only
  repeat' first | (with_reducible assumption) | (with_reducible refine State.putFld_keeps ?_) | (split)

theorem execStageClocksAndNetwork_keeps {s₀ s : State} {fail : Option Nat} {full : Bool} {ms : Nat} (hk : Keeps s₀ s) : Out.keeps s₀ (execStageClocksAndNetwork fail full ms s) := by
  unfold execStageClocksAndNetwork; try dsimp only
  repeat' first | (with_reducible assumption) | (with_reducible refine State.bootFailed_keeps ?_) | (with_reducible refine Pr.keeps_fst (State.trainAll_keeps ?_)) | (with_reducible refine State.trainAll_keeps ?_) | (with_reducible refine State.startDie_keeps ?_) | (with_reducible refine State.setPwr_keeps ?_) | (with_reducible refine State.stageDone_keeps ?_) | (with_reducible refine Out.keeps_next ?_) | (with_reducible refine foldl_keeps ?_ ?_; intro _ _ _) | (split) | (with_reducible refine Pr.keeps_mk ?_) | (refine Pr.keeps_of ?_ (by with_reducible assumption))

theorem State.repairRow_keeps {s₀ s : State} {n row : Nat} (hk : Keeps s₀ s) : Keeps s₀ (State.repairRow s n row) := by
  unfold State.repairRow; try dsimp only
  repeat' first | (with_reducible assumption) | (with_reducible refine State.putStack_keeps ?_) | (with_reducible refine State.putFld_keeps ?_) | (with_reducible refine State.tookFree_keeps ?_) | (with_reducible refine State.setTiers_keeps ?_) | (with_reducible refine State.alarmHbm_keeps ?_) | (with_reducible refine foldl_keeps ?_ ?_; intro _ _ _) | (split)

theorem State.repairRows_keeps {s₀ s : State} {n : Nat} (hk : Keeps s₀ s) : Keeps s₀ (State.repairRows s n) := by
  unfold State.repairRows; try dsimp only
  repeat' first | (with_reducible assumption) | (with_reducible refine State.repairRow_keeps ?_) | (with_reducible refine State.putFld_keeps ?_) | (with_reducible refine foldl_keeps ?_ ?_; intro _ _ _) | (split)

theorem State.trainDram_keeps {s₀ s : State} {dimm gib mts : Nat} (hk : Keeps s₀ s) : Keeps s₀ (State.trainDram s dimm gib mts) := by
  unfold State.trainDram; try dsimp only
  repeat' first | (with_reducible assumption) | (with_reducible refine State.putReg_keeps ?_) | (split)

theorem State.lossRecord_keeps {s₀ s : State}  (hk : Keeps s₀ s) : Keeps s₀ (State.lossRecord s) := by
  unfold State.lossRecord; try dsimp only
  repeat' first | (with_reducible assumption) | (with_reducible refine State.putReg_keeps ?_) | (with_reducible refine State.setFlash_keeps ?_) | (with_reducible refine State.alarmDft_keeps ?_) | (with_reducible refine State.tookFree_keeps ?_) | (split)

theorem State.loadFlash_keeps {s₀ s : State}  (hk : Keeps s₀ s) : Keeps s₀ (State.loadFlash s) := by
  unfold State.loadFlash; try dsimp only
  repeat' first | (with_reducible assumption) | (with_reducible refine State.putFld_keeps ?_) | (with_reducible refine State.govern_keeps ?_) | (with_reducible refine State.lossRecord_keeps ?_) | (with_reducible refine State.tookFree_keeps ?_) | (with_reducible refine State.alarmFts_keeps ?_) | (with_reducible refine State.event_keeps ?_) | (split)

theorem execStageMemories_keeps {s₀ s : State} {hbmFail : Option Nat} {dimm dimmGiB dimmMts : Nat} {full : Bool} {ms : Nat} (hk : Keeps s₀ s) : Out.keeps s₀ (execStageMemories hbmFail dimm dimmGiB dimmMts full ms s) := by
  unfold execStageMemories; try dsimp only
  repeat' first | (with_reducible assumption) | (with_reducible refine State.repairRows_keeps ?_) | (with_reducible refine State.putFld_keeps ?_) | (with_reducible refine State.bootFailed_keeps ?_) | (with_reducible refine Pr.keeps_fst (State.trainAll_keeps ?_)) | (with_reducible refine State.trainAll_keeps ?_) | (with_reducible refine State.trainDram_keeps ?_) | (with_reducible refine State.loadFlash_keeps ?_) | (with_reducible refine State.stageDone_keeps ?_) | (with_reducible refine Out.keeps_next ?_) | (with_reducible refine foldl_keeps ?_ ?_; intro _ _ _) | (split) | (with_reducible refine Pr.keeps_mk ?_) | (refine Pr.keeps_of ?_ (by with_reducible assumption))

theorem State.startPort_keeps {s₀ s : State} {oe : Nat} (hk : Keeps s₀ s) : Keeps s₀ (State.startPort s oe) := by
  unfold State.startPort; try dsimp only
  repeat' first | (with_reducible assumption) | (with_reducible refine State.showPort_keeps ?_) | (with_reducible refine State.autoTrain_keeps ?_) | (split)

theorem execStageLinks_keeps {s₀ s : State} {pcie : List Nat} {full : Bool} {ms : Nat} (hk : Keeps s₀ s) : Out.keeps s₀ (execStageLinks pcie full ms s) := by
  unfold execStageLinks; try dsimp only
  repeat' first | (with_reducible assumption) | (with_reducible refine State.switchOn_keeps ?_) | (with_reducible refine State.startPort_keeps ?_) | (with_reducible refine State.putReg_keeps ?_) | (with_reducible refine Pr.keeps_fst (State.trainAll_keeps ?_)) | (with_reducible refine State.trainAll_keeps ?_) | (with_reducible refine State.stageDone_keeps ?_) | (with_reducible refine Out.keeps_next ?_) | (with_reducible refine Op.keeps_getD ?_ ?_) | (with_reducible refine foldl_keeps ?_ ?_; intro _ _ _) | (split) | (with_reducible refine Pr.keeps_mk ?_) | (refine Pr.keeps_of ?_ (by with_reducible assumption))

theorem execStageCompute_keeps {s₀ s : State} {fail : Option Nat} {ms : Nat} (hk : Keeps s₀ s) : Out.keeps s₀ (execStageCompute fail ms s) := by
  unfold execStageCompute; try dsimp only
  repeat' first | (with_reducible assumption) | (with_reducible refine State.bootFailed_keeps ?_) | (with_reducible refine State.switchOn_keeps ?_) | (with_reducible refine State.joinAs_keeps ?_) | (with_reducible refine State.stageDone_keeps ?_) | (with_reducible refine State.setBoot_keeps ?_) | (with_reducible refine Out.keeps_next ?_) | (split)

end Sys2Proof.Machine
end

