-- ==== Sys2Proof/Laws/KeepsCoherence.lean ====
section
/-! SUPPORT. What the operations of Machine/Coherence.lean keep. -/
namespace Sys2Proof.Machine
set_option Elab.async false

theorem State.putLine_keeps {s₀ s : State} {a : Nat} {l : Line} (hk : Keeps s₀ s) : Keeps s₀ (State.putLine s a l) := by
  unfold State.putLine; try dsimp only
  repeat' first | (with_reducible assumption) | (with_reducible refine State.setCoh_keeps ?_) | (split)

theorem State.hdramUncorrectable_keeps {s₀ s : State} {a die : Nat} (hk : Keeps s₀ s) : Keeps s₀ (State.hdramUncorrectable s a die) := by
  unfold State.hdramUncorrectable; try dsimp only
  repeat' first | (with_reducible assumption) | (with_reducible refine State.setPoison_keeps ?_) | (with_reducible refine State.alarmCoh_keeps ?_) | (with_reducible refine State.blockEvent_keeps ?_) | (split)

theorem State.flashUncorrectable_keeps {s₀ s : State} {a die : Nat} (hk : Keeps s₀ s) : Keeps s₀ (State.flashUncorrectable s a die) := by
  unfold State.flashUncorrectable; try dsimp only
  repeat' first | (with_reducible assumption) | (with_reducible refine State.setPoison_keeps ?_) | (with_reducible refine State.count_keeps ?_) | (with_reducible refine State.alarmDft_keeps ?_) | (with_reducible refine State.blockEvent_keeps ?_) | (split)

theorem State.mediumError_keeps {s₀ s : State} {pa die : Nat} {ecc : Ecc} (hk : Keeps s₀ s) : Keeps s₀ (State.mediumError s pa die ecc) := by
  unfold State.mediumError; try dsimp only
  repeat' first | (with_reducible assumption) | (with_reducible refine State.hbmError_keeps ?_) | (with_reducible refine State.hdramUncorrectable_keeps ?_) | (with_reducible refine State.count_keeps ?_) | (with_reducible refine State.flashUncorrectable_keeps ?_) | (split)

theorem State.consumedBy_keeps {s₀ s : State} {a : Agent} {pa : Nat} (hk : Keeps s₀ s) : Keeps s₀ (State.consumedBy s a pa) := by
  unfold State.consumedBy; try dsimp only
  repeat' first | (with_reducible assumption) | (with_reducible refine State.count_keeps ?_) | (with_reducible refine State.putReg_keeps ?_) | (with_reducible refine State.blockEvent_keeps ?_) | (with_reducible refine Op.keeps_getD ?_ ?_) | (split)

theorem State.answered_keeps {s₀ s : State} {a : Agent} {pa : Nat} {d : List Byte} (hk : Keeps s₀ s) : Keeps s₀ (State.answered s a pa d) := by
  unfold State.answered; try dsimp only
  repeat' first | (with_reducible assumption) | (with_reducible refine State.setResp_keeps ?_) | (with_reducible refine State.consumedBy_keeps ?_) | (split)

theorem State.atHome_keeps {s₀ s : State} {a : Agent} {pa : Nat} {write : Bool} {f : State → State} (hf : ∀  t, Keeps s₀ t → Keeps s₀ (f  t)) (hk : Keeps s₀ s) : Keeps s₀ (State.atHome s a pa write f) := by
  unfold State.atHome; try dsimp only
  repeat' first | (with_reducible assumption) | (with_reducible refine State.setResp_keeps ?_) | (with_reducible refine State.violation_keeps ?_) | (with_reducible refine hf _ ?_) | (split)

theorem State.rdShared_keeps {s₀ s : State} {a : Agent} {pa : Nat} {ecc : Ecc} (hk : Keeps s₀ s) : Keeps s₀ (State.rdShared s a pa ecc) := by
  unfold State.rdShared; try dsimp only
  repeat' first | (with_reducible assumption) | (with_reducible refine State.answered_keeps ?_) | (with_reducible refine State.putLine_keeps ?_) | (with_reducible refine State.mediumError_keeps ?_) | (with_reducible refine State.noteRead_keeps ?_) | (split)

theorem execRdShared_keeps {s₀ s : State} {a : Agent} {pa : Nat} {ecc : Ecc} (hk : Keeps s₀ s) : Out.keeps s₀ (execRdShared a pa ecc s) := by
  unfold execRdShared; try dsimp only
  repeat' first | (with_reducible assumption) | (with_reducible refine State.atHome_keeps (fun _ _ => ?_) ?_) | (with_reducible refine State.rdShared_keeps ?_) | (with_reducible refine Out.keeps_next ?_) | (split)

theorem State.rdOnce_keeps {s₀ s : State} {a : Agent} {pa : Nat} {ecc : Ecc} (hk : Keeps s₀ s) : Keeps s₀ (State.rdOnce s a pa ecc) := by
  unfold State.rdOnce; try dsimp only
  repeat' first | (with_reducible assumption) | (with_reducible refine State.putLine_keeps ?_) | (with_reducible refine State.mediumError_keeps ?_) | (with_reducible refine State.noteRead_keeps ?_) | (with_reducible refine State.answered_keeps ?_) | (split)

theorem execRdOnce_keeps {s₀ s : State} {a : Agent} {pa : Nat} {ecc : Ecc} (hk : Keeps s₀ s) : Out.keeps s₀ (execRdOnce a pa ecc s) := by
  unfold execRdOnce; try dsimp only
  repeat' first | (with_reducible assumption) | (with_reducible refine State.atHome_keeps (fun _ _ => ?_) ?_) | (with_reducible refine State.rdOnce_keeps ?_) | (with_reducible refine Out.keeps_next ?_) | (split)

theorem State.rdUnique_keeps {s₀ s : State} {a : Agent} {pa off : Nat} {bs : List Byte} (hk : Keeps s₀ s) : Keeps s₀ (State.rdUnique s a pa off bs) := by
  unfold State.rdUnique; try dsimp only
  repeat' first | (with_reducible assumption) | (with_reducible refine State.putLine_keeps ?_) | (with_reducible refine State.noteRead_keeps ?_) | (split)

theorem State.storeLine_keeps {s₀ s : State} {a : Agent} {pa off : Nat} {bs : List Byte} (hk : Keeps s₀ s) : Keeps s₀ (State.storeLine s a pa off bs) := by
  unfold State.storeLine; try dsimp only
  repeat' first | (with_reducible assumption) | (with_reducible refine State.tearHeld_keeps ?_) | (with_reducible refine State.rdUnique_keeps ?_) | (with_reducible refine State.poisonWrite_keeps ?_) | (with_reducible refine State.wrMem_keeps ?_) | (split)

theorem execRdUnique_keeps {s₀ s : State} {a : Agent} {pa : Nat} {data : List Byte} {off : Nat} (hk : Keeps s₀ s) : Out.keeps s₀ (execRdUnique a pa data off s) := by
  unfold execRdUnique; try dsimp only
  repeat' first | (with_reducible assumption) | (with_reducible refine State.atHome_keeps (fun _ _ => ?_) ?_) | (with_reducible refine State.storeLine_keeps ?_) | (with_reducible refine Out.keeps_next ?_) | (split)

theorem execUpgrade_keeps {s₀ s : State} {a : Agent} {pa : Nat} {data : List Byte} {off : Nat} (hk : Keeps s₀ s) : Out.keeps s₀ (execUpgrade a pa data off s) := by
  unfold execUpgrade; try dsimp only
  repeat' first | (with_reducible assumption) | (with_reducible refine State.atHome_keeps (fun _ _ => ?_) ?_) | (with_reducible refine State.storeLine_keeps ?_) | (with_reducible refine Out.keeps_next ?_) | (split)

theorem State.wrLine_keeps {s₀ s : State} {a : Agent} {pa : Nat} {data : List Byte} {poisoned : Bool} (hk : Keeps s₀ s) : Keeps s₀ (State.wrLine s a pa data poisoned) := by
  unfold State.wrLine; try dsimp only
  repeat' first | (with_reducible assumption) | (with_reducible refine State.wrMem_keeps ?_) | (with_reducible refine State.putLine_keeps ?_) | (split)

theorem execWrLine_keeps {s₀ s : State} {a : Agent} {pa : Nat} {data : List Byte} {poisoned : Bool} (hk : Keeps s₀ s) : Out.keeps s₀ (execWrLine a pa data poisoned s) := by
  unfold execWrLine; try dsimp only
  repeat' first | (with_reducible assumption) | (with_reducible refine State.atHome_keeps (fun _ _ => ?_) ?_) | (with_reducible refine State.wrLine_keeps ?_) | (with_reducible refine Out.keeps_next ?_) | (split)

theorem State.writeKept_keeps {s₀ s : State} {at0 : Nat} {bs : List Byte} {l : Line} (hk : Keeps s₀ s) : Keeps s₀ (State.writeKept s at0 bs l) := by
  unfold State.writeKept; try dsimp only
  repeat' first | (with_reducible assumption) | (with_reducible refine State.wrMem_keeps ?_) | (with_reducible refine State.setPoison_keeps ?_) | (with_reducible refine State.putLine_keeps ?_) | (with_reducible refine foldl_keeps ?_ ?_; intro _ _ _) | (split)

theorem State.writeback_keeps {s₀ s : State} {a : Agent} {pa : Nat} {data : List Byte} (hk : Keeps s₀ s) : Keeps s₀ (State.writeback s a pa data) := by
  unfold State.writeback; try dsimp only
  repeat' first | (with_reducible assumption) | (with_reducible refine State.putLine_keeps ?_) | (with_reducible refine State.writeKept_keeps ?_) | (with_reducible refine State.setMem_keeps putBytes_wf ?_) | (with_reducible refine State.setMem_keeps Sparse.wf_filter ?_) | (with_reducible refine State.setMem_keeps Sparse.wf_set ?_) | (split)

theorem execWriteback_keeps {s₀ s : State} {a : Agent} {pa : Nat} {data : List Byte} (hk : Keeps s₀ s) : Out.keeps s₀ (execWriteback a pa data s) := by
  unfold execWriteback; try dsimp only
  repeat' first | (with_reducible assumption) | (with_reducible refine State.atHome_keeps (fun _ _ => ?_) ?_) | (with_reducible refine State.writeback_keeps ?_) | (with_reducible refine Out.keeps_next ?_) | (split)

theorem execEvict_keeps {s₀ s : State} {a : Agent} {pa : Nat} (hk : Keeps s₀ s) : Out.keeps s₀ (execEvict a pa s) := by
  unfold execEvict; try dsimp only
  repeat' first | (with_reducible assumption) | (with_reducible refine State.putLine_keeps ?_) | (with_reducible refine Out.keeps_next ?_) | (split)

theorem State.forwardAnswered_keeps {s₀ s : State} {at0 : Nat} {l : Line} {f : Forward} {rest : List Forward} {data : Option (List Byte)} (hk : Keeps s₀ s) : Keeps s₀ (State.forwardAnswered s at0 l f rest data) := by
  unfold State.forwardAnswered; try dsimp only
  repeat' first | (with_reducible assumption) | (with_reducible refine State.answered_keeps ?_) | (with_reducible refine State.putLine_keeps ?_) | (with_reducible refine Op.keeps_getD ?_ ?_) | (split)

theorem execForwardAnswer_keeps {s₀ s : State} {addr : Nat} {data : Option (List Byte)} (hk : Keeps s₀ s) : Out.keeps s₀ (execForwardAnswer addr data s) := by
  unfold execForwardAnswer; try dsimp only
  repeat' first | (with_reducible assumption) | (with_reducible refine State.forwardAnswered_keeps ?_) | (with_reducible refine State.putLine_keeps ?_) | (with_reducible refine Out.keeps_next ?_) | (split)

theorem execCohTimeout_keeps {s₀ s : State} {addr : Nat} (hk : Keeps s₀ s) : Out.keeps s₀ (execCohTimeout addr s) := by
  unfold execCohTimeout; try dsimp only
  repeat' first | (with_reducible assumption) | (with_reducible refine State.tearHeld_keeps ?_) | (with_reducible refine State.putLine_keeps ?_) | (with_reducible refine State.setPoison_keeps ?_) | (with_reducible refine State.count_keeps ?_) | (with_reducible refine State.putReg_keeps ?_) | (with_reducible refine State.alarmCoh_keeps ?_) | (with_reducible refine State.blockEvent_keeps ?_) | (with_reducible refine State.consumedBy_keeps ?_) | (with_reducible refine Out.keeps_next ?_) | (with_reducible refine foldl_keeps ?_ ?_; intro _ _ _) | (split)

end Sys2Proof.Machine
end

