-- ==== Sys2Proof/Laws/KeepsExporter.lean ====
section
/-! SUPPORT. What the operations of Machine/Exporter.lean keep. -/
namespace Sys2Proof.Machine
set_option Elab.async false

theorem State.ethWrite_keeps {s₀ s : State} {h off : Nat} {bs : List Byte} (hk : Keeps s₀ s) : Keeps s₀ (State.ethWrite s h off bs) := by
  unfold State.ethWrite; try dsimp only
  repeat' first | (with_reducible assumption) | (with_reducible refine State.setLnk_keeps ?_) | (split)

theorem State.emit_keeps {s₀ s : State} {a : Access} {bs : List Byte} (hk : Keeps s₀ s) : Ex.keeps s₀ (State.emit s a bs) := by
  unfold State.emit; try dsimp only
  repeat' first | (with_reducible assumption) | (with_reducible refine State.handle_keeps (fun _ _ _ => ?_) ?_) | (with_reducible refine State.ethWrite_keeps ?_) | (with_reducible refine State.vStore_keeps ?_) | (with_reducible refine State.setExp_keeps ?_) | (with_reducible refine State.count_keeps ?_) | (with_reducible exact Ex.keeps_error) | (with_reducible refine Ex.keeps_ok ?_) | (split) | (refine Ex.keeps_of ?_ (by with_reducible assumption))

theorem execXopen_keeps {s₀ s : State} {e : Nat} (hk : Keeps s₀ s) : Out.keeps s₀ (execXopen e s) := by
  unfold execXopen; try dsimp only
  repeat' first | (with_reducible assumption) | (with_reducible refine State.runCmd_keeps (fun _ _ _ _ => ?_) ?_) | (with_reducible refine step_keeps ?_) | (with_reducible refine State.setExp_keeps ?_) | (with_reducible refine State.setBit_keeps ?_) | (with_reducible refine State.clrBit_keeps ?_) | (with_reducible refine State.putFld_keeps ?_) | (with_reducible refine Res.ofStore_keeps ?_) | (with_reducible refine State.emit_keeps ?_) | (with_reducible refine Out.keeps_next ?_) | (with_reducible exact Res.keeps_ill) | (with_reducible exact Res.keeps_illCommon) | (with_reducible exact Res.keeps_trap) | (with_reducible refine Res.keeps_done ?_) | (with_reducible refine Res.keeps_stay ?_) | (with_reducible exact Ex.keeps_error) | (with_reducible refine Ex.keeps_ok ?_) | (split) | (refine Out.keeps_of ?_ (by with_reducible assumption)) | (refine Ex.keeps_of ?_ (by with_reducible assumption)) | (refine Res.keeps_of_done ?_ (by with_reducible assumption))

theorem State.putShard_keeps {s₀ s : State} {a : Access} {t : Tensor} {p : Part} {x : Shard} (hk : Keeps s₀ s) : Ex.keeps s₀ (State.putShard s a t p x) := by
  unfold State.putShard; try dsimp only
  repeat' first | (with_reducible assumption) | (with_reducible refine State.setExp_keeps ?_) | (with_reducible refine State.vRead_keeps ?_) | (with_reducible refine State.emit_keeps ?_) | (with_reducible exact Ex.keeps_error) | (with_reducible refine Ex.keeps_ok ?_) | (with_reducible exact ExP.keeps_error) | (with_reducible refine ExP.keeps_ok ?_) | (split) | (refine Ex.keeps_of ?_ (by with_reducible assumption)) | (refine ExP.keeps_of ?_ (by with_reducible assumption))

theorem State.shardEntries_keeps {s₀ s : State} {a : Access} {b : List Byte} {x0 : List Nat} (hk : Keeps s₀ s) : ExO.keeps s₀ (State.shardEntries s a b x0) := by
  induction x0 generalizing s with
  | nil =>
    unfold State.shardEntries; try dsimp only
    repeat' first | (with_reducible assumption) | (with_reducible refine State.vRead_keeps ?_) | (with_reducible refine foldM_keeps (fun _ _ _ => ?_) ?_) | (with_reducible refine State.putShard_keeps ?_) | (with_reducible exact Ex.keeps_error) | (with_reducible refine Ex.keeps_ok ?_) | (with_reducible exact ExO.keeps_error) | (with_reducible exact ExO.keeps_none) | (with_reducible refine ExO.keeps_some ?_) | (with_reducible exact ExP.keeps_error) | (with_reducible refine ExP.keeps_ok ?_) | (split) | (refine Ex.keeps_of ?_ (by with_reducible assumption)) | (refine ExP.keeps_of ?_ (by with_reducible assumption)) | (refine ExO.keeps_of ?_ (by with_reducible assumption))
  | cons y l ih =>
    unfold State.shardEntries; try dsimp only
    repeat' first | (with_reducible assumption) | (with_reducible refine ih ?_) | (with_reducible refine State.vRead_keeps ?_) | (with_reducible refine foldM_keeps (fun _ _ _ => ?_) ?_) | (with_reducible refine State.putShard_keeps ?_) | (with_reducible exact Ex.keeps_error) | (with_reducible refine Ex.keeps_ok ?_) | (with_reducible exact ExO.keeps_error) | (with_reducible exact ExO.keeps_none) | (with_reducible refine ExO.keeps_some ?_) | (with_reducible exact ExP.keeps_error) | (with_reducible refine ExP.keeps_ok ?_) | (split) | (refine Ex.keeps_of ?_ (by with_reducible assumption)) | (refine ExP.keeps_of ?_ (by with_reducible assumption)) | (refine ExO.keeps_of ?_ (by with_reducible assumption))

theorem execXshard_keeps {s₀ s : State} {e : Nat} (hk : Keeps s₀ s) : Out.keeps s₀ (execXshard e s) := by
  unfold execXshard; try dsimp only
  repeat' first | (with_reducible assumption) | (with_reducible refine State.runCmd_keeps (fun _ _ _ _ => ?_) ?_) | (with_reducible refine State.shardEntries_keeps ?_) | (with_reducible refine Out.keeps_next ?_) | (with_reducible exact Res.keeps_ill) | (with_reducible exact Res.keeps_illCommon) | (with_reducible exact Res.keeps_trap) | (with_reducible refine Res.keeps_done ?_) | (with_reducible refine Res.keeps_stay ?_) | (with_reducible exact ExO.keeps_error) | (with_reducible exact ExO.keeps_none) | (with_reducible refine ExO.keeps_some ?_) | (split) | (refine ExO.keeps_of ?_ (by with_reducible assumption)) | (refine Res.keeps_of_done ?_ (by with_reducible assumption))

theorem execXclose_keeps {s₀ s : State} {e : Nat} (hk : Keeps s₀ s) : Out.keeps s₀ (execXclose e s) := by
  unfold execXclose; try dsimp only
  repeat' first | (with_reducible assumption) | (with_reducible refine State.runCmd_keeps (fun _ _ _ _ => ?_) ?_) | (with_reducible refine State.emit_keeps ?_) | (with_reducible refine State.setExp_keeps ?_) | (with_reducible refine State.modRun_keeps ?_) | (with_reducible refine State.tookFree_keeps ?_) | (with_reducible refine Out.keeps_next ?_) | (with_reducible exact Res.keeps_ill) | (with_reducible exact Res.keeps_illCommon) | (with_reducible exact Res.keeps_trap) | (with_reducible refine Res.keeps_done ?_) | (with_reducible refine Res.keeps_stay ?_) | (with_reducible exact Ex.keeps_error) | (with_reducible refine Ex.keeps_ok ?_) | (split) | (refine Ex.keeps_of ?_ (by with_reducible assumption)) | (refine Res.keeps_of_done ?_ (by with_reducible assumption))

theorem execStreamCloseComplete_keeps {s₀ s : State} {e : Nat} (hk : Keeps s₀ s) : Out.keeps s₀ (execStreamCloseComplete e s) := by
  unfold execStreamCloseComplete; try dsimp only
  repeat' first | (with_reducible assumption) | (with_reducible refine State.handle_keeps (fun _ _ _ => ?_) ?_) | (with_reducible refine State.endStream_keeps ?_) | (with_reducible refine State.advance_keeps ?_) | (with_reducible refine Out.keeps_next ?_) | (split)

theorem State.relayLine_keeps {s₀ s : State} {a : Access} {b : List Byte} {i : Nat} (hk : Keeps s₀ s) : Ex.keeps s₀ (State.relayLine s a b i) := by
  unfold State.relayLine; try dsimp only
  repeat' first | (with_reducible assumption) | (with_reducible refine State.vRead_keeps ?_) | (with_reducible refine State.vStore_keeps ?_) | (with_reducible exact Ex.keeps_error) | (with_reducible refine Ex.keeps_ok ?_) | (with_reducible exact ExP.keeps_error) | (with_reducible refine ExP.keeps_ok ?_) | (split) | (refine Ex.keeps_of ?_ (by with_reducible assumption)) | (refine ExP.keeps_of ?_ (by with_reducible assumption))

theorem execXrelay_keeps {s₀ s : State} {e : Nat} (hk : Keeps s₀ s) : Out.keeps s₀ (execXrelay e s) := by
  unfold execXrelay; try dsimp only
  repeat' first | (with_reducible assumption) | (with_reducible refine State.runCmd_keeps (fun _ _ _ _ => ?_) ?_) | (with_reducible refine State.setExp_keeps ?_) | (with_reducible refine State.vRead_keeps ?_) | (with_reducible refine State.relayLine_keeps ?_) | (with_reducible refine State.ethWrite_keeps ?_) | (with_reducible refine State.count_keeps ?_) | (with_reducible refine foldM_keeps (fun _ _ _ => ?_) ?_) | (with_reducible refine State.vStore_keeps ?_) | (with_reducible refine Out.keeps_next ?_) | (with_reducible exact Res.keeps_ill) | (with_reducible exact Res.keeps_illCommon) | (with_reducible exact Res.keeps_trap) | (with_reducible refine Res.keeps_done ?_) | (with_reducible refine Res.keeps_stay ?_) | (with_reducible exact Ex.keeps_error) | (with_reducible refine Ex.keeps_ok ?_) | (with_reducible exact ExP.keeps_error) | (with_reducible refine ExP.keeps_ok ?_) | (split) | (refine Ex.keeps_of ?_ (by with_reducible assumption)) | (refine ExP.keeps_of ?_ (by with_reducible assumption)) | (refine Res.keeps_of_done ?_ (by with_reducible assumption))

end Sys2Proof.Machine
end

