-- ==== Sys2Proof/Laws/KeepsEthernet.lean ====
section
/-! SUPPORT. What the operations of Machine/Ethernet.lean keep. -/
namespace Sys2Proof.Machine
set_option Elab.async false

theorem State.loadHandles_keeps {s₀ s : State}  (hk : Keeps s₀ s) : Keeps s₀ (State.loadHandles s) := by
  unfold State.loadHandles; try dsimp only
  repeat' first | (with_reducible assumption) | (with_reducible refine State.noteRead_keeps ?_) | (with_reducible refine State.setLnk_keeps ?_) | (split)

theorem State.resetHandle_keeps {s₀ s : State} {h : Nat} (hk : Keeps s₀ s) : Keeps s₀ (State.resetHandle s h) := by
  unfold State.resetHandle; try dsimp only
  repeat' first | (with_reducible assumption) | (with_reducible refine State.setLnk_keeps ?_) | (split)

theorem State.clearHandles_keeps {s₀ s : State} {mask : Nat} (hk : Keeps s₀ s) : Keeps s₀ (State.clearHandles s mask) := by
  unfold State.clearHandles; try dsimp only
  repeat' first | (with_reducible assumption) | (with_reducible refine State.resetHandle_keeps ?_) | (with_reducible refine foldl_keeps ?_ ?_; intro _ _ _) | (split)

theorem State.failStream_keeps {s₀ s : State} {j : Nat} (hk : Keeps s₀ s) : Keeps s₀ (State.failStream s j) := by
  unfold State.failStream; try dsimp only
  repeat' first | (with_reducible assumption) | (with_reducible refine State.endStream_keeps ?_) | (with_reducible refine State.advance_keeps ?_) | (split)

theorem State.handleError_keeps {s₀ s : State} {h : Nat} (hk : Keeps s₀ s) : Keeps s₀ (State.handleError s h) := by
  unfold State.handleError; try dsimp only
  repeat' first | (with_reducible assumption) | (with_reducible refine State.putFld_keeps ?_) | (with_reducible refine State.alarmLnk_keeps ?_) | (with_reducible refine State.setLnk_keeps ?_) | (with_reducible refine State.handle_keeps (fun _ _ _ => ?_) ?_) | (with_reducible refine State.failStream_keeps ?_) | (with_reducible refine foldl_keeps ?_ ?_; intro _ _ _) | (split)

theorem execEthQpError_keeps {s₀ s : State} {h : Nat} (hk : Keeps s₀ s) : Out.keeps s₀ (execEthQpError h s) := by
  unfold execEthQpError; try dsimp only
  repeat' first | (with_reducible assumption) | (with_reducible refine State.handleError_keeps ?_) | (with_reducible refine Out.keeps_next ?_) | (split)

theorem execRoceAckReceive_keeps {s₀ s : State} {h psn : Nat} {nak : Bool} (hk : Keeps s₀ s) : Out.keeps s₀ (execRoceAckReceive h psn nak s) := by
  unfold execRoceAckReceive; try dsimp only
  repeat' first | (with_reducible assumption) | (with_reducible refine State.setLnk_keeps ?_) | (with_reducible refine Out.keeps_next ?_) | (split)

theorem execLocalAckTimeout_keeps {s₀ s : State} {h : Nat} (hk : Keeps s₀ s) : Out.keeps s₀ (execLocalAckTimeout h s) := by
  unfold execLocalAckTimeout; try dsimp only
  repeat' first | (with_reducible assumption) | (with_reducible refine State.handleError_keeps ?_) | (with_reducible refine State.setLnk_keeps ?_) | (with_reducible refine Out.keeps_next ?_) | (split)

theorem execCongestionNotification_keeps {s₀ s : State} {h : Nat} (hk : Keeps s₀ s) : Out.keeps s₀ (execCongestionNotification h s) := by
  unfold execCongestionNotification; try dsimp only
  repeat' first | (with_reducible assumption) | (with_reducible refine State.setLnk_keeps ?_) | (with_reducible refine Out.keeps_next ?_) | (split)

theorem execRateRecovery_keeps {s₀ s : State} {h : Nat} (hk : Keeps s₀ s) : Out.keeps s₀ (execRateRecovery h s) := by
  unfold execRateRecovery; try dsimp only
  repeat' first | (with_reducible assumption) | (with_reducible refine State.setLnk_keeps ?_) | (with_reducible refine Out.keeps_next ?_) | (split)

theorem execPriorityFlowControl_keeps {s₀ s : State} {oe prio : Nat} {pause : Bool} (hk : Keeps s₀ s) : Out.keeps s₀ (execPriorityFlowControl oe prio pause s) := by
  unfold execPriorityFlowControl; try dsimp only
  repeat' first | (with_reducible assumption) | (with_reducible refine State.setLnk_keeps ?_) | (with_reducible refine Out.keeps_next ?_) | (split)

end Sys2Proof.Machine
end

