-- ==== Sys2Proof/Laws/KeepsMovers.lean ====
section
/-! SUPPORT. What the operations of Machine/Movers.lean keep. -/
namespace Sys2Proof.Machine
set_option Elab.async false

theorem State.putFetch_keeps {s₀ s : State} {e : Nat} {f : Option Fetch} (hk : Keeps s₀ s) : Keeps s₀ (State.putFetch s e f) := by
  unfold State.putFetch; try dsimp only
  repeat' first | (with_reducible assumption) | (with_reducible refine State.modRun_keeps ?_) | (split)

theorem State.leftInPlace_keeps {s₀ s : State} {e : Nat} {r : Run} {f : Fetch} {noroom : Bool} (hk : Keeps s₀ s) : Keeps s₀ (State.leftInPlace s e r f noroom) := by
  unfold State.leftInPlace; try dsimp only
  repeat' first | (with_reducible assumption) | (with_reducible refine State.setBit_keeps ?_) | (with_reducible refine State.putFetch_keeps ?_) | (with_reducible refine State.planError_keeps ?_) | (split)

theorem State.visit_keeps {s₀ s : State} {e : Nat} {r : Run} {f : Fetch} {base : Nat} (hk : Keeps s₀ s) : Keeps s₀ (State.visit s e r f base) := by
  unfold State.visit; try dsimp only
  repeat' first | (with_reducible assumption) | (with_reducible refine State.putFetch_keeps ?_) | (with_reducible refine State.leftInPlace_keeps ?_) | (with_reducible refine State.startMove_keeps ?_) | (with_reducible exact Op.keeps_none) | (with_reducible refine Op.keeps_some ?_) | (split) | (refine Op.keeps_of ?_ (by with_reducible assumption))

theorem State.pump_keeps {s₀ s : State} {e : Nat} {x0 : Nat} (hk : Keeps s₀ s) : Keeps s₀ (State.pump s e x0) := by
  induction x0 generalizing s with
  | zero =>
    unfold State.pump; try dsimp only
    repeat' first | (with_reducible assumption) | (with_reducible refine State.putFetch_keeps ?_) | (with_reducible refine State.visit_keeps ?_) | (split)
  | succ l ih =>
    unfold State.pump; try dsimp only
    repeat' first | (with_reducible assumption) | (with_reducible refine ih ?_) | (with_reducible refine State.putFetch_keeps ?_) | (with_reducible refine State.visit_keeps ?_) | (split)

theorem State.fetchOver_keeps {s₀ s : State} {e : Nat} {r : Run} {f : Fetch} {hit : Bool} (hk : Keeps s₀ s) : Keeps s₀ (State.fetchOver s e r f hit) := by
  unfold State.fetchOver; try dsimp only
  repeat' first | (with_reducible assumption) | (with_reducible refine State.routeOutcome_keeps ?_) | (with_reducible refine State.addOwnBuoy_keeps ?_) | (with_reducible refine State.putFetch_keeps ?_) | (with_reducible refine State.advance_keeps ?_) | (split)

theorem State.pumpFetch_keeps {s₀ s : State} {e : Nat} (hk : Keeps s₀ s) : Keeps s₀ (State.pumpFetch s e) := by
  unfold State.pumpFetch; try dsimp only
  repeat' first | (with_reducible assumption) | (with_reducible refine State.pump_keeps ?_) | (with_reducible refine State.fetchOver_keeps ?_) | (split)

theorem State.follow_keeps {s₀ s : State} {m : Move} (hk : Keeps s₀ s) : Keeps s₀ (State.follow s m) := by
  unfold State.follow; try dsimp only
  repeat' first | (with_reducible assumption) | (with_reducible refine State.setEng_keeps ?_) | (split)

theorem execFrameMoveDone_keeps {s₀ s : State} {base : Nat} (hk : Keeps s₀ s) : Out.keeps s₀ (execFrameMoveDone base s) := by
  unfold execFrameMoveDone; try dsimp only
  repeat' first | (with_reducible assumption) | (with_reducible refine State.cancelMove_keeps ?_) | (with_reducible refine State.leftInPlace_keeps ?_) | (with_reducible refine State.follow_keeps ?_) | (with_reducible refine State.endMove_keeps ?_) | (with_reducible refine State.pumpFetch_keeps ?_) | (with_reducible refine Out.keeps_next ?_) | (with_reducible refine foldl_keeps ?_ ?_; intro _ _ _) | (split)

theorem execStopPoint_keeps {s₀ s : State} {e : Nat} (hk : Keeps s₀ s) : Out.keeps s₀ (execStopPoint e s) := by
  unfold execStopPoint; try dsimp only
  repeat' first | (with_reducible assumption) | (with_reducible refine State.count_keeps ?_) | (with_reducible refine State.toTick_keeps ?_) | (with_reducible refine State.cancelMoves_keeps ?_) | (with_reducible refine State.fetchOver_keeps ?_) | (with_reducible refine Out.keeps_next ?_) | (split)

theorem execTierLate_keeps {s₀ s : State} {e : Nat} (hk : Keeps s₀ s) : Out.keeps s₀ (execTierLate e s) := by
  unfold execTierLate; try dsimp only
  repeat' first | (with_reducible assumption) | (with_reducible refine State.putFetch_keeps ?_) | (with_reducible refine State.alarmTmv_keeps ?_) | (with_reducible refine State.count_keeps ?_) | (with_reducible refine State.engineEvent_keeps ?_) | (with_reducible refine Out.keeps_next ?_) | (split)

end Sys2Proof.Machine
end

