-- ==== Sys2Proof/Laws/KeepsSlots.lean ====
section
/-! SUPPORT. What the operations of Machine/Slots.lean keep. -/
namespace Sys2Proof.Machine
set_option Elab.async false

theorem State.putRun_keeps {s₀ s : State} {e : Nat} {r : Run} (hk : Keeps s₀ s) : Keeps s₀ (State.putRun s e r) := by
  unfold State.putRun; try dsimp only
  repeat' first | (with_reducible assumption) | (with_reducible refine State.setEng_keeps ?_) | (with_reducible refine State.showEngine_keeps ?_) | (with_reducible refine State.showPlanes_keeps ?_) | (split)

theorem State.begin_keeps {s₀ s : State} {id idx : Nat} {pl : Plan} {x : Slot} (hk : Keeps s₀ s) : Keeps s₀ (State.begin s id idx pl x) := by
  unfold State.begin; try dsimp only
  repeat' first | (with_reducible assumption) | (with_reducible refine State.modPlan_keeps ?_) | (with_reducible refine State.trace_keeps ?_) | (with_reducible refine State.stream_keeps ?_) | (with_reducible refine State.putRun_keeps ?_) | (with_reducible refine State.stop_keeps ?_) | (with_reducible refine State.planEnd_keeps ?_) | (with_reducible refine State.vRead_keeps ?_) | (with_reducible refine State.trapped_keeps ?_) | (with_reducible refine State.tookFree_keeps ?_) | (with_reducible refine State.illCommon_keeps ?_) | (with_reducible refine State.modRun_keeps ?_) | (with_reducible refine State.finishSlot_keeps ?_) | (with_reducible exact Res.keeps_ill) | (with_reducible exact Res.keeps_illCommon) | (with_reducible exact Res.keeps_trap) | (with_reducible refine Res.keeps_done ?_) | (with_reducible refine Res.keeps_stay ?_) | (with_reducible exact ExP.keeps_error) | (with_reducible refine ExP.keeps_ok ?_) | (split) | (refine ExP.keeps_of ?_ (by with_reducible assumption)) | (refine Res.keeps_of_done ?_ (by with_reducible assumption))

theorem State.notStarted_keeps {s₀ s : State} {id idx : Nat} {pl : Plan} {e : Nat} (hk : Keeps s₀ s) : Keeps s₀ (State.notStarted s id idx pl e) := by
  unfold State.notStarted; try dsimp only
  repeat' first | (with_reducible assumption) | (with_reducible refine State.modPlan_keeps ?_) | (with_reducible refine State.broken_keeps ?_) | (with_reducible refine State.failPlan_keeps ?_) | (with_reducible refine State.planEnd_keeps ?_) | (split)

theorem execSlotStart_keeps {s₀ s : State} {e : Nat} (hk : Keeps s₀ s) : Out.keeps s₀ (execSlotStart e s) := by
  unfold execSlotStart; try dsimp only
  repeat' first | (with_reducible assumption) | (with_reducible refine State.toTick_keeps ?_) | (with_reducible refine State.abortTest_keeps ?_) | (with_reducible refine State.notStarted_keeps ?_) | (with_reducible refine State.begin_keeps ?_) | (with_reducible refine Out.keeps_next ?_) | (split)

theorem execSlotWatchdog_keeps {s₀ s : State} {e : Nat} (hk : Keeps s₀ s) : Out.keeps s₀ (execSlotWatchdog e s) := by
  unfold execSlotWatchdog; try dsimp only
  repeat' first | (with_reducible assumption) | (with_reducible refine State.count_keeps ?_) | (with_reducible refine State.toTick_keeps ?_) | (with_reducible refine State.terminate_keeps ?_) | (with_reducible refine State.tookFree_keeps ?_) | (with_reducible refine Out.keeps_next ?_) | (split)

theorem execBeSlotStart_keeps {s₀ s : State} {e : Nat} (hk : Keeps s₀ s) : Out.keeps s₀ (execBeSlotStart e s) := by
  unfold execBeSlotStart; try dsimp only
  repeat' first | (with_reducible assumption) | (with_reducible refine State.abortTest_keeps ?_) | (with_reducible refine State.tookFree_keeps ?_) | (with_reducible refine State.begin_keeps ?_) | (with_reducible refine Out.keeps_next ?_) | (split)

theorem execBeSuspend_keeps {s₀ s : State} {e : Nat} (hk : Keeps s₀ s) : Out.keeps s₀ (execBeSuspend e s) := by
  unfold execBeSuspend; try dsimp only
  repeat' first | (with_reducible assumption) | (with_reducible refine State.modPlan_keeps ?_) | (with_reducible refine State.trace_keeps ?_) | (with_reducible refine State.setEng_keeps ?_) | (with_reducible refine State.rest_keeps ?_) | (with_reducible refine Out.keeps_next ?_) | (split)

theorem State.goOn_keeps {s₀ s : State} {e : Nat} {r : Run} (hk : Keeps s₀ s) : Keeps s₀ (State.goOn s e r) := by
  unfold State.goOn; try dsimp only
  repeat' first | (with_reducible assumption) | (with_reducible refine State.modPlan_keeps ?_) | (with_reducible refine State.trace_keeps ?_) | (with_reducible refine State.putRun_keeps ?_) | (with_reducible refine State.pumpFetch_keeps ?_) | (split)

theorem execBeResume_keeps {s₀ s : State} {e : Nat} (hk : Keeps s₀ s) : Out.keeps s₀ (execBeResume e s) := by
  unfold execBeResume; try dsimp only
  repeat' first | (with_reducible assumption) | (with_reducible refine State.abortTest_keeps ?_) | (with_reducible refine State.setEng_keeps ?_) | (with_reducible refine State.goOn_keeps ?_) | (with_reducible refine Out.keeps_next ?_) | (split)

theorem State.settleSpill_keeps {s₀ s : State} {p : Nat} (hk : Keeps s₀ s) : Keeps s₀ (State.settleSpill s p) := by
  unfold State.settleSpill; try dsimp only
  repeat' first | (with_reducible assumption) | (with_reducible refine State.setDeferred_keeps ?_) | (split)

theorem execHeldSlotRestore_keeps {s₀ s : State} {p slot : Nat} (hk : Keeps s₀ s) : Out.keeps s₀ (execHeldSlotRestore p slot s) := by
  unfold execHeldSlotRestore; try dsimp only
  repeat' first | (with_reducible assumption) | (with_reducible refine State.abortTest_keeps ?_) | (with_reducible refine State.setEng_keeps ?_) | (with_reducible refine State.settleSpill_keeps ?_) | (with_reducible refine State.goOn_keeps ?_) | (with_reducible refine Out.keeps_next ?_) | (with_reducible exact Res.keeps_ill) | (with_reducible exact Res.keeps_illCommon) | (with_reducible exact Res.keeps_trap) | (with_reducible refine Res.keeps_done ?_) | (with_reducible refine Res.keeps_stay ?_) | (split) | (refine Res.keeps_of_done ?_ (by with_reducible assumption))

theorem State.abortHeld_keeps {s₀ s : State} {id : Nat} (hk : Keeps s₀ s) : Keeps s₀ (State.abortHeld s id) := by
  unfold State.abortHeld; try dsimp only
  repeat' first | (with_reducible assumption) | (with_reducible refine State.modPlan_keeps ?_) | (with_reducible refine State.setEng_keeps ?_) | (with_reducible refine foldl_keeps ?_ ?_; intro _ _ _) | (split)

theorem State.cancelPlan_keeps {s₀ s : State} {p id : Nat} (hk : Keeps s₀ s) : Keeps s₀ (State.cancelPlan s p id) := by
  unfold State.cancelPlan; try dsimp only
  repeat' first | (with_reducible assumption) | (with_reducible refine State.modPlan_keeps ?_) | (with_reducible refine State.abortHeld_keeps ?_) | (with_reducible refine State.settleSpill_keeps ?_) | (with_reducible refine State.planEnd_keeps ?_) | (with_reducible exact Res.keeps_ill) | (with_reducible exact Res.keeps_illCommon) | (with_reducible exact Res.keeps_trap) | (with_reducible refine Res.keeps_done ?_) | (with_reducible refine Res.keeps_stay ?_) | (split) | (refine Res.keeps_of_done ?_ (by with_reducible assumption))

end Sys2Proof.Machine
end

