-- ==== Sys2Proof/Laws/KeepsFieldTest.lean ====
section
/-! SUPPORT. What the operations of Machine/FieldTest.lean keep. -/
namespace Sys2Proof.Machine
set_option Elab.async false

theorem State.settleDue_keeps {s₀ s : State}  (hk : Keeps s₀ s) : Keeps s₀ (State.settleDue s) := by
  unfold State.settleDue; try dsimp only
  repeat' first | (with_reducible assumption) | (with_reducible refine State.markDue_keeps ?_) | (with_reducible refine foldl_keeps ?_ ?_; intro _ _ _) | (split)

theorem State.releaseWindows_keeps {s₀ s : State} {u : Nat} (hk : Keeps s₀ s) : Keeps s₀ (State.releaseWindows s u) := by
  unfold State.releaseWindows; try dsimp only
  repeat' first | (with_reducible assumption) | (with_reducible refine State.setFt_keeps ?_) | (split)

theorem execFtTestDue_keeps {s₀ s : State} {u : Nat} (hk : Keeps s₀ s) : Out.keeps s₀ (execFtTestDue u s) := by
  unfold execFtTestDue; try dsimp only
  repeat' first | (with_reducible assumption) | (with_reducible refine State.reserveTest_keeps ?_) | (with_reducible refine Out.keeps_next ?_) | (split)

theorem execFtStarved_keeps {s₀ s : State} {u : Nat} (hk : Keeps s₀ s) : Out.keeps s₀ (execFtStarved u s) := by
  unfold execFtStarved; try dsimp only
  repeat' first | (with_reducible assumption) | (with_reducible refine State.starve_keeps ?_) | (with_reducible refine Out.keeps_next ?_) | (split)

theorem State.ftsGo_keeps {s₀ s : State} {u : Nat} (hk : Keeps s₀ s) : Keeps s₀ (State.ftsGo s u) := by
  unfold State.ftsGo; try dsimp only
  repeat' first | (with_reducible assumption) | (with_reducible refine State.reserveTest_keeps ?_) | (split)

theorem execPatternLoadDone_keeps {s₀ s : State} {u : Nat} {poisoned : Bool} (hk : Keeps s₀ s) : Out.keeps s₀ (execPatternLoadDone u poisoned s) := by
  unfold execPatternLoadDone; try dsimp only
  repeat' first | (with_reducible assumption) | (with_reducible refine State.setUnit_keeps ?_) | (with_reducible refine State.alarmFts_keeps ?_) | (with_reducible refine State.event_keeps ?_) | (with_reducible refine Out.keeps_next ?_) | (split)

theorem State.startSegment_keeps {s₀ s : State} {u : Nat} {reserved : Bool} (hk : Keeps s₀ s) : Keeps s₀ (State.startSegment s u reserved) := by
  unfold State.startSegment; try dsimp only
  repeat' first | (with_reducible assumption) | (with_reducible refine State.markDue_keeps ?_) | (with_reducible refine State.setUnit_keeps ?_) | (with_reducible refine State.setFt_keeps ?_) | (with_reducible refine State.showEngine_keeps ?_) | (with_reducible refine State.trace_keeps ?_) | (split)

theorem execFtSegmentStart_keeps {s₀ s : State} {u : Nat} (hk : Keeps s₀ s) : Out.keeps s₀ (execFtSegmentStart u s) := by
  unfold execFtSegmentStart; try dsimp only
  repeat' first | (with_reducible assumption) | (with_reducible refine State.setUnit_keeps ?_) | (with_reducible refine State.toTick_keeps ?_) | (with_reducible refine State.startSegment_keeps ?_) | (with_reducible refine Out.keeps_next ?_) | (split)

theorem State.testOver_keeps {s₀ s : State} {u : Nat} (hk : Keeps s₀ s) : Keeps s₀ (State.testOver s u) := by
  unfold State.testOver; try dsimp only
  repeat' first | (with_reducible assumption) | (with_reducible refine State.setUnit_keeps ?_) | (with_reducible refine State.releaseWindows_keeps ?_) | (with_reducible refine State.count_keeps ?_) | (split)

theorem State.testPassed_keeps {s₀ s : State} {u : Nat} (hk : Keeps s₀ s) : Keeps s₀ (State.testPassed s u) := by
  unfold State.testPassed; try dsimp only
  repeat' first | (with_reducible assumption) | (with_reducible refine State.testOver_keeps ?_) | (with_reducible refine State.setUnit_keeps ?_) | (with_reducible refine State.countUnits_keeps ?_) | (with_reducible refine State.event_keeps ?_) | (split)

theorem State.showSpares_keeps {s₀ s : State} {d : Nat} (hk : Keeps s₀ s) : Keeps s₀ (State.showSpares s d) := by
  unfold State.showSpares; try dsimp only
  repeat' first | (with_reducible assumption) | (with_reducible refine State.putFld_keeps ?_) | (split)

theorem State.retire_keeps {s₀ s : State} {u segment : Nat} (hk : Keeps s₀ s) : Keeps s₀ (State.retire s u segment) := by
  unfold State.retire; try dsimp only
  repeat' first | (with_reducible assumption) | (with_reducible refine State.setUnit_keeps ?_) | (with_reducible refine State.alarmFts_keeps ?_) | (with_reducible refine State.event_keeps ?_) | (with_reducible refine State.setBoot_keeps ?_) | (with_reducible refine State.setFt_keeps ?_) | (split)

theorem State.testFailed_keeps {s₀ s : State} {u : Nat} (hk : Keeps s₀ s) : Keeps s₀ (State.testFailed s u) := by
  unfold State.testFailed; try dsimp only
  repeat' first | (with_reducible assumption) | (with_reducible refine State.testOver_keeps ?_) | (with_reducible refine State.count_keeps ?_) | (with_reducible refine State.setUnit_keeps ?_) | (with_reducible refine State.putReg_keeps ?_) | (with_reducible refine State.alarmFts_keeps ?_) | (with_reducible refine State.event_keeps ?_) | (with_reducible refine State.showSpares_keeps ?_) | (with_reducible refine State.retire_keeps ?_) | (with_reducible refine State.countUnits_keeps ?_) | (split)

theorem execFtSegmentEnd_keeps {s₀ s : State} {u : Nat} {pass : Bool} (hk : Keeps s₀ s) : Out.keeps s₀ (execFtSegmentEnd u pass s) := by
  unfold execFtSegmentEnd; try dsimp only
  repeat' first | (with_reducible assumption) | (with_reducible refine State.setFt_keeps ?_) | (with_reducible refine State.trace_keeps ?_) | (with_reducible refine State.rest_keeps ?_) | (with_reducible refine State.testFailed_keeps ?_) | (with_reducible refine State.testPassed_keeps ?_) | (with_reducible refine State.setUnit_keeps ?_) | (with_reducible refine Out.keeps_next ?_) | (split)

theorem execUnitUnavailable_keeps {s₀ s : State} {u : Nat} (hk : Keeps s₀ s) : Out.keeps s₀ (execUnitUnavailable u s) := by
  unfold execUnitUnavailable; try dsimp only
  repeat' first | (with_reducible assumption) | (with_reducible refine State.setFt_keeps ?_) | (with_reducible refine State.mapEngine_keeps ?_) | (with_reducible refine Out.keeps_next ?_) | (split)

theorem execSpareMappingEffect_keeps {s₀ s : State}  (hk : Keeps s₀ s) : Out.keeps s₀ (execSpareMappingEffect s) := by
  unfold execSpareMappingEffect; try dsimp only
  repeat' first | (with_reducible assumption) | (with_reducible refine State.setFt_keeps ?_) | (with_reducible refine State.mapEngine_keeps ?_) | (with_reducible refine State.showSpares_keeps ?_) | (with_reducible refine Out.keeps_next ?_) | (with_reducible refine foldl_keeps ?_ ?_; intro _ _ _) | (split)

end Sys2Proof.Machine
end

