-- ==== Sys2Proof/Laws/KeepsTiers.lean ====
section
/-! SUPPORT. What the operations of Machine/Tiers.lean keep. -/
namespace Sys2Proof.Machine
set_option Elab.async false

theorem State.allocGo_keeps {s₀ s : State} {p : Nat} (hk : Keeps s₀ s) : Keeps s₀ (State.allocGo s p) := by
  unfold State.allocGo; try dsimp only
  repeat' first | (with_reducible assumption) | (with_reducible refine State.setTiers_keeps ?_) | (with_reducible refine State.setBit_keeps ?_) | (split)

theorem execAllocComplete_keeps {s₀ s : State} {p : Nat} (hk : Keeps s₀ s) : Out.keeps s₀ (execAllocComplete p s) := by
  unfold execAllocComplete; try dsimp only
  repeat' first | (with_reducible assumption) | (with_reducible refine State.setTiers_keeps ?_) | (with_reducible refine State.clrBit_keeps ?_) | (with_reducible refine State.count_keeps ?_) | (with_reducible refine State.putReg_keeps ?_) | (with_reducible refine State.zeroRange_keeps ?_) | (with_reducible refine State.tierLevels_keeps ?_) | (with_reducible refine State.tookFree_keeps ?_) | (with_reducible refine Out.keeps_next ?_) | (with_reducible refine foldl_keeps ?_ ?_; intro _ _ _) | (split)

theorem State.armRoute_keeps {s₀ s : State} {e : Nat} {r : Run} {f : Fetch} (hk : Keeps s₀ s) : Keeps s₀ (State.armRoute s e r f) := by
  unfold State.armRoute; try dsimp only
  repeat' first | (with_reducible assumption) | (with_reducible refine State.setTiers_keeps ?_) | (with_reducible refine Op.keeps_getD ?_ ?_) | (split)

theorem execTmove_keeps {s₀ s : State} {e : Nat} (hk : Keeps s₀ s) : Out.keeps s₀ (execTmove e s) := by
  unfold execTmove; try dsimp only
  repeat' first | (with_reducible assumption) | (with_reducible refine State.runCmd_keeps (fun _ _ _ _ => ?_) ?_) | (with_reducible refine State.armRoute_keeps ?_) | (with_reducible refine State.fetchOver_keeps ?_) | (with_reducible refine State.modRun_keeps ?_) | (with_reducible refine State.pumpFetch_keeps ?_) | (with_reducible refine Out.keeps_next ?_) | (with_reducible exact Res.keeps_ill) | (with_reducible exact Res.keeps_illCommon) | (with_reducible exact Res.keeps_trap) | (with_reducible refine Res.keeps_done ?_) | (with_reducible refine Res.keeps_stay ?_) | (split) | (refine Res.keeps_of_done ?_ (by with_reducible assumption))

theorem State.circular_keeps {s₀ s : State} {p base log2 headKey lostKey : Nat} {bs : List Byte} (hk : Keeps s₀ s) : Keeps s₀ (State.circular s p base log2 headKey lostKey bs) := by
  unfold State.circular; try dsimp only
  repeat' first | (with_reducible assumption) | (with_reducible refine State.count_keeps ?_) | (with_reducible refine State.pStore_keeps ?_) | (with_reducible exact Op.keeps_none) | (with_reducible refine Op.keeps_some ?_) | (split) | (refine Op.keeps_of ?_ (by with_reducible assumption))

theorem State.substitute_keeps {s₀ s : State} {p deadline : Nat} {x : RouteFetch} (hk : Keeps s₀ s) : Keeps s₀ (State.substitute s p deadline x) := by
  unfold State.substitute; try dsimp only
  repeat' first | (with_reducible assumption) | (with_reducible refine State.circular_keeps ?_) | (with_reducible refine State.count_keeps ?_) | (with_reducible refine State.engineEvent_keeps ?_) | (split)

theorem State.setRoute_keeps {s₀ s : State} {route side : Nat} (hk : Keeps s₀ s) : Keeps s₀ (State.setRoute s route side) := by
  unfold State.setRoute; try dsimp only
  repeat' first | (with_reducible assumption) | (with_reducible refine State.putReg_keeps ?_) | (split)

theorem execRouteSettle_keeps {s₀ s : State} {route : Nat} (hk : Keeps s₀ s) : Out.keeps s₀ (execRouteSettle route s) := by
  unfold execRouteSettle; try dsimp only
  repeat' first | (with_reducible assumption) | (with_reducible refine State.setRoute_keeps ?_) | (with_reducible refine State.setTiers_keeps ?_) | (with_reducible refine State.substitute_keeps ?_) | (with_reducible refine Out.keeps_next ?_) | (with_reducible refine foldl_keeps ?_ ?_; intro _ _ _) | (split)

theorem State.fwReset_keeps {s₀ s : State} {p : Nat} (hk : Keeps s₀ s) : Keeps s₀ (State.fwReset s p) := by
  unfold State.fwReset; try dsimp only
  repeat' first | (with_reducible assumption) | (with_reducible refine State.putReg_keeps ?_) | (with_reducible refine State.tierLevels_keeps ?_) | (split)

theorem State.demoteTo_keeps {s₀ s : State} {p base : Nat} {f : Frame} {x0 : List Nat} (hk : Keeps s₀ s) : Op.keeps s₀ (State.demoteTo s p base f x0) := by
  induction x0 generalizing s with
  | nil =>
    unfold State.demoteTo; try dsimp only
    repeat' first | (with_reducible assumption) | (with_reducible refine State.startMove_keeps ?_) | (with_reducible exact Op.keeps_none) | (with_reducible refine Op.keeps_some ?_) | (split) | (refine Op.keeps_of ?_ (by with_reducible assumption))
  | cons y l ih =>
    unfold State.demoteTo; try dsimp only
    repeat' first | (with_reducible assumption) | (with_reducible refine ih ?_) | (with_reducible refine State.startMove_keeps ?_) | (with_reducible exact Op.keeps_none) | (with_reducible refine Op.keeps_some ?_) | (split) | (refine Op.keeps_of ?_ (by with_reducible assumption))

theorem execDemotion_keeps {s₀ s : State} {p tier : Nat} (hk : Keeps s₀ s) : Out.keeps s₀ (execDemotion p tier s) := by
  unfold execDemotion; try dsimp only
  repeat' first | (with_reducible assumption) | (with_reducible refine State.setBit_keeps ?_) | (with_reducible refine State.demoteTo_keeps ?_) | (with_reducible refine State.setTiers_keeps ?_) | (with_reducible refine Out.keeps_next ?_) | (with_reducible exact Op.keeps_none) | (with_reducible refine Op.keeps_some ?_) | (with_reducible refine Op.keeps_getD ?_ ?_) | (split) | (refine Op.keeps_of ?_ (by with_reducible assumption))

theorem State.shrinkLent_keeps {s₀ s : State} {j n : Nat} (hk : Keeps s₀ s) : Keeps s₀ (State.shrinkLent s j n) := by
  unfold State.shrinkLent; try dsimp only
  repeat' first | (with_reducible assumption) | (with_reducible refine State.zeroRange_keeps ?_) | (with_reducible refine State.setTiers_keeps ?_) | (with_reducible refine foldl_keeps ?_ ?_; intro _ _ _) | (split)

theorem State.growLent_keeps {s₀ s : State} {j tier n : Nat} (h : Keeps s₀ s) : Op.keeps s₀ (State.growLent s j tier n) := by
  unfold State.growLent; try dsimp only
  cases takeFrames _ _ with
  | none => exact Op.keeps_none
  | some l => exact Op.keeps_some (State.tookFree_keeps (State.setTiers_keeps h))

theorem State.lendRefused_keeps {s₀ s : State}  (hk : Keeps s₀ s) : Keeps s₀ (State.lendRefused s) := by
  unfold State.lendRefused; try dsimp only
  repeat' first | (with_reducible assumption) | (with_reducible refine State.alarmTmv_keeps ?_) | (split)

theorem State.lend_keeps {s₀ s0 : State} {j : Nat} {w : Word} (hk : Keeps s₀ s0) : Keeps s₀ (State.lend s0 j w) := by
  unfold State.lend; try dsimp only
  repeat' first | (with_reducible assumption) | (with_reducible refine State.tookFree_keeps ?_) | (with_reducible refine State.shrinkLent_keeps ?_) | (with_reducible refine State.putReg_keeps ?_) | (with_reducible refine State.lendRefused_keeps ?_) | (with_reducible refine State.growLent_keeps ?_) | (with_reducible exact Op.keeps_none) | (with_reducible refine Op.keeps_some ?_) | (split) | (refine Op.keeps_of ?_ (by with_reducible assumption))

end Sys2Proof.Machine
end

