-- ==== Sys2Proof/Laws/KeepsSamples.lean ====
section
/-! SUPPORT. What the operations of Machine/Samples.lean keep. -/
namespace Sys2Proof.Machine
set_option Elab.async false

theorem State.bodyRead_keeps {s₀ s : State} {a : Access} {b : Body} {off n : Nat} (hk : Keeps s₀ s) : ExP.keeps s₀ (State.bodyRead s a b off n) := by
  unfold State.bodyRead; try dsimp only
  repeat' first | (with_reducible assumption) | (with_reducible refine State.vRead_keeps ?_) | (with_reducible exact ExP.keeps_error) | (with_reducible refine ExP.keeps_ok ?_) | (split) | (refine ExP.keeps_of ?_ (by with_reducible assumption))

theorem State.findBlock_keeps {s₀ s : State} {a : Access} {index local' : Nat} {x0 : Nat} {x1 : Nat} {x2 : Nat} (hk : Keeps s₀ s) : ExP.keeps s₀ (State.findBlock s a index local' x0 x1 x2) := by
  induction x0 generalizing s x1 x2 with
  | zero =>
    unfold State.findBlock; try dsimp only
    repeat' first | (with_reducible assumption) | (with_reducible refine State.vRead_keeps ?_) | (with_reducible exact ExP.keeps_error) | (with_reducible refine ExP.keeps_ok ?_) | (split) | (refine ExP.keeps_of ?_ (by with_reducible assumption))
  | succ l ih =>
    unfold State.findBlock; try dsimp only
    repeat' first | (with_reducible assumption) | (with_reducible refine ih ?_) | (with_reducible refine State.vRead_keeps ?_) | (with_reducible exact ExP.keeps_error) | (with_reducible refine ExP.keeps_ok ?_) | (split) | (refine ExP.keeps_of ?_ (by with_reducible assumption))

theorem State.openBlock_keeps {s₀ s : State} {a : Access} {hdr first local' : Nat} {b : List Byte} (hk : Keeps s₀ s) : ExP.keeps s₀ (State.openBlock s a hdr first local' b) := by
  unfold State.openBlock; try dsimp only
  repeat' first | (with_reducible assumption) | (with_reducible refine State.vRead_keeps ?_) | (with_reducible exact ExP.keeps_error) | (with_reducible refine ExP.keeps_ok ?_) | (split) | (refine ExP.keeps_of ?_ (by with_reducible assumption))

theorem State.findSample_keeps {s₀ s : State} {a : Access} {base bytes k need local' : Nat} (hk : Keeps s₀ s) : ExP.keeps s₀ (State.findSample s a base bytes k need local') := by
  unfold State.findSample; try dsimp only
  repeat' first | (with_reducible assumption) | (with_reducible refine State.vRead_keeps ?_) | (with_reducible refine State.findBlock_keeps ?_) | (with_reducible refine State.openBlock_keeps ?_) | (with_reducible exact ExP.keeps_error) | (with_reducible refine ExP.keeps_ok ?_) | (split) | (refine ExP.keeps_of ?_ (by with_reducible assumption))

theorem State.decodeRecord_keeps {s₀ s : State} {a : Access} {d : Draw} {entry head payload : List Byte} {m : Made} (hk : Keeps s₀ s) : ExP.keeps s₀ (State.decodeRecord s a d entry head payload m) := by
  unfold State.decodeRecord; try dsimp only
  repeat' first | (with_reducible assumption) | (with_reducible refine State.vRead_keeps ?_) | (with_reducible exact ExP.keeps_error) | (with_reducible refine ExP.keeps_ok ?_) | (split) | (refine ExP.keeps_of ?_ (by with_reducible assumption))

theorem State.records_keeps {s₀ s : State} {a : Access} {d : Draw} {f : Found} {x0 : List (List Byte)} {x1 : Nat} {x2 : Made} (hk : Keeps s₀ s) : ExP.keeps s₀ (State.records s a d f x0 x1 x2) := by
  induction x0 generalizing s x1 x2 with
  | nil =>
    unfold State.records; try dsimp only
    repeat' first | (with_reducible assumption) | (with_reducible refine State.bodyRead_keeps ?_) | (with_reducible refine State.decodeRecord_keeps ?_) | (with_reducible exact ExP.keeps_error) | (with_reducible refine ExP.keeps_ok ?_) | (with_reducible refine Op.keeps_getD ?_ ?_) | (split) | (refine ExP.keeps_of ?_ (by with_reducible assumption))
  | cons y l ih =>
    unfold State.records; try dsimp only
    repeat' first | (with_reducible assumption) | (with_reducible refine ih ?_) | (with_reducible refine State.bodyRead_keeps ?_) | (with_reducible refine State.decodeRecord_keeps ?_) | (with_reducible exact ExP.keeps_error) | (with_reducible refine ExP.keeps_ok ?_) | (with_reducible refine Op.keeps_getD ?_ ?_) | (split) | (refine ExP.keeps_of ?_ (by with_reducible assumption))

theorem State.makeSample_keeps {s₀ s : State} {a : Access} {d : Draw} {n : Nat} (hk : Keeps s₀ s) : ExP.keeps s₀ (State.makeSample s a d n) := by
  unfold State.makeSample; try dsimp only
  repeat' first | (with_reducible assumption) | (with_reducible refine State.findSample_keeps ?_) | (with_reducible refine State.bodyRead_keeps ?_) | (with_reducible refine State.records_keeps ?_) | (with_reducible exact ExP.keeps_error) | (with_reducible refine ExP.keeps_ok ?_) | (split) | (refine ExP.keeps_of ?_ (by with_reducible assumption))

end Sys2Proof.Machine
end

