-- ==== Sys2Proof/Laws/KeepsIntake.lean ====
section
/-! SUPPORT. What the operations of Machine/Intake.lean keep. -/
namespace Sys2Proof.Machine
set_option Elab.async false

theorem State.putDraw_keeps {s₀ s : State} {e c : Nat} {d : Draw} (hk : Keeps s₀ s) : Keeps s₀ (State.putDraw s e c d) := by
  unfold State.putDraw; try dsimp only
  repeat' first | (with_reducible assumption) | (with_reducible refine State.setDraws_keeps ?_) | (with_reducible refine State.putReg_keeps ?_) | (with_reducible refine State.count_keeps ?_) | (split)

theorem State.freeDraw_keeps {s₀ s : State} {e c : Nat} (hk : Keeps s₀ s) : Keeps s₀ (State.freeDraw s e c) := by
  unfold State.freeDraw; try dsimp only
  repeat' first | (with_reducible assumption) | (with_reducible refine State.setDraws_keeps ?_) | (with_reducible refine State.putReg_keeps ?_) | (split)

theorem State.freeDraws_keeps {s₀ s : State}  (hk : Keeps s₀ s) : Keeps s₀ (State.freeDraws s) := by
  unfold State.freeDraws; try dsimp only
  repeat' first | (with_reducible assumption) | (with_reducible refine State.freeDraw_keeps ?_) | (with_reducible refine foldl_keeps ?_ ?_; intro _ _ _) | (split)

theorem execIopen_keeps {s₀ s : State} {e : Nat} (hk : Keeps s₀ s) : Out.keeps s₀ (execIopen e s) := by
  unfold execIopen; try dsimp only
  repeat' first | (with_reducible assumption) | (with_reducible refine State.runCmd_keeps (fun _ _ _ _ => ?_) ?_) | (with_reducible refine State.vRead_keeps ?_) | (with_reducible refine State.count_keeps ?_) | (with_reducible refine State.putDraw_keeps ?_) | (with_reducible refine Out.keeps_next ?_) | (with_reducible exact Res.keeps_ill) | (with_reducible exact Res.keeps_illCommon) | (with_reducible exact Res.keeps_trap) | (with_reducible refine Res.keeps_done ?_) | (with_reducible refine Res.keeps_stay ?_) | (with_reducible exact ExP.keeps_error) | (with_reducible refine ExP.keeps_ok ?_) | (split) | (refine ExP.keeps_of ?_ (by with_reducible assumption)) | (refine Res.keeps_of_done ?_ (by with_reducible assumption))

theorem State.irunOver_keeps {s₀ s : State} {e : Nat} (hk : Keeps s₀ s) : Keeps s₀ (State.irunOver s e) := by
  unfold State.irunOver; try dsimp only
  repeat' first | (with_reducible assumption) | (with_reducible refine State.advance_keeps ?_) | (split)

theorem execIrun_keeps {s₀ s : State} {e : Nat} (hk : Keeps s₀ s) : Out.keeps s₀ (execIrun e s) := by
  unfold execIrun; try dsimp only
  repeat' first | (with_reducible assumption) | (with_reducible refine State.runCmd_keeps (fun _ _ _ _ => ?_) ?_) | (with_reducible refine State.count_keeps ?_) | (with_reducible refine State.modRun_keeps ?_) | (with_reducible refine Out.keeps_next ?_) | (with_reducible exact Res.keeps_ill) | (with_reducible exact Res.keeps_illCommon) | (with_reducible exact Res.keeps_trap) | (with_reducible refine Res.keeps_done ?_) | (with_reducible refine Res.keeps_stay ?_) | (split) | (refine Res.keeps_of_done ?_ (by with_reducible assumption))

theorem execIrunBudgetExpire_keeps {s₀ s : State} {e : Nat} (hk : Keeps s₀ s) : Out.keeps s₀ (execIrunBudgetExpire e s) := by
  unfold execIrunBudgetExpire; try dsimp only
  repeat' first | (with_reducible assumption) | (with_reducible refine State.irunOver_keeps ?_) | (with_reducible refine Out.keeps_next ?_) | (split)

theorem execIclose_keeps {s₀ s : State} {e : Nat} (hk : Keeps s₀ s) : Out.keeps s₀ (execIclose e s) := by
  unfold execIclose; try dsimp only
  repeat' first | (with_reducible assumption) | (with_reducible refine State.runCmd_keeps (fun _ _ _ _ => ?_) ?_) | (with_reducible refine State.freeDraw_keeps ?_) | (with_reducible refine Out.keeps_next ?_) | (with_reducible exact Res.keeps_ill) | (with_reducible exact Res.keeps_illCommon) | (with_reducible exact Res.keeps_trap) | (with_reducible refine Res.keeps_done ?_) | (with_reducible refine Res.keeps_stay ?_) | (split) | (refine Res.keeps_of_done ?_ (by with_reducible assumption))

theorem State.badSample_keeps {s₀ s : State} {e : Nat} {d : Draw} {x : Pick} {code kind : Nat} (hk : Keeps s₀ s) : Keeps s₀ (State.badSample s e d x code kind) := by
  unfold State.badSample; try dsimp only
  repeat' first | (with_reducible assumption) | (with_reducible refine State.tookFree_keeps ?_) | (with_reducible refine State.count_keeps ?_) | (with_reducible refine State.putReg_keeps ?_) | (with_reducible refine State.engineEvent_keeps ?_) | (split)

theorem State.sampleDone_keeps {s₀ s : State} {e c : Nat} {d : Draw} {x : Pick} {slot code kind steered bytes : Nat} (hk : Keeps s₀ s) : Keeps s₀ (State.sampleDone s e c d x slot code kind steered bytes) := by
  unfold State.sampleDone; try dsimp only
  repeat' first | (with_reducible assumption) | (with_reducible refine State.count_keeps ?_) | (with_reducible refine State.badSample_keeps ?_) | (with_reducible refine State.circular_keeps ?_) | (with_reducible refine State.putDraw_keeps ?_) | (with_reducible refine State.addOwnBuoy_keeps ?_) | (with_reducible refine State.irunOver_keeps ?_) | (split)

theorem State.checkSteered_keeps {s₀ s : State} {d : Draw} {x : Pick} {steered : Bool} (hk : Keeps s₀ s) : Keeps s₀ (State.checkSteered s d x steered) := by
  unfold State.checkSteered; try dsimp only
  repeat' first | (with_reducible assumption) | (with_reducible refine State.capStatus_keeps ?_) | (split)

theorem State.writeSample_keeps {s₀ s : State} {e c : Nat} {r : Run} {d : Draw} {x : Pick} {slot : Nat} {m : Made} (hk : Keeps s₀ s) : Keeps s₀ (State.writeSample s e c r d x slot m) := by
  unfold State.writeSample; try dsimp only
  repeat' first | (with_reducible assumption) | (with_reducible refine foldM_keeps (fun _ _ _ => ?_) ?_) | (with_reducible refine State.vStore_keeps ?_) | (with_reducible refine State.trapped_keeps ?_) | (with_reducible refine State.checkSteered_keeps ?_) | (with_reducible refine State.tookFree_keeps ?_) | (with_reducible refine State.sampleDone_keeps ?_) | (with_reducible exact Ex.keeps_error) | (with_reducible refine Ex.keeps_ok ?_) | (with_reducible refine Op.keeps_getD ?_ ?_) | (split) | (refine Ex.keeps_of ?_ (by with_reducible assumption))

theorem execSampleFinish_keeps {s₀ s : State} {e slot : Nat} (hk : Keeps s₀ s) : Out.keeps s₀ (execSampleFinish e slot s) := by
  unfold execSampleFinish; try dsimp only
  repeat' first | (with_reducible assumption) | (with_reducible refine State.trapped_keeps ?_) | (with_reducible refine State.capStatus_keeps ?_) | (with_reducible refine State.tookFree_keeps ?_) | (with_reducible refine State.writeSample_keeps ?_) | (with_reducible refine State.makeSample_keeps ?_) | (with_reducible refine Out.keeps_next ?_) | (with_reducible exact ExP.keeps_error) | (with_reducible refine ExP.keeps_ok ?_) | (split) | (refine ExP.keeps_of ?_ (by with_reducible assumption))

end Sys2Proof.Machine
end

