-- ==== Sys2Proof/Laws/KeepsKeeper.lean ====
section
/-! SUPPORT. What the operations of Machine/Keeper.lean keep. -/
namespace Sys2Proof.Machine
set_option Elab.async false

theorem State.chtStart_keeps {s₀ s : State} {op : ChtOp} (hk : Keeps s₀ s) : Keeps s₀ (State.chtStart s op) := by
  unfold State.chtStart; try dsimp only
  repeat' first | (with_reducible assumption) | (with_reducible refine State.install_keeps ?_) | (with_reducible refine State.noteRead_keeps ?_) | (with_reducible refine State.setBoot_keeps ?_) | (with_reducible refine State.putFld_keeps ?_) | (with_reducible refine State.clrBit_keeps ?_) | (split)

theorem State.chtRequest_keeps {s₀ s : State} {op : ChtOp} (hk : Keeps s₀ s) : Keeps s₀ (State.chtRequest s op) := by
  unfold State.chtRequest; try dsimp only
  repeat' first | (with_reducible assumption) | (with_reducible refine State.setBit_keeps ?_) | (with_reducible refine State.setBoot_keeps ?_) | (with_reducible refine State.chtStart_keeps ?_) | (split)

theorem State.chtEffect_keeps {s₀ s : State} {op : ChtOp} {slot : Nat} {image : List Byte} (hk : Keeps s₀ s) : Keeps s₀ (State.chtEffect s op slot image) := by
  unfold State.chtEffect; try dsimp only
  repeat' first | (with_reducible assumption) | (with_reducible refine State.setBoot_keeps ?_) | (with_reducible refine State.putReg_keeps ?_) | (with_reducible refine State.putFld_keeps ?_) | (with_reducible refine State.install_keeps ?_) | (with_reducible refine State.invalidate_keeps ?_) | (with_reducible refine State.warmReset_keeps ?_) | (split)

theorem execChtCommandEnd_keeps {s₀ s : State}  (hk : Keeps s₀ s) : Out.keeps s₀ (execChtCommandEnd s) := by
  unfold execChtCommandEnd; try dsimp only
  repeat' first | (with_reducible assumption) | (with_reducible refine State.setBoot_keeps ?_) | (with_reducible refine State.chtEffect_keeps ?_) | (with_reducible refine State.clrBit_keeps ?_) | (with_reducible refine State.putFld_keeps ?_) | (with_reducible refine State.chtStart_keeps ?_) | (with_reducible refine Out.keeps_next ?_) | (split)

theorem State.answer_keeps {s₀ s : State} {m : KeeperSource} {w : Word} (hk : Keeps s₀ s) : Keeps s₀ (State.answer s m w) := by
  unfold State.answer; try dsimp only
  repeat' first | (with_reducible assumption) | (with_reducible refine State.putMbox_keeps ?_) | (with_reducible refine State.setBoot_keeps ?_) | (split)

theorem execKeeperReply_keeps {s₀ s : State} {p : Nat} (hk : Keeps s₀ s) : Out.keeps s₀ (execKeeperReply p s) := by
  unfold execKeeperReply; try dsimp only
  repeat' first | (with_reducible assumption) | (with_reducible refine State.setBoot_keeps ?_) | (with_reducible refine State.answer_keeps ?_) | (with_reducible refine Out.keeps_next ?_) | (split)

theorem State.takeMessage_keeps {s₀ s : State} {m : KeeperSource} (hk : Keeps s₀ s) : Keeps s₀ (State.takeMessage s m) := by
  unfold State.takeMessage; try dsimp only
  repeat' first | (with_reducible assumption) | (with_reducible refine State.putMbox_keeps ?_) | (split)

theorem State.handle_keeps {s₀ s : State} {m : KeeperSource} {op : Nat} {body : Nat → State → State}
    (hb : ∀ e t, Keeps s₀ t → Keeps s₀ (body e t)) (h : Keeps s₀ s) : Keeps s₀ (State.handle s m op body) := by
  unfold State.handle
  cases s.offered m with
  | none => exact h
  | some e =>
    dsimp only [Option.elim]
    split
    · exact hb _ _ (State.takeMessage_keeps h)
    · split
      · exact h
      · exact State.tookFree_keeps (State.answer_keeps (State.takeMessage_keeps h))

theorem execPing_keeps {s₀ s : State} {m : KeeperSource} (hk : Keeps s₀ s) : Out.keeps s₀ (execPing m s) := by
  unfold execPing; try dsimp only
  repeat' first | (with_reducible assumption) | (with_reducible refine State.handle_keeps (fun _ _ _ => ?_) ?_) | (with_reducible refine State.answer_keeps ?_) | (with_reducible refine Out.keeps_next ?_) | (split)

theorem execIdentity_keeps {s₀ s : State} {m : KeeperSource} (hk : Keeps s₀ s) : Out.keeps s₀ (execIdentity m s) := by
  unfold execIdentity; try dsimp only
  repeat' first | (with_reducible assumption) | (with_reducible refine State.handle_keeps (fun _ _ _ => ?_) ?_) | (with_reducible refine State.tookFree_keeps ?_) | (with_reducible refine State.answer_keeps ?_) | (with_reducible refine State.wrMem_keeps ?_) | (with_reducible refine Out.keeps_next ?_) | (with_reducible refine Op.keeps_getD ?_ ?_) | (split)

theorem State.openDebug_keeps {s₀ s : State}  (hk : Keeps s₀ s) : Keeps s₀ (State.openDebug s) := by
  unfold State.openDebug; try dsimp only
  repeat' first | (with_reducible assumption) | (with_reducible refine State.setBit_keeps ?_) | (with_reducible refine State.setBoot_keeps ?_) | (with_reducible refine State.terminate_keeps ?_) | (with_reducible refine State.setAdm_keeps ?_) | (with_reducible refine State.setEng_keeps ?_) | (with_reducible refine State.setExp_keeps ?_) | (with_reducible refine State.setDraws_keeps ?_) | (with_reducible refine State.setProbe_keeps ?_) | (with_reducible refine foldl_keeps ?_ ?_; intro _ _ _) | (split)

theorem execDebugOpen_keeps {s₀ s : State} {m : KeeperSource} (hk : Keeps s₀ s) : Out.keeps s₀ (execDebugOpen m s) := by
  unfold execDebugOpen; try dsimp only
  repeat' first | (with_reducible assumption) | (with_reducible refine State.handle_keeps (fun _ _ _ => ?_) ?_) | (with_reducible refine State.answer_keeps ?_) | (with_reducible refine State.tookFree_keeps ?_) | (with_reducible refine State.noteRead_keeps ?_) | (with_reducible refine State.putReg_keeps ?_) | (with_reducible refine State.openDebug_keeps ?_) | (with_reducible refine Out.keeps_next ?_) | (split)

theorem execDebugOpened_keeps {s₀ s : State}  (hk : Keeps s₀ s) : Out.keeps s₀ (execDebugOpened s) := by
  unfold execDebugOpened; try dsimp only
  repeat' first | (with_reducible assumption) | (with_reducible refine State.eraseDone_keeps ?_) | (with_reducible refine State.setBoot_keeps ?_) | (with_reducible refine Out.keeps_next ?_) | (split)

theorem execSbReplyRead_keeps {s₀ s : State}  (hk : Keeps s₀ s) : Out.keeps s₀ (execSbReplyRead s) := by
  unfold execSbReplyRead; try dsimp only
  repeat' first | (with_reducible assumption) | (with_reducible refine State.setResp_keeps ?_) | (with_reducible refine State.setBoot_keeps ?_) | (with_reducible refine Out.keeps_next ?_) | (split)

theorem State.provision_keeps {s₀ s : State} {block : List Nat} (hk : Keeps s₀ s) : Keeps s₀ (State.provision s block) := by
  unfold State.provision; try dsimp only
  repeat' first | (with_reducible assumption) | (with_reducible refine State.setBoot_keeps ?_) | (with_reducible refine State.putFld_keeps ?_) | (with_reducible refine State.tookFree_keeps ?_) | (with_reducible refine State.setBit_keeps ?_) | (with_reducible refine State.clrBit_keeps ?_) | (with_reducible refine foldl_keeps ?_ ?_; intro _ _ _) | (split)

theorem State.blockEnd_keeps {s₀ s : State} {entry : Nat} {block : List Nat} (hk : Keeps s₀ s) : Keeps s₀ (State.blockEnd s entry block) := by
  unfold State.blockEnd; try dsimp only
  repeat' first | (with_reducible assumption) | (with_reducible refine State.setBoot_keeps ?_) | (with_reducible refine State.answer_keeps ?_) | (with_reducible refine State.tookFree_keeps ?_) | (with_reducible refine State.provision_keeps ?_) | (split)

theorem State.blockData_keeps {s₀ s : State} {entry : Nat} {have' raw : List Nat} (hk : Keeps s₀ s) : Keeps s₀ (State.blockData s entry have' raw) := by
  unfold State.blockData; try dsimp only
  repeat' first | (with_reducible assumption) | (with_reducible refine State.blockEnd_keeps ?_) | (with_reducible refine State.setBoot_keeps ?_) | (split)

theorem execSbBlock_keeps {s₀ s : State} {entry : Nat} {raw : List Nat} (hk : Keeps s₀ s) : Out.keeps s₀ (execSbBlock entry raw s) := by
  unfold execSbBlock; try dsimp only
  repeat' first | (with_reducible assumption) | (with_reducible refine State.blockData_keeps ?_) | (with_reducible refine Out.keeps_next ?_) | (split)

theorem execSbBlockTimeout_keeps {s₀ s : State}  (hk : Keeps s₀ s) : Out.keeps s₀ (execSbBlockTimeout s) := by
  unfold execSbBlockTimeout; try dsimp only
  repeat' first | (with_reducible assumption) | (with_reducible refine State.setBoot_keeps ?_) | (with_reducible refine State.answer_keeps ?_) | (with_reducible refine State.tookFree_keeps ?_) | (with_reducible refine Out.keeps_next ?_) | (split)

end Sys2Proof.Machine
end

