-- ==== Sys2Proof/Laws/KeepsLogbook.lean ====
section
/-! SUPPORT. What the operations of Machine/Logbook.lean keep. -/
namespace Sys2Proof.Machine
set_option Elab.async false

theorem State.writeTrace_keeps {s₀ s : State} {die : Nat} {bs : List Byte} (hk : Keeps s₀ s) : Keeps s₀ (State.writeTrace s die bs) := by
  unfold State.writeTrace; try dsimp only
  repeat' first | (with_reducible assumption) | (with_reducible refine State.wrMem_keeps ?_) | (with_reducible refine State.count_keeps ?_) | (with_reducible refine State.dropTrace_keeps ?_) | (split)

theorem execLogEventReceive_keeps {s₀ s : State} {die : Nat} (hk : Keeps s₀ s) : Out.keeps s₀ (execLogEventReceive die s) := by
  unfold execLogEventReceive; try dsimp only
  repeat' first | (with_reducible assumption) | (with_reducible refine State.setLog_keeps ?_) | (with_reducible refine State.event_keeps ?_) | (with_reducible refine State.keepEvent_keeps ?_) | (with_reducible refine State.trace_keeps ?_) | (with_reducible refine State.writeTrace_keeps ?_) | (with_reducible refine Out.keeps_next ?_) | (split)

theorem execLogWindowEnd_keeps {s₀ s : State}  (hk : Keeps s₀ s) : Out.keeps s₀ (execLogWindowEnd s) := by
  unfold execLogWindowEnd; try dsimp only
  repeat' first | (with_reducible assumption) | (with_reducible refine State.logRecord_keeps ?_) | (with_reducible refine State.setLog_keeps ?_) | (with_reducible refine Out.keeps_next ?_) | (with_reducible refine foldl_keeps ?_ ?_; intro _ _ _) | (split)

theorem execIncidentClose_keeps {s₀ s : State}  (hk : Keeps s₀ s) : Out.keeps s₀ (execIncidentClose s) := by
  unfold execIncidentClose; try dsimp only
  repeat' first | (with_reducible assumption) | (with_reducible refine State.closeIncident_keeps ?_) | (with_reducible refine Out.keeps_next ?_) | (split)

theorem State.selectLog_keeps {s₀ s : State}  (hk : Keeps s₀ s) : Keeps s₀ (State.selectLog s) := by
  unfold State.selectLog; try dsimp only
  repeat' first | (with_reducible assumption) | (with_reducible refine State.clrBit_keeps ?_) | (with_reducible refine State.setLog_keeps ?_) | (split)

theorem State.putWords_keeps {s₀ s : State} {key : Nat → Nat} {bs : List Byte} {x0 : Nat} (hk : Keeps s₀ s) : Keeps s₀ (State.putWords s key bs x0) := by
  induction x0 generalizing s with
  | zero =>
    unfold State.putWords; try dsimp only
    repeat' first | (with_reducible assumption) | (with_reducible refine State.putReg_keeps ?_) | (split)
  | succ l ih =>
    unfold State.putWords; try dsimp only
    repeat' first | (with_reducible assumption) | (with_reducible refine ih ?_) | (with_reducible refine State.putReg_keeps ?_) | (split)

theorem execLogReadReady_keeps {s₀ s : State}  (hk : Keeps s₀ s) : Out.keeps s₀ (execLogReadReady s) := by
  unfold execLogReadReady; try dsimp only
  repeat' first | (with_reducible assumption) | (with_reducible refine State.putWords_keeps ?_) | (with_reducible refine State.setBit_keeps ?_) | (with_reducible refine State.setLog_keeps ?_) | (with_reducible refine Out.keeps_next ?_) | (split)

end Sys2Proof.Machine
end

