-- ==== Sys2Proof/Laws/KeepsPcie.lean ====
section
/-! SUPPORT. What the operations of Machine/Pcie.lean keep. -/
namespace Sys2Proof.Machine
set_option Elab.async false

theorem State.fenceRead_keeps {s₀ s : State} {port : Nat} (hk : Keeps s₀ s) : Keeps s₀ (State.fenceRead s port) := by
  unfold State.fenceRead; try dsimp only
  repeat' first | (with_reducible assumption) | (with_reducible refine State.setPcie_keeps ?_) | (split)

theorem execFenceRead_keeps {s₀ s : State} {port : Nat} (hk : Keeps s₀ s) : Out.keeps s₀ (execFenceRead port s) := by
  unfold execFenceRead; try dsimp only
  repeat' first | (with_reducible assumption) | (with_reducible refine State.fenceRead_keeps ?_) | (with_reducible refine Out.keeps_next ?_) | (split)

theorem execFenceReadComplete_keeps {s₀ s : State} {port : Nat} (hk : Keeps s₀ s) : Out.keeps s₀ (execFenceReadComplete port s) := by
  unfold execFenceReadComplete; try dsimp only
  repeat' first | (with_reducible assumption) | (with_reducible refine State.setPcie_keeps ?_) | (with_reducible refine State.setResp_keeps ?_) | (with_reducible refine Out.keeps_next ?_) | (split)

theorem State.complete_keeps {s₀ s : State} {port : Nat} {bad : Bool} {bs : List Byte} (hk : Keeps s₀ s) : Keeps s₀ (State.complete s port bad bs) := by
  unfold State.complete; try dsimp only
  repeat' first | (with_reducible assumption) | (with_reducible refine State.setPcie_keeps ?_) | (with_reducible refine State.setResp_keeps ?_) | (with_reducible exact Res.keeps_ill) | (with_reducible exact Res.keeps_illCommon) | (with_reducible exact Res.keeps_trap) | (with_reducible refine Res.keeps_done ?_) | (with_reducible refine Res.keeps_stay ?_) | (split) | (refine Res.keeps_of_done ?_ (by with_reducible assumption))

theorem State.outRead_keeps {s₀ s : State} {port : Nat} {a : Agent} {bus len : Nat} (hk : Keeps s₀ s) : Keeps s₀ (State.outRead s port a bus len) := by
  unfold State.outRead; try dsimp only
  repeat' first | (with_reducible assumption) | (with_reducible refine State.setPcie_keeps ?_) | (split)

theorem State.outWrite_keeps {s₀ s : State} {port bus : Nat} {bs : List Byte} (hk : Keeps s₀ s) : Keeps s₀ (State.outWrite s port bus bs) := by
  unfold State.outWrite; try dsimp only
  repeat' first | (with_reducible assumption) | (with_reducible refine State.setPcie_keeps ?_) | (split)

theorem execOutboundWindowAccess_keeps {s₀ s : State} {a : Agent} {addr : Nat} {write : Bool} {data : List Byte} (hk : Keeps s₀ s) : Out.keeps s₀ (execOutboundWindowAccess a addr write data s) := by
  unfold execOutboundWindowAccess; try dsimp only
  repeat' first | (with_reducible assumption) | (with_reducible refine State.outWrite_keeps ?_) | (with_reducible refine State.outRead_keeps ?_) | (with_reducible refine Out.keeps_next ?_) | (split)

theorem State.readPoisoned_keeps {s₀ s : State} {r : OutRead} (hk : Keeps s₀ s) : Keeps s₀ (State.readPoisoned s r) := by
  unfold State.readPoisoned; try dsimp only
  repeat' first | (with_reducible assumption) | (with_reducible refine State.count_keeps ?_) | (with_reducible refine State.consumedBy_keeps ?_) | (with_reducible refine State.complete_keeps ?_) | (split)

theorem State.readDone_keeps {s₀ s : State} {r : OutRead} {data : List Byte} (hk : Keeps s₀ s) : Keeps s₀ (State.readDone s r data) := by
  unfold State.readDone; try dsimp only
  repeat' first | (with_reducible assumption) | (with_reducible refine State.complete_keeps ?_) | (with_reducible refine State.setResp_keeps ?_) | (split)

theorem State.closeRead_keeps {s₀ s : State} {r : OutRead} (hk : Keeps s₀ s) : Keeps s₀ (State.closeRead s r) := by
  unfold State.closeRead; try dsimp only
  repeat' first | (with_reducible assumption) | (with_reducible refine State.setPcie_keeps ?_) | (split)

theorem execPcieReadTimeout_keeps {s₀ s : State} {port tag : Nat} (hk : Keeps s₀ s) : Out.keeps s₀ (execPcieReadTimeout port tag s) := by
  unfold execPcieReadTimeout; try dsimp only
  repeat' first | (with_reducible assumption) | (with_reducible refine State.closeRead_keeps ?_) | (with_reducible refine State.readPoisoned_keeps ?_) | (with_reducible refine Out.keeps_next ?_) | (split)

theorem execOutboundReadCompletion_keeps {s₀ s : State} {port tag : Nat} {ok : Bool} {data : List Byte} (hk : Keeps s₀ s) : Out.keeps s₀ (execOutboundReadCompletion port tag ok data s) := by
  unfold execOutboundReadCompletion; try dsimp only
  repeat' first | (with_reducible assumption) | (with_reducible refine State.closeRead_keeps ?_) | (with_reducible refine State.readDone_keeps ?_) | (with_reducible refine State.readPoisoned_keeps ?_) | (with_reducible refine Out.keeps_next ?_) | (split)

theorem State.refuseInbound_keeps {s₀ s : State} {port : Nat} {kind : PcieKind} {len : Nat} (hk : Keeps s₀ s) : Keeps s₀ (State.refuseInbound s port kind len) := by
  unfold State.refuseInbound; try dsimp only
  repeat' first | (with_reducible assumption) | (with_reducible refine State.count_keeps ?_) | (with_reducible refine State.complete_keeps ?_) | (split)

theorem State.relay_keeps {s₀ s : State} {port : Nat} {kind : PcieKind} {addr len : Nat} {data : List Byte} (hk : Keeps s₀ s) : Keeps s₀ (State.relay s port kind addr len data) := by
  unfold State.relay; try dsimp only
  repeat' first | (with_reducible assumption) | (with_reducible refine State.refuseInbound_keeps ?_) | (with_reducible refine State.outWrite_keeps ?_) | (with_reducible refine State.outRead_keeps ?_) | (split)

theorem execPcieRelay_keeps {s₀ s : State} {port : Nat} {kind : PcieKind} {addr len : Nat} {data : List Byte} (hk : Keeps s₀ s) : Out.keeps s₀ (execPcieRelay port kind addr len data s) := by
  unfold execPcieRelay; try dsimp only
  repeat' first | (with_reducible assumption) | (with_reducible refine State.relay_keeps ?_) | (with_reducible refine Out.keeps_next ?_) | (split)

theorem State.regionInv_keeps {s₀ s : State}  (hk : Keeps s₀ s) : Keeps s₀ (State.regionInv s) := by
  unfold State.regionInv; try dsimp only
  repeat' first | (with_reducible assumption) | (with_reducible refine State.setPcie_keeps ?_) | (with_reducible refine State.setBit_keeps ?_) | (split)

theorem execRegionInvComplete_keeps {s₀ s : State}  (hk : Keeps s₀ s) : Out.keeps s₀ (execRegionInvComplete s) := by
  unfold execRegionInvComplete; try dsimp only
  repeat' first | (with_reducible assumption) | (with_reducible refine State.setPcie_keeps ?_) | (with_reducible refine State.clrBit_keeps ?_) | (with_reducible refine Out.keeps_next ?_) | (split)

theorem execDownstreamMsi_keeps {s₀ s : State} {_port hart eiid : Nat} (hk : Keeps s₀ s) : Out.keeps s₀ (execDownstreamMsi _port hart eiid s) := by
  unfold execDownstreamMsi; try dsimp only
  repeat' first | (with_reducible assumption) | (with_reducible refine State.setPcie_keeps ?_) | (with_reducible refine Out.keeps_next ?_) | (split)

theorem execEpochTick_keeps {s₀ s : State}  (hk : Keeps s₀ s) : Out.keeps s₀ (execEpochTick s) := by
  unfold execEpochTick; try dsimp only
  repeat' first | (with_reducible assumption) | (with_reducible refine State.count_keeps ?_) | (with_reducible refine State.setLnk_keeps ?_) | (with_reducible refine State.setFree_keeps ?_) | (with_reducible refine Out.keeps_next ?_) | (split)

end Sys2Proof.Machine
end

