-- ==== Sys2Proof/Laws/KeepsMmu.lean ====
section
/-! SUPPORT. What the operations of Machine/Mmu.lean keep. -/
namespace Sys2Proof.Machine
set_option Elab.async false

theorem State.showWalkers_keeps {s₀ s : State} {d : Nat} (hk : Keeps s₀ s) : Keeps s₀ (State.showWalkers s d) := by
  unfold State.showWalkers; try dsimp only
  repeat' first | (with_reducible assumption) | (with_reducible refine State.putFld_keeps ?_) | (split)

theorem State.startWalk_keeps {s₀ s : State} {w : Walk} (hk : Keeps s₀ s) : Keeps s₀ (State.startWalk s w) := by
  unfold State.startWalk; try dsimp only
  repeat' first | (with_reducible assumption) | (with_reducible refine State.setMmu_keeps ?_) | (with_reducible refine State.count_keeps ?_) | (with_reducible refine State.showWalkers_keeps ?_) | (split)

theorem execTlbMiss_keeps {s₀ s : State} {e va acc : Nat} (hk : Keeps s₀ s) : Out.keeps s₀ (execTlbMiss e va acc s) := by
  unfold execTlbMiss; try dsimp only
  repeat' first | (with_reducible assumption) | (with_reducible refine State.count_keeps ?_) | (with_reducible refine State.startWalk_keeps ?_) | (with_reducible refine State.setMmu_keeps ?_) | (with_reducible refine Out.keeps_next ?_) | (split)

theorem State.noteWalk_keeps {s₀ s : State} {w : Walk} (hk : Keeps s₀ s) : Keeps s₀ (State.noteWalk s w) := by
  unfold State.noteWalk; try dsimp only
  repeat' first | (with_reducible assumption) | (with_reducible refine State.noteRead_keeps ?_) | (with_reducible refine foldl_keeps ?_ ?_; intro _ _ _) | (split)

theorem State.install_keeps {s₀ s : State} {w : Walk} {l : Leaf} (hk : Keeps s₀ s) : Keeps s₀ (State.install s w l) := by
  unfold State.install; try dsimp only
  repeat' first | (with_reducible assumption) | (with_reducible refine State.setMmu_keeps ?_) | (split)

theorem State.settleWalkers_keeps {s₀ s : State} {d : Nat} (hk : Keeps s₀ s) : Keeps s₀ (State.settleWalkers s d) := by
  unfold State.settleWalkers; try dsimp only
  repeat' first | (with_reducible assumption) | (with_reducible refine State.setDeferred_keeps ?_) | (split)

theorem State.nextMiss_keeps {s₀ s : State} {d : Nat} (hk : Keeps s₀ s) : Keeps s₀ (State.nextMiss s d) := by
  unfold State.nextMiss; try dsimp only
  repeat' first | (with_reducible assumption) | (with_reducible refine State.setMmu_keeps ?_) | (with_reducible refine State.startWalk_keeps ?_) | (split)

theorem State.walkFault_keeps {s₀ s : State} {w : Walk} {res : Except (Nat × Nat) Leaf} (hk : Keeps s₀ s) : Keeps s₀ (State.walkFault s w res) := by
  unfold State.walkFault; try dsimp only
  repeat' first | (with_reducible assumption) | (with_reducible refine State.faultSlot_keeps ?_) | (split)

theorem execWalkComplete_keeps {s₀ s : State} {walk : Nat} (hk : Keeps s₀ s) : Out.keeps s₀ (execWalkComplete walk s) := by
  unfold execWalkComplete; try dsimp only
  repeat' first | (with_reducible assumption) | (with_reducible refine State.setMmu_keeps ?_) | (with_reducible refine State.noteWalk_keeps ?_) | (with_reducible refine State.putFld_keeps ?_) | (with_reducible refine State.tookFree_keeps ?_) | (with_reducible refine State.install_keeps ?_) | (with_reducible refine State.settleWalkers_keeps ?_) | (with_reducible refine State.nextMiss_keeps ?_) | (with_reducible refine State.showWalkers_keeps ?_) | (with_reducible refine State.walkFault_keeps ?_) | (with_reducible refine Out.keeps_next ?_) | (with_reducible exact Res.keeps_ill) | (with_reducible exact Res.keeps_illCommon) | (with_reducible exact Res.keeps_trap) | (with_reducible refine Res.keeps_done ?_) | (with_reducible refine Res.keeps_stay ?_) | (split) | (refine Res.keeps_of_done ?_ (by with_reducible assumption))

theorem execSpillCopyDone_keeps {s₀ s : State} {e : Nat} (hk : Keeps s₀ s) : Out.keeps s₀ (execSpillCopyDone e s) := by
  unfold execSpillCopyDone; try dsimp only
  repeat' first | (with_reducible assumption) | (with_reducible refine State.pStore_keeps ?_) | (with_reducible refine State.setEng_keeps ?_) | (with_reducible refine State.tookFree_keeps ?_) | (with_reducible refine Out.keeps_next ?_) | (with_reducible exact Op.keeps_none) | (with_reducible refine Op.keeps_some ?_) | (with_reducible refine Op.keeps_getD ?_ ?_) | (split) | (refine Op.keeps_of ?_ (by with_reducible assumption))

theorem State.abortSlot_keeps {s₀ s : State} {p k : Nat} {engine : Nat} {r : Run} (hk : Keeps s₀ s) : Keeps s₀ (State.abortSlot s p k engine r) := by
  unfold State.abortSlot; try dsimp only
  repeat' first | (with_reducible assumption) | (with_reducible refine State.setEng_keeps ?_) | (with_reducible refine State.modPlan_keeps ?_) | (with_reducible refine State.failPlan_keeps ?_) | (with_reducible refine State.planEnd_keeps ?_) | (with_reducible refine State.settleSpill_keeps ?_) | (with_reducible exact Res.keeps_ill) | (with_reducible exact Res.keeps_illCommon) | (with_reducible exact Res.keeps_trap) | (with_reducible refine Res.keeps_done ?_) | (with_reducible refine Res.keeps_stay ?_) | (split) | (refine Res.keeps_of_done ?_ (by with_reducible assumption))

theorem State.resumeHeld_keeps {s₀ s : State} {p k : Nat} {abort : Bool} (hk : Keeps s₀ s) : Keeps s₀ (State.resumeHeld s p k abort) := by
  unfold State.resumeHeld; try dsimp only
  repeat' first | (with_reducible assumption) | (with_reducible refine State.abortSlot_keeps ?_) | (with_reducible refine State.setEng_keeps ?_) | (with_reducible refine execSpillCopyDone_keeps ?_) | (with_reducible refine State.setBit_keeps ?_) | (with_reducible refine Out.keeps_next ?_) | (split) | (refine Out.keeps_of ?_ (by with_reducible assumption))

theorem State.invalidate_keeps {s₀ s : State} {p : Nat} (hk : Keeps s₀ s) : Keeps s₀ (State.invalidate s p) := by
  unfold State.invalidate; try dsimp only
  repeat' first | (with_reducible assumption) | (with_reducible refine State.setMmu_keeps ?_) | (with_reducible refine State.setBit_keeps ?_) | (split)

theorem execInvalidateComplete_keeps {s₀ s : State} {p : Nat} (hk : Keeps s₀ s) : Out.keeps s₀ (execInvalidateComplete p s) := by
  unfold execInvalidateComplete; try dsimp only
  repeat' first | (with_reducible assumption) | (with_reducible refine State.setMmu_keeps ?_) | (with_reducible refine State.clrBit_keeps ?_) | (with_reducible refine Out.keeps_next ?_) | (split)

theorem execTrackerEntryFree_keeps {s₀ s : State} {die : Nat} (hk : Keeps s₀ s) : Out.keeps s₀ (execTrackerEntryFree die s) := by
  unfold execTrackerEntryFree; try dsimp only
  repeat' first | (with_reducible assumption) | (with_reducible refine State.setTracker_keeps ?_) | (with_reducible refine State.count_keeps ?_) | (with_reducible refine State.tookFree_keeps ?_) | (with_reducible refine Out.keeps_next ?_) | (split)

theorem State.probeGo_keeps {s₀ s : State}  (hk : Keeps s₀ s) : Keeps s₀ (State.probeGo s) := by
  unfold State.probeGo; try dsimp only
  repeat' first | (with_reducible assumption) | (with_reducible refine State.setProbe_keeps ?_) | (with_reducible refine State.putReg_keeps ?_) | (with_reducible refine State.setBit_keeps ?_) | (split)

theorem execProbeDone_keeps {s₀ s : State} {lo hi mean : Nat} (hk : Keeps s₀ s) : Out.keeps s₀ (execProbeDone lo hi mean s) := by
  unfold execProbeDone; try dsimp only
  repeat' first | (with_reducible assumption) | (with_reducible refine State.setProbe_keeps ?_) | (with_reducible refine State.clrBit_keeps ?_) | (with_reducible refine State.putReg_keeps ?_) | (with_reducible refine State.count_keeps ?_) | (with_reducible refine Out.keeps_next ?_) | (split)

end Sys2Proof.Machine
end

