-- ==== Sys2Proof/Laws/KeepsRegAccess.lean ====
section
/-! SUPPORT. What the operations of Machine/RegAccess.lean keep. -/
namespace Sys2Proof.Machine
set_option Elab.async false

theorem State.regViolation_keeps {s₀ s : State} {x : RegAcc} {kind : Nat} (hk : Keeps s₀ s) : Keeps s₀ (State.regViolation s x kind) := by
  unfold State.regViolation; try dsimp only
  repeat' first | (with_reducible assumption) | (with_reducible refine State.violation_keeps ?_) | (with_reducible refine State.tookFree_keeps ?_) | (split)

theorem State.regRead_keeps {s₀ s : State} {x : RegAcc} (hk : Keeps s₀ s) : Pr.keeps s₀ (State.regRead s x) := by
  unfold State.regRead; try dsimp only
  repeat' first | (with_reducible assumption) | (with_reducible refine State.regViolation_keeps ?_) | (with_reducible refine State.someTick_keeps ?_) | (with_reducible refine Pr.keeps_fst (State.takeMail_keeps ?_)) | (with_reducible refine State.takeMail_keeps ?_) | (with_reducible refine State.putReg_keeps ?_) | (with_reducible refine State.tookFree_keeps ?_) | (with_reducible refine Op.keeps_getD ?_ ?_) | (split) | (with_reducible refine Pr.keeps_mk ?_) | (refine Pr.keeps_of ?_ (by with_reducible assumption))

end Sys2Proof.Machine
end

