-- ==== Sys2Proof/Laws/KeepsWatchStart.lean ====
section
/-! SUPPORT. What the operations of Machine/WatchStart.lean keep. -/
namespace Sys2Proof.Machine
set_option Elab.async false

theorem State.flashWatch_keeps {s₀ s : State}  (hk : Keeps s₀ s) : Keeps s₀ (State.flashWatch s) := by
  unfold State.flashWatch; try dsimp only
  repeat' first | (with_reducible assumption) | (with_reducible refine State.setFlash_keeps ?_) | (with_reducible refine State.setCredit_keeps ?_) | (with_reducible refine State.govern_keeps ?_) | (split)

theorem execWatchStart_keeps {s₀ s : State}  (hk : Keeps s₀ s) : Out.keeps s₀ (execWatchStart s) := by
  unfold execWatchStart; try dsimp only
  repeat' first | (with_reducible assumption) | (with_reducible refine State.tbWatch_keeps ?_) | (with_reducible refine State.pwrWatch_keeps ?_) | (with_reducible refine State.setWatch_keeps ?_) | (with_reducible refine State.putFld_keeps ?_) | (with_reducible refine State.setTiers_keeps ?_) | (with_reducible refine State.setDeferred_keeps ?_) | (with_reducible refine State.flashWatch_keeps ?_) | (with_reducible refine Out.keeps_next ?_) | (split)

theorem execExpertSettingApply_keeps {s₀ s : State}  (hk : Keeps s₀ s) : Out.keeps s₀ (execExpertSettingApply s) := by
  unfold execExpertSettingApply; try dsimp only
  repeat' first | (with_reducible assumption) | (with_reducible refine State.setDeferred_keeps ?_) | (with_reducible refine Out.keeps_next ?_) | (split)

end Sys2Proof.Machine
end

