-- ==== Sys2Proof/Laws/KeepsRegWrite.lean ====
section
/-! SUPPORT. What the operations of Machine/RegWrite.lean keep. -/
namespace Sys2Proof.Machine
set_option Elab.async false

theorem State.defer_keeps {s₀ s : State} {key watch : Nat} (hk : Keeps s₀ s) : Keeps s₀ (State.defer s key watch) := by
  unfold State.defer; try dsimp only
  repeat' first | (with_reducible assumption) | (with_reducible refine State.setDeferred_keeps ?_) | (split)

theorem State.deferPlans_keeps {s₀ s : State} {key : Nat} (hk : Keeps s₀ s) : Keeps s₀ (State.deferPlans s key) := by
  unfold State.deferPlans; try dsimp only
  repeat' first | (with_reducible assumption) | (with_reducible refine State.defer_keeps ?_) | (with_reducible refine State.tookFree_keeps ?_) | (split)

theorem State.beforeWrite_keeps {s₀ s : State} {h : Hit} {w : Word} (hk : Keeps s₀ s) : Keeps s₀ (State.beforeWrite s h w) := by
  unfold State.beforeWrite; try dsimp only
  repeat' first | (with_reducible assumption) | (with_reducible refine State.settleDue_keeps ?_) | (with_reducible refine State.defer_keeps ?_) | (with_reducible refine State.setDeferred_keeps ?_) | (with_reducible refine State.deferPlans_keeps ?_) | (with_reducible exact Res.keeps_ill) | (with_reducible exact Res.keeps_illCommon) | (with_reducible exact Res.keeps_trap) | (with_reducible refine Res.keeps_done ?_) | (with_reducible refine Res.keeps_stay ?_) | (with_reducible refine Op.keeps_getD ?_ ?_) | (split) | (refine Res.keeps_of_done ?_ (by with_reducible assumption))

theorem State.ring_keeps {s₀ s : State} {p d : Nat} (hk : Keeps s₀ s) : Keeps s₀ (State.ring s p d) := by
  unfold State.ring; try dsimp only
  repeat' first | (with_reducible assumption) | (with_reducible refine State.waitCycles_keeps ?_) | (with_reducible refine State.showDoorbell_keeps ?_) | (with_reducible refine State.tookFree_keeps ?_) | (with_reducible refine State.setEng_keeps ?_) | (with_reducible refine foldl_keeps ?_ ?_; intro _ _ _) | (split)

theorem State.afterWrite_keeps {s₀ s : State} {x : RegAcc} {h : Hit} {old : Word} (hk : Keeps s₀ s) : Keeps s₀ (State.afterWrite s x h old) := by
  unfold State.afterWrite; try dsimp only
  repeat' first | (with_reducible assumption) | (with_reducible refine State.clearRegs_keeps ?_) | (with_reducible refine State.probeGo_keeps ?_) | (with_reducible refine State.chtRequest_keeps ?_) | (with_reducible refine State.joinAs_keeps ?_) | (with_reducible refine State.putReg_keeps ?_) | (with_reducible refine State.cancelPlan_keeps ?_) | (with_reducible refine State.submit_keeps ?_) | (with_reducible refine State.setPwr_keeps ?_) | (with_reducible refine State.selectLog_keeps ?_) | (with_reducible refine State.ftsGo_keeps ?_) | (with_reducible refine State.invalidate_keeps ?_) | (with_reducible refine State.resumeHeld_keeps ?_) | (with_reducible refine State.putBuoy_keeps ?_) | (with_reducible refine State.addBuoy_keeps ?_) | (with_reducible refine State.ring_keeps ?_) | (with_reducible refine State.arms_keeps ?_) | (with_reducible refine State.post_keeps ?_) | (with_reducible refine State.resetMail_keeps ?_) | (with_reducible refine State.xqReset_keeps ?_) | (with_reducible refine State.tookFree_keeps ?_) | (with_reducible refine State.portCommand_keeps ?_) | (with_reducible refine State.loadHandles_keeps ?_) | (with_reducible refine State.clearHandles_keeps ?_) | (with_reducible refine State.groupApply_keeps ?_) | (with_reducible refine State.allocGo_keeps ?_) | (with_reducible refine State.freeBase_keeps ?_) | (with_reducible refine State.tierLevels_keeps ?_) | (with_reducible refine State.fwReset_keeps ?_) | (with_reducible refine State.lend_keeps ?_) | (with_reducible refine State.stepMark_keeps ?_) | (with_reducible refine State.putFld_keeps ?_) | (with_reducible refine State.setCredit_keeps ?_) | (with_reducible refine State.regionInv_keeps ?_) | (with_reducible refine Op.keeps_getD ?_ ?_) | (with_reducible refine foldl_keeps ?_ ?_; intro _ _ _) | (split)

theorem State.regWrite_keeps {s₀ s : State} {x : RegAcc} (hk : Keeps s₀ s) : Keeps s₀ (State.regWrite s x) := by
  unfold State.regWrite; try dsimp only
  repeat' first | (with_reducible assumption) | (with_reducible refine State.regViolation_keeps ?_) | (with_reducible refine State.beforeWrite_keeps ?_) | (with_reducible refine State.putReg_keeps ?_) | (with_reducible refine State.afterWrite_keeps ?_) | (split)

theorem State.rowWrite_keeps {s₀ s : State} {rq : Requester} {k v : Nat} (hk : Keeps s₀ s) : Keeps s₀ (State.rowWrite s rq k v) := by
  unfold State.rowWrite; try dsimp only
  repeat' first | (with_reducible assumption) | (with_reducible refine State.regWrite_keeps ?_) | (split)

theorem State.partWrite_keeps {s₀ s : State} {rq : Requester} {p k v : Nat} (hk : Keeps s₀ s) : Keeps s₀ (State.partWrite s rq p k v) := by
  unfold State.partWrite; try dsimp only
  repeat' first | (with_reducible assumption) | (with_reducible refine State.regWrite_keeps ?_) | (split)

theorem execRegisterWrite_keeps {s₀ s : State} {rq : Requester} {addr bytes value : Nat} (hk : Keeps s₀ s) : Out.keeps s₀ (execRegisterWrite rq addr bytes value s) := by
  unfold execRegisterWrite; try dsimp only
  repeat' first | (with_reducible assumption) | (with_reducible refine State.regWrite_keeps ?_) | (with_reducible refine Out.keeps_next ?_) | (split)

theorem execCounterLowerHalfRead_keeps {s₀ s : State} {rq : Requester} {addr : Nat} (hk : Keeps s₀ s) : Out.keeps s₀ (execCounterLowerHalfRead rq addr s) := by
  unfold execCounterLowerHalfRead; try dsimp only
  repeat' first | (with_reducible assumption) | (with_reducible refine Pr.keeps_fst (State.regRead_keeps ?_)) | (with_reducible refine State.regRead_keeps ?_) | (with_reducible refine State.setResp_keeps ?_) | (with_reducible refine Out.keeps_next ?_) | (split) | (with_reducible refine Pr.keeps_mk ?_) | (refine Pr.keeps_of ?_ (by with_reducible assumption))

theorem execViolClear_keeps {s₀ s : State} {rq : Requester} (hk : Keeps s₀ s) : Out.keeps s₀ (execViolClear rq s) := by
  unfold execViolClear; try dsimp only
  repeat' first | (with_reducible assumption) | (with_reducible refine State.rowWrite_keeps ?_) | (with_reducible refine Out.keeps_next ?_) | (split)

theorem execProbeStart_keeps {s₀ s : State} {rq : Requester} {value : Nat} (hk : Keeps s₀ s) : Out.keeps s₀ (execProbeStart rq value s) := by
  unfold execProbeStart; try dsimp only
  repeat' first | (with_reducible assumption) | (with_reducible refine State.rowWrite_keeps ?_) | (with_reducible refine Out.keeps_next ?_) | (split)

theorem execJoin_keeps {s₀ s : State} {rq : Requester} {value : Nat} (hk : Keeps s₀ s) : Out.keeps s₀ (execJoin rq value s) := by
  unfold execJoin; try dsimp only
  repeat' first | (with_reducible assumption) | (with_reducible refine State.rowWrite_keeps ?_) | (with_reducible refine Out.keeps_next ?_) | (split)

theorem execGo_keeps {s₀ s : State} {rq : Requester} {p value : Nat} (hk : Keeps s₀ s) : Out.keeps s₀ (execGo rq p value s) := by
  unfold execGo; try dsimp only
  repeat' first | (with_reducible assumption) | (with_reducible refine State.partWrite_keeps ?_) | (with_reducible refine Out.keeps_next ?_) | (split)

theorem execCancel_keeps {s₀ s : State} {rq : Requester} {p value : Nat} (hk : Keeps s₀ s) : Out.keeps s₀ (execCancel rq p value s) := by
  unfold execCancel; try dsimp only
  repeat' first | (with_reducible assumption) | (with_reducible refine State.partWrite_keeps ?_) | (with_reducible refine Out.keeps_next ?_) | (split)

theorem execMeCtrClear_keeps {s₀ s : State} {rq : Requester} {die bank : Nat} (hk : Keeps s₀ s) : Out.keeps s₀ (execMeCtrClear rq die bank s) := by
  unfold execMeCtrClear; try dsimp only
  repeat' first | (with_reducible assumption) | (with_reducible refine State.rowWrite_keeps ?_) | (with_reducible refine Out.keeps_next ?_) | (split)

theorem execVeCtrClear_keeps {s₀ s : State} {rq : Requester} {die bank : Nat} (hk : Keeps s₀ s) : Out.keeps s₀ (execVeCtrClear rq die bank s) := by
  unfold execVeCtrClear; try dsimp only
  repeat' first | (with_reducible assumption) | (with_reducible refine State.rowWrite_keeps ?_) | (with_reducible refine Out.keeps_next ?_) | (split)

theorem execCeCtrClear_keeps {s₀ s : State} {rq : Requester} {die bank : Nat} (hk : Keeps s₀ s) : Out.keeps s₀ (execCeCtrClear rq die bank s) := by
  unfold execCeCtrClear; try dsimp only
  repeat' first | (with_reducible assumption) | (with_reducible refine State.rowWrite_keeps ?_) | (with_reducible refine Out.keeps_next ?_) | (split)

theorem execDoorbellWrite_keeps {s₀ s : State} {rq : Requester} {p d value : Nat} (hk : Keeps s₀ s) : Out.keeps s₀ (execDoorbellWrite rq p d value s) := by
  unfold execDoorbellWrite; try dsimp only
  repeat' first | (with_reducible assumption) | (with_reducible refine State.partWrite_keeps ?_) | (with_reducible refine Out.keeps_next ?_) | (split)

theorem execBuySignal_keeps {s₀ s : State} {rq : Requester} {p value : Nat} (hk : Keeps s₀ s) : Out.keeps s₀ (execBuySignal rq p value s) := by
  unfold execBuySignal; try dsimp only
  repeat' first | (with_reducible assumption) | (with_reducible refine State.partWrite_keeps ?_) | (with_reducible refine Out.keeps_next ?_) | (split)

theorem execBuyAdd_keeps {s₀ s : State} {rq : Requester} {p value : Nat} (hk : Keeps s₀ s) : Out.keeps s₀ (execBuyAdd rq p value s) := by
  unfold execBuyAdd; try dsimp only
  repeat' first | (with_reducible assumption) | (with_reducible refine State.partWrite_keeps ?_) | (with_reducible refine Out.keeps_next ?_) | (split)

theorem State.partRead_keeps {s₀ s : State} {rq : Requester} {p k : Nat} (hk : Keeps s₀ s) : Keeps s₀ (State.partRead s rq p k) := by
  unfold State.partRead; try dsimp only
  repeat' first | (with_reducible assumption) | (with_reducible refine Pr.keeps_fst (State.regRead_keeps ?_)) | (with_reducible refine State.regRead_keeps ?_) | (with_reducible refine State.setResp_keeps ?_) | (split) | (with_reducible refine Pr.keeps_mk ?_) | (refine Pr.keeps_of ?_ (by with_reducible assumption))

theorem execMbxE2HRead_keeps {s₀ s : State} {rq : Requester} {p : Nat} (hk : Keeps s₀ s) : Out.keeps s₀ (execMbxE2HRead rq p s) := by
  unfold execMbxE2HRead; try dsimp only
  repeat' first | (with_reducible assumption) | (with_reducible refine State.partRead_keeps ?_) | (with_reducible refine Out.keeps_next ?_) | (split)

theorem execMbxK2HRead_keeps {s₀ s : State} {rq : Requester} {p : Nat} (hk : Keeps s₀ s) : Out.keeps s₀ (execMbxK2HRead rq p s) := by
  unfold execMbxK2HRead; try dsimp only
  repeat' first | (with_reducible assumption) | (with_reducible refine State.partRead_keeps ?_) | (with_reducible refine Out.keeps_next ?_) | (split)

theorem execMbxH2KWrite_keeps {s₀ s : State} {rq : Requester} {p value : Nat} (hk : Keeps s₀ s) : Out.keeps s₀ (execMbxH2KWrite rq p value s) := by
  unfold execMbxH2KWrite; try dsimp only
  repeat' first | (with_reducible assumption) | (with_reducible refine State.partWrite_keeps ?_) | (with_reducible refine Out.keeps_next ?_) | (split)

theorem execResetE2H_keeps {s₀ s : State} {rq : Requester} {p : Nat} (hk : Keeps s₀ s) : Out.keeps s₀ (execResetE2H rq p s) := by
  unfold execResetE2H; try dsimp only
  repeat' first | (with_reducible assumption) | (with_reducible refine State.partWrite_keeps ?_) | (with_reducible refine Out.keeps_next ?_) | (split)

theorem execResetH2K_keeps {s₀ s : State} {rq : Requester} {p : Nat} (hk : Keeps s₀ s) : Out.keeps s₀ (execResetH2K rq p s) := by
  unfold execResetH2K; try dsimp only
  repeat' first | (with_reducible assumption) | (with_reducible refine State.partWrite_keeps ?_) | (with_reducible refine Out.keeps_next ?_) | (split)

theorem execResetK2H_keeps {s₀ s : State} {rq : Requester} {p : Nat} (hk : Keeps s₀ s) : Out.keeps s₀ (execResetK2H rq p s) := by
  unfold execResetK2H; try dsimp only
  repeat' first | (with_reducible assumption) | (with_reducible refine State.partWrite_keeps ?_) | (with_reducible refine Out.keeps_next ?_) | (split)

theorem execInjectFire_keeps {s₀ s : State} {rq : Requester} {value : Nat} (hk : Keeps s₀ s) : Out.keeps s₀ (execInjectFire rq value s) := by
  unfold execInjectFire; try dsimp only
  repeat' first | (with_reducible assumption) | (with_reducible refine State.rowWrite_keeps ?_) | (with_reducible refine Out.keeps_next ?_) | (split)

theorem execGroupApplyGo_keeps {s₀ s : State} {rq : Requester} {g value : Nat} (hk : Keeps s₀ s) : Out.keeps s₀ (execGroupApplyGo rq g value s) := by
  unfold execGroupApplyGo; try dsimp only
  repeat' first | (with_reducible assumption) | (with_reducible refine State.rowWrite_keeps ?_) | (with_reducible refine Out.keeps_next ?_) | (split)

theorem execSeqCtrClear_keeps {s₀ s : State} {rq : Requester} {seq : Nat} (hk : Keeps s₀ s) : Out.keeps s₀ (execSeqCtrClear rq seq s) := by
  unfold execSeqCtrClear; try dsimp only
  repeat' first | (with_reducible assumption) | (with_reducible refine State.rowWrite_keeps ?_) | (with_reducible refine Out.keeps_next ?_) | (split)

theorem execExpCtrClear_keeps {s₀ s : State} {rq : Requester} {exp : Nat} (hk : Keeps s₀ s) : Out.keeps s₀ (execExpCtrClear rq exp s) := by
  unfold execExpCtrClear; try dsimp only
  repeat' first | (with_reducible assumption) | (with_reducible refine State.rowWrite_keeps ?_) | (with_reducible refine Out.keeps_next ?_) | (split)

theorem execAllocGo_keeps {s₀ s : State} {rq : Requester} {p value : Nat} (hk : Keeps s₀ s) : Out.keeps s₀ (execAllocGo rq p value s) := by
  unfold execAllocGo; try dsimp only
  repeat' first | (with_reducible assumption) | (with_reducible refine State.partWrite_keeps ?_) | (with_reducible refine Out.keeps_next ?_) | (split)

theorem execTmvFree_keeps {s₀ s : State} {rq : Requester} {p value : Nat} (hk : Keeps s₀ s) : Out.keeps s₀ (execTmvFree rq p value s) := by
  unfold execTmvFree; try dsimp only
  repeat' first | (with_reducible assumption) | (with_reducible refine State.partWrite_keeps ?_) | (with_reducible refine Out.keeps_next ?_) | (split)

theorem execTmvLendWrite_keeps {s₀ s : State} {rq : Requester} {j value : Nat} (hk : Keeps s₀ s) : Out.keeps s₀ (execTmvLendWrite rq j value s) := by
  unfold execTmvLendWrite; try dsimp only
  repeat' first | (with_reducible assumption) | (with_reducible refine State.rowWrite_keeps ?_) | (with_reducible refine Out.keeps_next ?_) | (split)

theorem State.quotaWrite_keeps {s₀ s : State} {rq : Requester} {p k v : Nat} (hk : Keeps s₀ s) : Keeps s₀ (State.quotaWrite s rq p k v) := by
  unfold State.quotaWrite; try dsimp only
  repeat' first | (with_reducible assumption) | (with_reducible refine State.regWrite_keeps ?_) | (split)

theorem execTmvQuotaWrite_keeps {s₀ s : State} {rq : Requester} {p tier value : Nat} (hk : Keeps s₀ s) : Out.keeps s₀ (execTmvQuotaWrite rq p tier value s) := by
  unfold execTmvQuotaWrite; try dsimp only
  repeat' first | (with_reducible assumption) | (with_reducible refine State.quotaWrite_keeps ?_) | (with_reducible refine Out.keeps_next ?_) | (split)

theorem execFwReset_keeps {s₀ s : State} {rq : Requester} {value : Nat} (hk : Keeps s₀ s) : Out.keeps s₀ (execFwReset rq value s) := by
  unfold execFwReset; try dsimp only
  repeat' first | (with_reducible assumption) | (with_reducible refine State.rowWrite_keeps ?_) | (with_reducible refine Out.keeps_next ?_) | (split)

theorem execSubLogConfigWrite_keeps {s₀ s : State} {rq : Requester} {p : Nat} {ctrl : Bool} {value : Nat} (hk : Keeps s₀ s) : Out.keeps s₀ (execSubLogConfigWrite rq p ctrl value s) := by
  unfold execSubLogConfigWrite; try dsimp only
  repeat' first | (with_reducible assumption) | (with_reducible refine State.partWrite_keeps ?_) | (with_reducible refine Out.keeps_next ?_) | (split)

theorem execDftLifeMark_keeps {s₀ s : State} {rq : Requester} {value : Nat} (hk : Keeps s₀ s) : Out.keeps s₀ (execDftLifeMark rq value s) := by
  unfold execDftLifeMark; try dsimp only
  repeat' first | (with_reducible assumption) | (with_reducible refine State.rowWrite_keeps ?_) | (with_reducible refine Out.keeps_next ?_) | (split)

theorem execHbmCtrClear_keeps {s₀ s : State} {rq : Requester} {stack : Nat} (hk : Keeps s₀ s) : Out.keeps s₀ (execHbmCtrClear rq stack s) := by
  unfold execHbmCtrClear; try dsimp only
  repeat' first | (with_reducible assumption) | (with_reducible refine State.rowWrite_keeps ?_) | (with_reducible refine Out.keeps_next ?_) | (split)

theorem execFaultResume_keeps {s₀ s : State} {rq : Requester} {p slot : Nat} (hk : Keeps s₀ s) : Out.keeps s₀ (execFaultResume rq p slot s) := by
  unfold execFaultResume; try dsimp only
  repeat' first | (with_reducible assumption) | (with_reducible refine State.partWrite_keeps ?_) | (with_reducible refine Out.keeps_next ?_) | (split)

theorem execFaultAbort_keeps {s₀ s : State} {rq : Requester} {p slot : Nat} (hk : Keeps s₀ s) : Out.keeps s₀ (execFaultAbort rq p slot s) := by
  unfold execFaultAbort; try dsimp only
  repeat' first | (with_reducible assumption) | (with_reducible refine State.partWrite_keeps ?_) | (with_reducible refine Out.keeps_next ?_) | (split)

theorem execInvalidate_keeps {s₀ s : State} {rq : Requester} {p value : Nat} (hk : Keeps s₀ s) : Out.keeps s₀ (execInvalidate rq p value s) := by
  unfold execInvalidate; try dsimp only
  repeat' first | (with_reducible assumption) | (with_reducible refine State.partWrite_keeps ?_) | (with_reducible refine Out.keeps_next ?_) | (split)

theorem execFqConfigWrite_keeps {s₀ s : State} {rq : Requester} {p : Nat} {ctrl : Bool} {value : Nat} (hk : Keeps s₀ s) : Out.keeps s₀ (execFqConfigWrite rq p ctrl value s) := by
  unfold execFqConfigWrite; try dsimp only
  repeat' first | (with_reducible assumption) | (with_reducible refine State.partWrite_keeps ?_) | (with_reducible refine Out.keeps_next ?_) | (split)

theorem execMmuCtrClear_keeps {s₀ s : State} {rq : Requester} {die : Nat} (hk : Keeps s₀ s) : Out.keeps s₀ (execMmuCtrClear rq die s) := by
  unfold execMmuCtrClear; try dsimp only
  repeat' first | (with_reducible assumption) | (with_reducible refine State.rowWrite_keeps ?_) | (with_reducible refine Out.keeps_next ?_) | (split)

theorem execRegionInv_keeps {s₀ s : State} {rq : Requester} {value : Nat} (hk : Keeps s₀ s) : Out.keeps s₀ (execRegionInv rq value s) := by
  unfold execRegionInv; try dsimp only
  repeat' first | (with_reducible assumption) | (with_reducible refine State.rowWrite_keeps ?_) | (with_reducible refine Out.keeps_next ?_) | (split)

theorem execIntCtrClear_keeps {s₀ s : State} {rq : Requester} {die : Nat} (hk : Keeps s₀ s) : Out.keeps s₀ (execIntCtrClear rq die s) := by
  unfold execIntCtrClear; try dsimp only
  repeat' first | (with_reducible assumption) | (with_reducible refine State.rowWrite_keeps ?_) | (with_reducible refine Out.keeps_next ?_) | (split)

theorem execIdlConfigWrite_keeps {s₀ s : State} {rq : Requester} {p : Nat} {ctrl : Bool} {value : Nat} (hk : Keeps s₀ s) : Out.keeps s₀ (execIdlConfigWrite rq p ctrl value s) := by
  unfold execIdlConfigWrite; try dsimp only
  repeat' first | (with_reducible assumption) | (with_reducible refine State.partWrite_keeps ?_) | (with_reducible refine Out.keeps_next ?_) | (split)

theorem State.portWrite_keeps {s₀ s : State} {rq : Requester} {die port bits : Nat} (hk : Keeps s₀ s) : Keeps s₀ (State.portWrite s rq die port bits) := by
  unfold State.portWrite; try dsimp only
  repeat' first | (with_reducible assumption) | (with_reducible refine State.rowWrite_keeps ?_) | (split)

theorem execRetrain_keeps {s₀ s : State} {rq : Requester} {die port : Nat} (hk : Keeps s₀ s) : Out.keeps s₀ (execRetrain rq die port s) := by
  unfold execRetrain; try dsimp only
  repeat' first | (with_reducible assumption) | (with_reducible refine State.portWrite_keeps ?_) | (with_reducible refine Out.keeps_next ?_) | (split)

theorem execFullTrain_keeps {s₀ s : State} {rq : Requester} {die port : Nat} (hk : Keeps s₀ s) : Out.keeps s₀ (execFullTrain rq die port s) := by
  unfold execFullTrain; try dsimp only
  repeat' first | (with_reducible assumption) | (with_reducible refine State.portWrite_keeps ?_) | (with_reducible refine Out.keeps_next ?_) | (split)

theorem execChange_keeps {s₀ s : State} {rq : Requester} {die port value : Nat} (hk : Keeps s₀ s) : Out.keeps s₀ (execChange rq die port value s) := by
  unfold execChange; try dsimp only
  repeat' first | (with_reducible assumption) | (with_reducible refine State.rowWrite_keeps ?_) | (with_reducible refine Out.keeps_next ?_) | (split)

theorem execEthQpBaseWrite_keeps {s₀ s : State} {rq : Requester} {value : Nat} (hk : Keeps s₀ s) : Out.keeps s₀ (execEthQpBaseWrite rq value s) := by
  unfold execEthQpBaseWrite; try dsimp only
  repeat' first | (with_reducible assumption) | (with_reducible refine State.rowWrite_keeps ?_) | (with_reducible refine Out.keeps_next ?_) | (split)

theorem execEthHandleReset_keeps {s₀ s : State} {rq : Requester} {mask : Nat} (hk : Keeps s₀ s) : Out.keeps s₀ (execEthHandleReset rq mask s) := by
  unfold execEthHandleReset; try dsimp only
  repeat' first | (with_reducible assumption) | (with_reducible refine State.rowWrite_keeps ?_) | (with_reducible refine Out.keeps_next ?_) | (split)

theorem execLnkCtrClear_keeps {s₀ s : State} {rq : Requester} {die : Nat} (hk : Keeps s₀ s) : Out.keeps s₀ (execLnkCtrClear rq die s) := by
  unfold execLnkCtrClear; try dsimp only
  repeat' first | (with_reducible assumption) | (with_reducible refine State.rowWrite_keeps ?_) | (with_reducible refine Out.keeps_next ?_) | (split)

theorem execPwrCtrClear_keeps {s₀ s : State} {rq : Requester} (hk : Keeps s₀ s) : Out.keeps s₀ (execPwrCtrClear rq s) := by
  unfold execPwrCtrClear; try dsimp only
  repeat' first | (with_reducible assumption) | (with_reducible refine State.rowWrite_keeps ?_) | (with_reducible refine Out.keeps_next ?_) | (split)

theorem State.chtWrite_keeps {s₀ s : State} {rq : Requester} {f : Fld} {slot : Option Nat} (hk : Keeps s₀ s) : Keeps s₀ (State.chtWrite s rq f slot) := by
  unfold State.chtWrite; try dsimp only
  repeat' first | (with_reducible assumption) | (with_reducible refine State.rowWrite_keeps ?_) | (with_reducible refine Op.keeps_getD ?_ ?_) | (split)

theorem execChartWrite_keeps {s₀ s : State} {rq : Requester} {slot : Nat} (hk : Keeps s₀ s) : Out.keeps s₀ (execChartWrite rq slot s) := by
  unfold execChartWrite; try dsimp only
  repeat' first | (with_reducible assumption) | (with_reducible refine State.chtWrite_keeps ?_) | (with_reducible refine Out.keeps_next ?_) | (split)

theorem execChartSelect_keeps {s₀ s : State} {rq : Requester} {slot : Nat} (hk : Keeps s₀ s) : Out.keeps s₀ (execChartSelect rq slot s) := by
  unfold execChartSelect; try dsimp only
  repeat' first | (with_reducible assumption) | (with_reducible refine State.chtWrite_keeps ?_) | (with_reducible refine Out.keeps_next ?_) | (split)

theorem execLicInstall_keeps {s₀ s : State} {rq : Requester} (hk : Keeps s₀ s) : Out.keeps s₀ (execLicInstall rq s) := by
  unfold execLicInstall; try dsimp only
  repeat' first | (with_reducible assumption) | (with_reducible refine State.chtWrite_keeps ?_) | (with_reducible refine Out.keeps_next ?_) | (split)

theorem execInvSettings_keeps {s₀ s : State} {rq : Requester} (hk : Keeps s₀ s) : Out.keeps s₀ (execInvSettings rq s) := by
  unfold execInvSettings; try dsimp only
  repeat' first | (with_reducible assumption) | (with_reducible refine State.chtWrite_keeps ?_) | (with_reducible refine Out.keeps_next ?_) | (split)

theorem execChartReset_keeps {s₀ s : State} {rq : Requester} (hk : Keeps s₀ s) : Out.keeps s₀ (execChartReset rq s) := by
  unfold execChartReset; try dsimp only
  repeat' first | (with_reducible assumption) | (with_reducible refine State.chtWrite_keeps ?_) | (with_reducible refine Out.keeps_next ?_) | (split)

theorem execFtsRun_keeps {s₀ s : State} {rq : Requester} {value : Nat} (hk : Keeps s₀ s) : Out.keeps s₀ (execFtsRun rq value s) := by
  unfold execFtsRun; try dsimp only
  repeat' first | (with_reducible assumption) | (with_reducible refine State.rowWrite_keeps ?_) | (with_reducible refine Out.keeps_next ?_) | (split)

theorem execFtsCtrClear_keeps {s₀ s : State} {rq : Requester} (hk : Keeps s₀ s) : Out.keeps s₀ (execFtsCtrClear rq s) := by
  unfold execFtsCtrClear; try dsimp only
  repeat' first | (with_reducible assumption) | (with_reducible refine State.rowWrite_keeps ?_) | (with_reducible refine Out.keeps_next ?_) | (split)

theorem execLogRdSelWrite_keeps {s₀ s : State} {rq : Requester} {value : Nat} (hk : Keeps s₀ s) : Out.keeps s₀ (execLogRdSelWrite rq value s) := by
  unfold execLogRdSelWrite; try dsimp only
  repeat' first | (with_reducible assumption) | (with_reducible refine State.rowWrite_keeps ?_) | (with_reducible refine Out.keeps_next ?_) | (split)

theorem execTraceConfigWrite_keeps {s₀ s : State} {rq : Requester} {ctrl : Bool} {value : Nat} (hk : Keeps s₀ s) : Out.keeps s₀ (execTraceConfigWrite rq ctrl value s) := by
  unfold execTraceConfigWrite; try dsimp only
  repeat' first | (with_reducible assumption) | (with_reducible refine State.rowWrite_keeps ?_) | (with_reducible refine Out.keeps_next ?_) | (split)

theorem execSbRegRd_keeps {s₀ s : State} {entry : Nat} (hk : Keeps s₀ s) : Out.keeps s₀ (execSbRegRd entry s) := by
  unfold execSbRegRd; try dsimp only
  repeat' first | (with_reducible assumption) | (with_reducible refine Pr.keeps_fst (State.regRead_keeps ?_)) | (with_reducible refine State.regRead_keeps ?_) | (with_reducible refine State.answer_keeps ?_) | (with_reducible refine Out.keeps_next ?_) | (split) | (with_reducible refine Pr.keeps_mk ?_) | (refine Pr.keeps_of ?_ (by with_reducible assumption))

theorem execSbRegWr_keeps {s₀ s : State} {entry raw : Nat} (hk : Keeps s₀ s) : Out.keeps s₀ (execSbRegWr entry raw s) := by
  unfold execSbRegWr; try dsimp only
  repeat' first | (with_reducible assumption) | (with_reducible refine State.regWrite_keeps ?_) | (with_reducible refine State.answer_keeps ?_) | (with_reducible refine State.tookFree_keeps ?_) | (with_reducible refine Out.keeps_next ?_) | (split)

end Sys2Proof.Machine
end

