-- ==== Sys2Proof/Laws/KeepsPcieIn.lean ====
section
/-! SUPPORT. What the operations of Machine/PcieIn.lean keep. -/
namespace Sys2Proof.Machine
set_option Elab.async false

theorem State.notePieces_keeps {s₀ s : State} {ps : List (Nat × Nat)} {part : Option Nat} {die : Nat} (hk : Keeps s₀ s) : Keeps s₀ (State.notePieces s ps part die) := by
  unfold State.notePieces; try dsimp only
  repeat' first | (with_reducible assumption) | (with_reducible refine State.noteRead_keeps ?_) | (with_reducible refine foldl_keeps ?_ ?_; intro _ _ _) | (split)

theorem State.writeAll_keeps {s₀ s : State} {ps : List (Nat × Nat)} {bs : List Byte} {bad : Bool} {part : Option Nat} {die : Nat} (hk : Keeps s₀ s) : Keeps s₀ (State.writeAll s ps bs bad part die) := by
  unfold State.writeAll; try dsimp only
  repeat' first | (with_reducible assumption) | (with_reducible refine State.wrMem_keeps ?_) | (with_reducible refine foldl_keeps ?_ ?_; intro _ _ _) | (split)

theorem State.regionEntry_keeps {s₀ s : State} {e : Nat} (hk : Keeps s₀ s) : Pr.keeps s₀ (State.regionEntry s e) := by
  unfold State.regionEntry; try dsimp only
  repeat' first | (with_reducible assumption) | (with_reducible refine State.tookFree_keeps ?_) | (with_reducible refine State.noteRead_keeps ?_) | (with_reducible refine State.setPcie_keeps ?_) | (split) | (with_reducible refine Pr.keeps_mk ?_) | (refine Pr.keeps_of ?_ (by with_reducible assumption))

theorem State.dropAhead_keeps {s₀ s : State} {port : Nat} {ps : List (Nat × Nat)} (hk : Keeps s₀ s) : Keeps s₀ (State.dropAhead s port ps) := by
  unfold State.dropAhead; try dsimp only
  repeat' first | (with_reducible assumption) | (with_reducible refine State.setPcie_keeps ?_) | (split)

theorem State.answerRead_keeps {s₀ s : State} {port : Nat} {bs : List Byte} {bad : Bool} (hk : Keeps s₀ s) : Keeps s₀ (State.answerRead s port bs bad) := by
  unfold State.answerRead; try dsimp only
  repeat' first | (with_reducible assumption) | (with_reducible refine State.count_keeps ?_) | (with_reducible refine State.complete_keeps ?_) | (split)

theorem State.inboundMemory_keeps {s₀ s : State} {port : Nat} {kind : PcieKind} {part n : Nat} {ps : List (Nat × Nat)} {data : List Byte} (hk : Keeps s₀ s) : Keeps s₀ (State.inboundMemory s port kind part n ps data) := by
  unfold State.inboundMemory; try dsimp only
  repeat' first | (with_reducible assumption) | (with_reducible refine State.notePieces_keeps ?_) | (with_reducible refine State.dropAhead_keeps ?_) | (with_reducible refine State.tookFree_keeps ?_) | (with_reducible refine State.setPcie_keeps ?_) | (with_reducible refine State.answerRead_keeps ?_) | (with_reducible refine State.writeAll_keeps ?_) | (with_reducible refine foldl_keeps ?_ ?_; intro _ _ _) | (split)

theorem State.inboundReg_keeps {s₀ s : State} {port : Nat} {kind : PcieKind} {r : RegionEntry} {off n : Nat} {data : List Byte} (hk : Keeps s₀ s) : Keeps s₀ (State.inboundReg s port kind r off n data) := by
  unfold State.inboundReg; try dsimp only
  repeat' first | (with_reducible assumption) | (with_reducible refine State.regWrite_keeps ?_) | (with_reducible refine Pr.keeps_fst (State.regRead_keeps ?_)) | (with_reducible refine State.regRead_keeps ?_) | (with_reducible refine State.complete_keeps ?_) | (split) | (with_reducible refine Pr.keeps_mk ?_) | (refine Pr.keeps_of ?_ (by with_reducible assumption))

theorem State.inboundDevice_keeps {s₀ s : State} {port : Nat} {kind : PcieKind} {addr len : Nat} {data : List Byte} (hk : Keeps s₀ s) : Keeps s₀ (State.inboundDevice s port kind addr len data) := by
  unfold State.inboundDevice; try dsimp only
  repeat' first | (with_reducible assumption) | (with_reducible refine Pr.keeps_fst (State.regionEntry_keeps ?_)) | (with_reducible refine State.regionEntry_keeps ?_) | (with_reducible refine State.refuseInbound_keeps ?_) | (with_reducible refine State.inboundReg_keeps ?_) | (with_reducible refine State.tookFree_keeps ?_) | (with_reducible refine State.inboundMemory_keeps ?_) | (split) | (with_reducible refine Pr.keeps_mk ?_) | (refine Pr.keeps_of ?_ (by with_reducible assumption))

theorem execPcieInboundRequest_keeps {s₀ s : State} {port : Nat} {kind : PcieKind} {addr len : Nat} {data : List Byte} (hk : Keeps s₀ s) : Out.keeps s₀ (execPcieInboundRequest port kind addr len data s) := by
  unfold execPcieInboundRequest; try dsimp only
  repeat' first | (with_reducible assumption) | (with_reducible refine State.inboundDevice_keeps ?_) | (with_reducible refine State.fenceRead_keeps ?_) | (with_reducible refine State.relay_keeps ?_) | (with_reducible refine Out.keeps_next ?_) | (split)

end Sys2Proof.Machine
end

