-- ==== Sys2Proof/Laws/KeepsMessages.lean ====
section
/-! SUPPORT. What the operations of Machine/Messages.lean keep. -/
namespace Sys2Proof.Machine
set_option Elab.async false

theorem State.dropMessage_keeps {s₀ s : State} {die : Nat} (hk : Keeps s₀ s) : Keeps s₀ (State.dropMessage s die) := by
  unfold State.dropMessage; try dsimp only
  repeat' first | (with_reducible assumption) | (with_reducible refine State.count_keeps ?_) | (split)

theorem State.relayMessage_keeps {s₀ s : State} {die chan : Nat} {bytes : List Byte} (hk : Keeps s₀ s) : Keeps s₀ (State.relayMessage s die chan bytes) := by
  unfold State.relayMessage; try dsimp only
  repeat' first | (with_reducible assumption) | (with_reducible refine State.dropMessage_keeps ?_) | (with_reducible refine State.send_keeps ?_) | (split)

theorem State.respond_keeps {s₀ s : State} {m : LinkMsg} {type : Nat} {poison : Bool} {data : List Byte} (hk : Keeps s₀ s) : Keeps s₀ (State.respond s m type poison data) := by
  unfold State.respond; try dsimp only
  repeat' first | (with_reducible assumption) | (with_reducible refine State.send_keeps ?_) | (split)

theorem State.asLender_keeps {s₀ s : State} {lent : Bool} {f : State → State} (hf : ∀  t, Keeps s₀ t → Keeps s₀ (f  t)) (hk : Keeps s₀ s) : Keeps s₀ (State.asLender s lent f) := by
  unfold State.asLender; try dsimp only
  repeat' first | (with_reducible assumption) | (with_reducible refine State.setTiers_keeps ?_) | (with_reducible refine hf _ ?_) | (split)

theorem State.remoteViolation_keeps {s₀ s : State} {die : Nat} (hk : Keeps s₀ s) : Keeps s₀ (State.remoteViolation s die) := by
  unfold State.remoteViolation; try dsimp only
  repeat' first | (with_reducible assumption) | (with_reducible refine State.count_keeps ?_) | (split)

theorem State.refuseRead_keeps {s₀ s : State} {die : Nat} {m : LinkMsg} (hk : Keeps s₀ s) : Keeps s₀ (State.refuseRead s die m) := by
  unfold State.refuseRead; try dsimp only
  repeat' first | (with_reducible assumption) | (with_reducible refine State.remoteViolation_keeps ?_) | (with_reducible refine State.respond_keeps ?_) | (split)

theorem State.readReq_keeps {s₀ s : State} {die : Nat} {m : LinkMsg} (hk : Keeps s₀ s) : Keeps s₀ (State.readReq s die m) := by
  unfold State.readReq; try dsimp only
  repeat' first | (with_reducible assumption) | (with_reducible refine State.refuseRead_keeps ?_) | (with_reducible refine State.setLnk_keeps ?_) | (split)

theorem State.linkRead_keeps {s₀ s : State} {die : Nat} {part : Option Nat} {lent : Bool} {ps : List (Nat × Nat)} (hk : Keeps s₀ s) : Pr.keeps s₀ (State.linkRead s die part lent ps) := by
  unfold State.linkRead; try dsimp only
  repeat' first | (with_reducible assumption) | (with_reducible refine State.setTiers_keeps ?_) | (with_reducible refine State.asLender_keeps (fun _ _ => ?_) ?_) | (with_reducible refine State.notePieces_keeps ?_) | (with_reducible refine State.tookFree_keeps ?_) | (with_reducible refine State.setLnk_keeps ?_) | (split) | (with_reducible refine Pr.keeps_mk ?_) | (refine Pr.keeps_of ?_ (by with_reducible assumption))

theorem State.rdmaAnswer_keeps {s₀ s : State} {qpn : Nat} {x : Option (List Byte)} (hk : Keeps s₀ s) : Keeps s₀ (State.rdmaAnswer s qpn x) := by
  unfold State.rdmaAnswer; try dsimp only
  repeat' first | (with_reducible assumption) | (with_reducible refine State.setLnk_keeps ?_) | (split)

theorem State.serveRead_keeps {s₀ s : State} {die : Nat} {m : LinkMsg} (hk : Keeps s₀ s) : Keeps s₀ (State.serveRead s die m) := by
  unfold State.serveRead; try dsimp only
  repeat' first | (with_reducible assumption) | (with_reducible refine State.remoteViolation_keeps ?_) | (with_reducible refine State.rdmaAnswer_keeps ?_) | (with_reducible refine Pr.keeps_fst (State.linkRead_keeps ?_)) | (with_reducible refine State.linkRead_keeps ?_) | (with_reducible refine State.refuseRead_keeps ?_) | (with_reducible refine State.respond_keeps ?_) | (split) | (with_reducible refine Pr.keeps_mk ?_) | (refine Pr.keeps_of ?_ (by with_reducible assumption))

theorem execRemoteReadServe_keeps {s₀ s : State} {die i : Nat} (hk : Keeps s₀ s) : Out.keeps s₀ (execRemoteReadServe die i s) := by
  unfold execRemoteReadServe; try dsimp only
  repeat' first | (with_reducible assumption) | (with_reducible refine State.setLnk_keeps ?_) | (with_reducible refine State.serveRead_keeps ?_) | (with_reducible refine Out.keeps_next ?_) | (split)

theorem State.awaitAck_keeps {s₀ s : State} {die : Nat} {m : LinkMsg} {isReg : Bool} (hk : Keeps s₀ s) : Keeps s₀ (State.awaitAck s die m isReg) := by
  unfold State.awaitAck; try dsimp only
  repeat' first | (with_reducible assumption) | (with_reducible refine State.setLnk_keeps ?_) | (split)

theorem State.writeReq_keeps {s₀ s : State} {die : Nat} {m : LinkMsg} (hk : Keeps s₀ s) : Keeps s₀ (State.writeReq s die m) := by
  unfold State.writeReq; try dsimp only
  repeat' first | (with_reducible assumption) | (with_reducible refine State.remoteViolation_keeps ?_) | (with_reducible refine State.awaitAck_keeps ?_) | (with_reducible refine State.asLender_keeps (fun _ _ => ?_) ?_) | (with_reducible refine State.writeAll_keeps ?_) | (split)

theorem execRemoteWriteAcked_keeps {s₀ s : State} {die i : Nat} (hk : Keeps s₀ s) : Out.keeps s₀ (execRemoteWriteAcked die i s) := by
  unfold execRemoteWriteAcked; try dsimp only
  repeat' first | (with_reducible assumption) | (with_reducible refine State.setLnk_keeps ?_) | (with_reducible refine State.respond_keeps ?_) | (with_reducible refine Out.keeps_next ?_) | (split)

theorem State.countRefused_keeps {s₀ s : State} {die : Nat} {m : LinkMsg} {write : Bool} (hk : Keeps s₀ s) : Keeps s₀ (State.countRefused s die m write) := by
  unfold State.countRefused; try dsimp only
  repeat' first | (with_reducible assumption) | (with_reducible refine Pr.keeps_fst (State.regRead_keeps ?_)) | (with_reducible refine State.regRead_keeps ?_) | (with_reducible refine State.remoteViolation_keeps ?_) | (split) | (with_reducible refine Pr.keeps_mk ?_) | (refine Pr.keeps_of ?_ (by with_reducible assumption))

theorem State.regReadReq_keeps {s₀ s : State} {die : Nat} {m : LinkMsg} (hk : Keeps s₀ s) : Keeps s₀ (State.regReadReq s die m) := by
  unfold State.regReadReq; try dsimp only
  repeat' first | (with_reducible assumption) | (with_reducible refine State.countRefused_keeps ?_) | (with_reducible refine State.respond_keeps ?_) | (with_reducible refine Pr.keeps_fst (State.regRead_keeps ?_)) | (with_reducible refine State.regRead_keeps ?_) | (split) | (with_reducible refine Pr.keeps_mk ?_) | (refine Pr.keeps_of ?_ (by with_reducible assumption))

theorem State.regWriteReq_keeps {s₀ s : State} {die : Nat} {m : LinkMsg} (hk : Keeps s₀ s) : Keeps s₀ (State.regWriteReq s die m) := by
  unfold State.regWriteReq; try dsimp only
  repeat' first | (with_reducible assumption) | (with_reducible refine State.countRefused_keeps ?_) | (with_reducible refine State.regWrite_keeps ?_) | (with_reducible refine State.awaitAck_keeps ?_) | (split)

theorem State.carryPoison_keeps {s₀ s : State} {r : RemoteReq} (hk : Keeps s₀ s) : Keeps s₀ (State.carryPoison s r) := by
  unfold State.carryPoison; try dsimp only
  repeat' first | (with_reducible assumption) | (with_reducible refine State.poisonWrite_keeps ?_) | (with_reducible refine foldl_keeps ?_ ?_; intro _ _ _) | (split)

theorem State.response_keeps {s₀ s : State} {die : Nat} {m : LinkMsg} (hk : Keeps s₀ s) : Keeps s₀ (State.response s die m) := by
  unfold State.response; try dsimp only
  repeat' first | (with_reducible assumption) | (with_reducible refine State.dropMessage_keeps ?_) | (with_reducible refine State.setLnk_keeps ?_) | (with_reducible refine State.carryPoison_keeps ?_) | (with_reducible refine State.setResp_keeps ?_) | (split)

theorem execRspTimeout_keeps {s₀ s : State} {die tag : Nat} (hk : Keeps s₀ s) : Out.keeps s₀ (execRspTimeout die tag s) := by
  unfold execRspTimeout; try dsimp only
  repeat' first | (with_reducible assumption) | (with_reducible refine State.setLnk_keeps ?_) | (with_reducible refine State.count_keeps ?_) | (with_reducible refine State.carryPoison_keeps ?_) | (with_reducible refine State.peerLost_keeps ?_) | (with_reducible refine Out.keeps_next ?_) | (split)

theorem State.message_keeps {s₀ s : State} {die chan type : Nat} {m : LinkMsg} {raw : List Byte} (hk : Keeps s₀ s) : Keeps s₀ (State.message s die chan type m raw) := by
  unfold State.message; try dsimp only
  repeat' first | (with_reducible assumption) | (with_reducible refine State.relayMessage_keeps ?_) | (with_reducible refine State.readReq_keeps ?_) | (with_reducible refine State.writeReq_keeps ?_) | (with_reducible refine State.regReadReq_keeps ?_) | (with_reducible refine State.regWriteReq_keeps ?_) | (with_reducible refine State.collArrives_keeps ?_) | (with_reducible refine State.response_keeps ?_) | (split)

theorem execRdReq_keeps {s₀ s : State} {die : Nat} {msg : LinkMsg} (hk : Keeps s₀ s) : Out.keeps s₀ (execRdReq die msg s) := by
  unfold execRdReq; try dsimp only
  repeat' first | (with_reducible assumption) | (with_reducible refine State.message_keeps ?_) | (with_reducible refine Out.keeps_next ?_) | (split)

theorem execWrReq_keeps {s₀ s : State} {die : Nat} {msg : LinkMsg} (hk : Keeps s₀ s) : Out.keeps s₀ (execWrReq die msg s) := by
  unfold execWrReq; try dsimp only
  repeat' first | (with_reducible assumption) | (with_reducible refine State.message_keeps ?_) | (with_reducible refine Out.keeps_next ?_) | (split)

theorem execRegRd_keeps {s₀ s : State} {die : Nat} {msg : LinkMsg} (hk : Keeps s₀ s) : Out.keeps s₀ (execRegRd die msg s) := by
  unfold execRegRd; try dsimp only
  repeat' first | (with_reducible assumption) | (with_reducible refine State.message_keeps ?_) | (with_reducible refine Out.keeps_next ?_) | (split)

theorem execRegWr_keeps {s₀ s : State} {die : Nat} {msg : LinkMsg} (hk : Keeps s₀ s) : Out.keeps s₀ (execRegWr die msg s) := by
  unfold execRegWr; try dsimp only
  repeat' first | (with_reducible assumption) | (with_reducible refine State.message_keeps ?_) | (with_reducible refine Out.keeps_next ?_) | (split)

theorem execRdRsp_keeps {s₀ s : State} {die : Nat} {msg : LinkMsg} (hk : Keeps s₀ s) : Out.keeps s₀ (execRdRsp die msg s) := by
  unfold execRdRsp; try dsimp only
  repeat' first | (with_reducible assumption) | (with_reducible refine State.message_keeps ?_) | (with_reducible refine Out.keeps_next ?_) | (split)

theorem execWrAck_keeps {s₀ s : State} {die : Nat} {msg : LinkMsg} (hk : Keeps s₀ s) : Out.keeps s₀ (execWrAck die msg s) := by
  unfold execWrAck; try dsimp only
  repeat' first | (with_reducible assumption) | (with_reducible refine State.message_keeps ?_) | (with_reducible refine Out.keeps_next ?_) | (split)

theorem execRegRsp_keeps {s₀ s : State} {die : Nat} {msg : LinkMsg} (hk : Keeps s₀ s) : Out.keeps s₀ (execRegRsp die msg s) := by
  unfold execRegRsp; try dsimp only
  repeat' first | (with_reducible assumption) | (with_reducible refine State.message_keeps ?_) | (with_reducible refine Out.keeps_next ?_) | (split)

theorem State.parse_keeps {s₀ s : State} {die chan : Nat} {x0 : Nat} {x1 : List Byte} (hk : Keeps s₀ s) : Pr.keeps s₀ (State.parse s die chan x0 x1) := by
  induction x0 generalizing s x1 with
  | zero =>
    unfold State.parse; try dsimp only
    repeat' first | (with_reducible assumption) | (with_reducible refine State.dropMessage_keeps ?_) | (with_reducible refine State.message_keeps ?_) | (split) | (with_reducible refine Pr.keeps_mk ?_) | (refine Pr.keeps_of ?_ (by with_reducible assumption))
  | succ l ih =>
    unfold State.parse; try dsimp only
    repeat' first | (with_reducible assumption) | (with_reducible refine ih ?_) | (with_reducible refine State.dropMessage_keeps ?_) | (with_reducible refine State.message_keeps ?_) | (split) | (with_reducible refine Pr.keeps_mk ?_) | (refine Pr.keeps_of ?_ (by with_reducible assumption))

theorem State.streamBody_keeps {s₀ s : State} {oe v : Nat} {body : List Byte} (hk : Keeps s₀ s) : Keeps s₀ (State.streamBody s oe v body) := by
  unfold State.streamBody; try dsimp only
  repeat' first | (with_reducible assumption) | (with_reducible refine Pr.keeps_fst (State.parse_keeps ?_)) | (with_reducible refine State.parse_keeps ?_) | (with_reducible refine State.putPort_keeps ?_) | (with_reducible refine Op.keeps_getD ?_ ?_) | (split) | (with_reducible refine Pr.keeps_mk ?_) | (refine Pr.keeps_of ?_ (by with_reducible assumption))

theorem State.relayBeacon_keeps {s₀ s : State} {oe : Nat} {body : List Byte} (hk : Keeps s₀ s) : Keeps s₀ (State.relayBeacon s oe body) := by
  unfold State.relayBeacon; try dsimp only
  repeat' first | (with_reducible assumption) | (with_reducible refine State.dropMessage_keeps ?_) | (with_reducible refine State.sendCtrl_keeps ?_) | (split)

theorem State.ctrlBody_keeps {s₀ s : State} {oe : Nat} {body : List Byte} (hk : Keeps s₀ s) : Keeps s₀ (State.ctrlBody s oe body) := by
  unfold State.ctrlBody; try dsimp only
  repeat' first | (with_reducible assumption) | (with_reducible refine State.timeReq_keeps ?_) | (with_reducible refine State.timeRsp_keeps ?_) | (with_reducible refine State.beaconArrives_keeps ?_) | (with_reducible refine State.relayBeacon_keeps ?_) | (with_reducible refine State.startChange_keeps ?_) | (split)

theorem State.sequenced_keeps {s₀ s : State} {oe kind : Nat} {b : List Byte} (hk : Keeps s₀ s) : Keeps s₀ (State.sequenced s oe kind b) := by
  unfold State.sequenced; try dsimp only
  repeat' first | (with_reducible assumption) | (with_reducible refine State.putPort_keeps ?_) | (with_reducible refine State.streamBody_keeps ?_) | (with_reducible refine State.ctrlBody_keeps ?_) | (split)

theorem execFlitReceive_keeps {s₀ s : State} {die port : Nat} {fec : Ecc} {data : List Byte} (hk : Keeps s₀ s) : Out.keeps s₀ (execFlitReceive die port fec data s) := by
  unfold execFlitReceive; try dsimp only
  repeat' first | (with_reducible assumption) | (with_reducible refine State.count_keeps ?_) | (with_reducible refine State.putPort_keeps ?_) | (with_reducible refine State.sequenced_keeps ?_) | (with_reducible refine Out.keeps_next ?_) | (split)

theorem State.rdmaRefused_keeps {s₀ s : State} {qpn : Nat} (hk : Keeps s₀ s) : Keeps s₀ (State.rdmaRefused s qpn) := by
  unfold State.rdmaRefused; try dsimp only
  repeat' first | (with_reducible assumption) | (with_reducible refine State.remoteViolation_keeps ?_) | (with_reducible refine State.rdmaAnswer_keeps ?_) | (split)

theorem execRdmaInbound_keeps {s₀ s : State} {qpn ip srcQpn rkey addr len : Nat} {write : Bool} {data : List Byte} (hk : Keeps s₀ s) : Out.keeps s₀ (execRdmaInbound qpn ip srcQpn rkey addr len write data s) := by
  unfold execRdmaInbound; try dsimp only
  repeat' first | (with_reducible assumption) | (with_reducible refine State.rdmaRefused_keeps ?_) | (with_reducible refine Pr.keeps_fst (State.regionEntry_keeps ?_)) | (with_reducible refine State.regionEntry_keeps ?_) | (with_reducible refine State.regWrite_keeps ?_) | (with_reducible refine State.rdmaAnswer_keeps ?_) | (with_reducible refine Pr.keeps_fst (State.regRead_keeps ?_)) | (with_reducible refine State.regRead_keeps ?_) | (with_reducible refine State.tookFree_keeps ?_) | (with_reducible refine State.writeAll_keeps ?_) | (with_reducible refine State.setLnk_keeps ?_) | (with_reducible refine Out.keeps_next ?_) | (split) | (with_reducible refine Pr.keeps_mk ?_) | (refine Pr.keeps_of ?_ (by with_reducible assumption))

end Sys2Proof.Machine
end

