-- ==== Sys2Proof/Laws/KeepsUpdates.lean ====
section
/-! SUPPORT. What the operations of Machine/Updates.lean keep. -/
namespace Sys2Proof.Machine
set_option Elab.async false

theorem State.noteSeed_keeps {s₀ s : State} {part : Nat} {t : Tensor} {p : Params} {first : Nat} (hk : Keeps s₀ s) : Keeps s₀ (State.noteSeed s part t p first) := by
  unfold State.noteSeed; try dsimp only
  repeat' first | (with_reducible assumption) | (with_reducible refine State.setUpd_keeps ?_) | (split)

theorem State.readLive_keeps {s₀ s : State} {a : Access} {t : Tensor} {first count : Nat} (hk : Keeps s₀ s) : ExP.keeps s₀ (State.readLive s a t first count) := by
  unfold State.readLive; try dsimp only
  repeat' first | (with_reducible assumption) | (with_reducible refine State.vRead_keeps ?_) | (with_reducible exact ExP.keeps_error) | (with_reducible refine ExP.keeps_ok ?_) | (split) | (refine ExP.keeps_of ?_ (by with_reducible assumption))

theorem State.stageItem_keeps {s₀ s : State} {a : Access} {x : Staged} (hk : Keeps s₀ s) : ExP.keeps s₀ (State.stageItem s a x) := by
  unfold State.stageItem; try dsimp only
  repeat' first | (with_reducible assumption) | (with_reducible refine foldM_keeps (fun _ _ _ => ?_) ?_) | (with_reducible refine State.vWrite_keeps ?_) | (with_reducible refine State.modRun_keeps ?_) | (with_reducible exact Ex.keeps_error) | (with_reducible refine Ex.keeps_ok ?_) | (with_reducible exact ExP.keeps_error) | (with_reducible refine ExP.keeps_ok ?_) | (split) | (refine Ex.keeps_of ?_ (by with_reducible assumption)) | (refine ExP.keeps_of ?_ (by with_reducible assumption))

theorem State.stageItems_keeps {s₀ s : State} {a : Access} {t : Tensor} {p : Params} {l : Live} {x0 : List Nat} (hk : Keeps s₀ s) : ExP.keeps s₀ (State.stageItems s a t p l x0) := by
  induction x0 generalizing s with
  | nil =>
    unfold State.stageItems; try dsimp only
    repeat' first | (with_reducible assumption) | (with_reducible refine State.stageItem_keeps ?_) | (with_reducible exact ExP.keeps_error) | (with_reducible refine ExP.keeps_ok ?_) | (split) | (refine ExP.keeps_of ?_ (by with_reducible assumption))
  | cons y l ih =>
    unfold State.stageItems; try dsimp only
    repeat' first | (with_reducible assumption) | (with_reducible refine ih ?_) | (with_reducible refine State.stageItem_keeps ?_) | (with_reducible exact ExP.keeps_error) | (with_reducible refine ExP.keeps_ok ?_) | (split) | (refine ExP.keeps_of ?_ (by with_reducible assumption))

theorem State.progress_keeps {s₀ s : State} {a : Access} {t : Tensor} {p : Params} {first : Nat} (hk : Keeps s₀ s) : ExP.keeps s₀ (State.progress s a t p first) := by
  unfold State.progress; try dsimp only
  repeat' first | (with_reducible assumption) | (with_reducible refine State.vStore_keeps ?_) | (with_reducible refine State.vRead_keeps ?_) | (with_reducible exact Ex.keeps_error) | (with_reducible refine Ex.keeps_ok ?_) | (with_reducible exact ExP.keeps_error) | (with_reducible refine ExP.keeps_ok ?_) | (split) | (refine Ex.keeps_of ?_ (by with_reducible assumption)) | (refine ExP.keeps_of ?_ (by with_reducible assumption))

theorem State.uapply_keeps {s₀ s : State} {e : Nat} {r : Run} {b : List Byte} {t : Tensor} {p : Params} (hk : Keeps s₀ s) : Res.keeps s₀ (State.uapply s e r b t p) := by
  unfold State.uapply; try dsimp only
  repeat' first | (with_reducible assumption) | (with_reducible refine State.putFld_keeps ?_) | (with_reducible refine State.progress_keeps ?_) | (with_reducible refine State.noteSeed_keeps ?_) | (with_reducible refine State.modRun_keeps ?_) | (with_reducible refine State.setUpd_keeps ?_) | (with_reducible refine State.readLive_keeps ?_) | (with_reducible refine State.stageItems_keeps ?_) | (with_reducible exact Res.keeps_ill) | (with_reducible exact Res.keeps_illCommon) | (with_reducible exact Res.keeps_trap) | (with_reducible refine Res.keeps_done ?_) | (with_reducible refine Res.keeps_stay ?_) | (with_reducible exact ExP.keeps_error) | (with_reducible refine ExP.keeps_ok ?_) | (with_reducible refine foldl_keeps ?_ ?_; intro _ _ _) | (split) | (refine ExP.keeps_of ?_ (by with_reducible assumption)) | (refine Res.keeps_of_done ?_ (by with_reducible assumption))

theorem execUapply_keeps {s₀ s : State} {e : Nat} (hk : Keeps s₀ s) : Out.keeps s₀ (execUapply e s) := by
  unfold execUapply; try dsimp only
  repeat' first | (with_reducible assumption) | (with_reducible refine State.runCmd_keeps (fun _ _ _ _ => ?_) ?_) | (with_reducible refine State.vRead_keeps ?_) | (with_reducible refine State.uapply_keeps ?_) | (with_reducible refine Out.keeps_next ?_) | (with_reducible exact Res.keeps_ill) | (with_reducible exact Res.keeps_illCommon) | (with_reducible exact Res.keeps_trap) | (with_reducible refine Res.keeps_done ?_) | (with_reducible refine Res.keeps_stay ?_) | (with_reducible exact ExP.keeps_error) | (with_reducible refine ExP.keeps_ok ?_) | (split) | (refine ExP.keeps_of ?_ (by with_reducible assumption)) | (refine Res.keeps_of_done ?_ (by with_reducible assumption))

theorem State.lentCounts_keeps {s₀ s : State} {e : Nat} {r : Run} (hk : Keeps s₀ s) : Keeps s₀ (State.lentCounts s e r) := by
  unfold State.lentCounts; try dsimp only
  repeat' first | (with_reducible assumption) | (with_reducible refine State.meCycles_keeps ?_) | (with_reducible refine State.count_keeps ?_) | (with_reducible refine State.setFree_keeps ?_) | (with_reducible refine State.veCount_keeps ?_) | (with_reducible refine State.modRun_keeps ?_) | (with_reducible refine foldl_keeps ?_ ?_; intro _ _ _) | (split)

theorem execUapplyComplete_keeps {s₀ s : State} {e : Nat} (hk : Keeps s₀ s) : Out.keeps s₀ (execUapplyComplete e s) := by
  unfold execUapplyComplete; try dsimp only
  repeat' first | (with_reducible assumption) | (with_reducible refine State.putAll_keeps ?_) | (with_reducible refine State.wrMem_keeps ?_) | (with_reducible refine State.count_keeps ?_) | (with_reducible refine State.putFld_keeps ?_) | (with_reducible refine State.addOwnBuoy_keeps ?_) | (with_reducible refine State.setUpd_keeps ?_) | (with_reducible refine State.lentCounts_keeps ?_) | (with_reducible refine State.advance_keeps ?_) | (with_reducible refine Out.keeps_next ?_) | (with_reducible refine foldl_keeps ?_ ?_; intro _ _ _) | (split)

end Sys2Proof.Machine
end

