-- ==== Sys2Proof/Laws/RowMap.lean ====
section
/-! SUPPORT. The register rows that the row commands reach, each found at its offset of its window. -/
namespace Sys2Proof.Machine
set_option Elab.async false

def rowKprViolClear : RegDesc :=
  ⟨"KPR_VIOL_CLEAR", 0x2048, [], [], .all, .hKprViolClear, [⟨F.KPR_VIOL_CLEAR_CLEAR, .w1s⟩]⟩
theorem rowAt_KPR_VIOL_CLEAR : rowAt 0x00 0x2048 = some (rowKprViolClear, []) := by decide +kernel

def rowKprProbeCtrl : RegDesc :=
  ⟨"KPR_PROBE_CTRL", 0x2100, [], [], .all, .hKprProbeCtrl, [⟨F.KPR_PROBE_CTRL_SRC_DIE, .rw⟩, ⟨F.KPR_PROBE_CTRL_COUNT, .rw⟩, ⟨F.KPR_PROBE_CTRL_START, .w1s⟩]⟩
theorem rowAt_KPR_PROBE_CTRL : rowAt 0x00 0x2100 = some (rowKprProbeCtrl, []) := by decide +kernel

def rowChtCtrl : RegDesc :=
  ⟨"CHT_CTRL", 0x8, [], [], .all, .hChtCtrl, [⟨F.CHT_CTRL_WRITE, .w1s⟩, ⟨F.CHT_CTRL_SELECT, .w1s⟩, ⟨F.CHT_CTRL_LIC_INSTALL, .w1s⟩, ⟨F.CHT_CTRL_INV_SETTINGS, .w1s⟩, ⟨F.CHT_CTRL_RESET, .w1s⟩, ⟨F.CHT_CTRL_SLOT, .rw⟩]⟩
theorem rowAt_CHT_CTRL : rowAt 0x01 0x8 = some (rowChtCtrl, []) := by decide +kernel

def rowWchTbCtrl : RegDesc :=
  ⟨"WCH_TB_CTRL", 0x10, [], [], .all, .hWchTbCtrl, [⟨F.WCH_TB_CTRL_ROLE, .rw⟩, ⟨F.WCH_TB_CTRL_JOIN, .w1s⟩]⟩
theorem rowAt_WCH_TB_CTRL : rowAt 0x02 0x10 = some (rowWchTbCtrl, []) := by decide +kernel

def rowWchSubCtrl : RegDesc :=
  ⟨"WCH_SUB_CTRL", 0x1008, [], [.part, .shown, .aliasOnly], .all, .hWchSubCtrl, [⟨F.WCH_SUB_CTRL_GO, .w1s⟩, ⟨F.WCH_SUB_CTRL_CANCEL, .w1s⟩, ⟨F.WCH_SUB_CTRL_PLAN_ID, .rw⟩]⟩
theorem rowAt_WCH_SUB_CTRL : rowAt 0x02 0x1008 = some (rowWchSubCtrl, []) := by decide +kernel

def rowLogRdSel : RegDesc :=
  ⟨"LOG_RD_SEL", 0x48, [], [], .all, .hLogRdSel, [⟨F.LOG_RD_SEL_AREA, .rw⟩, ⟨F.LOG_RD_SEL_SLOT, .rw⟩, ⟨F.LOG_RD_SEL_INDEX, .rw⟩]⟩
theorem rowAt_LOG_RD_SEL : rowAt 0x04 0x48 = some (rowLogRdSel, []) := by decide +kernel

def rowLogTraceAddr : RegDesc :=
  ⟨"LOG_TRACE_ADDR", 0x1018, [], [], .all, .hLogTraceAddr, [⟨F.LOG_TRACE_ADDR_ADDR_LO, .rw⟩, ⟨F.LOG_TRACE_ADDR_ADDR_HI, .rw⟩]⟩
theorem rowAt_LOG_TRACE_ADDR : rowAt 0x04 0x1018 = some (rowLogTraceAddr, []) := by decide +kernel

def rowLogTraceCtrl : RegDesc :=
  ⟨"LOG_TRACE_CTRL", 0x1020, [], [], .all, .hLogTraceCtrl, [⟨F.LOG_TRACE_CTRL_LOG2, .rw⟩]⟩
theorem rowAt_LOG_TRACE_CTRL : rowAt 0x04 0x1020 = some (rowLogTraceCtrl, []) := by decide +kernel

def rowFtsRun : RegDesc :=
  ⟨"FTS_RUN", 0x30, [], [], .all, .hFtsRun, [⟨F.FTS_RUN_UNIT, .rw⟩, ⟨F.FTS_RUN_GO, .w1s⟩]⟩
theorem rowAt_FTS_RUN : rowAt 0x05 0x30 = some (rowFtsRun, []) := by decide +kernel

def rowFtsCtrClear : RegDesc :=
  ⟨"FTS_CTR_CLEAR", 0x1018, [], [], .all, .hFtsCtrClear, [⟨F.FTS_CTR_CLEAR_CLEAR, .w1s⟩]⟩
theorem rowAt_FTS_CTR_CLEAR : rowAt 0x05 0x1018 = some (rowFtsCtrClear, []) := by decide +kernel

def rowMmuInv : RegDesc :=
  ⟨"MMU_INV", 0x8, [], [.part, .shown], .all, .hMmuInv, [⟨F.MMU_INV_SCOPE, .rw⟩, ⟨F.MMU_INV_GO, .w1s⟩]⟩
theorem rowAt_MMU_INV : rowAt 0x20 0x8 = some (rowMmuInv, []) := by decide +kernel

def rowMmuFqAddr : RegDesc :=
  ⟨"MMU_FQ_ADDR", 0x20, [], [.part, .shown], .all, .hMmuFqAddr, [⟨F.MMU_FQ_ADDR_ADDR_LO, .rw⟩, ⟨F.MMU_FQ_ADDR_ADDR_HI, .rw⟩]⟩
theorem rowAt_MMU_FQ_ADDR : rowAt 0x20 0x20 = some (rowMmuFqAddr, []) := by decide +kernel

def rowMmuFqCtrl : RegDesc :=
  ⟨"MMU_FQ_CTRL", 0x28, [], [.part, .shown], .all, .hMmuFqCtrl, [⟨F.MMU_FQ_CTRL_LOG2, .rw⟩, ⟨F.MMU_FQ_CTRL_BUOY, .rw⟩, ⟨F.MMU_FQ_CTRL_BUOY_EN, .rw⟩]⟩
theorem rowAt_MMU_FQ_CTRL : rowAt 0x20 0x28 = some (rowMmuFqCtrl, []) := by decide +kernel

def rowMmuResume : RegDesc :=
  ⟨"MMU_RESUME", 0x58, [], [.part, .shown], .all, .hMmuResume, [⟨F.MMU_RESUME_FAULT, .wo⟩, ⟨F.MMU_RESUME_ACTION, .wo⟩]⟩
theorem rowAt_MMU_RESUME : rowAt 0x20 0x58 = some (rowMmuResume, []) := by decide +kernel

def rowMmuCtrClear : RegDesc :=
  ⟨"MMU_CTR_CLEAR", 0x10020, [(8, 0x100)], [], .all, .hMmuCtrClear, [⟨F.MMU_CTR_CLEAR_CLEAR, .w1s⟩]⟩
theorem rowAt_MMU_CTR_CLEAR : ∀ i < 8, rowAt 0x20 (0x10020 + i * 0x100) = some (rowMmuCtrClear, [i]) := by decide +kernel

def rowBuySignal : RegDesc :=
  ⟨"BUY_SIGNAL", 0x20000, [], [.part, .shown], .all, .hBuySignal, [⟨F.BUY_SIGNAL_BUOY, .wo⟩, ⟨F.BUY_SIGNAL_VALUE, .wo⟩]⟩
theorem rowAt_BUY_SIGNAL : rowAt 0x22 0x20000 = some (rowBuySignal, []) := by decide +kernel

def rowBuyAdd : RegDesc :=
  ⟨"BUY_ADD", 0x20008, [], [.part, .shown], .all, .hBuyAdd, [⟨F.BUY_ADD_BUOY, .wo⟩, ⟨F.BUY_ADD_VALUE, .wo⟩]⟩
theorem rowAt_BUY_ADD : rowAt 0x22 0x20008 = some (rowBuyAdd, []) := by decide +kernel

def rowBuyDoorbell : RegDesc :=
  ⟨"BUY_DOORBELL", 0x20100, [(64, 0x8)], [.part, .shown], .all, .hBuyDoorbell, [⟨F.BUY_DOORBELL_PUBLISHED, .rw⟩]⟩
theorem rowAt_BUY_DOORBELL : ∀ i < 64, rowAt 0x22 (0x20100 + i * 0x8) = some (rowBuyDoorbell, [i]) := by decide +kernel

def rowMbxE2hRead : RegDesc :=
  ⟨"MBX_E2H_READ", 0x21000, [], [.part, .shown], .all, .hMbxE2HRead, [⟨F.MBX_E2H_READ_ENTRY, .rc⟩]⟩
theorem rowAt_MBX_E2H_READ : rowAt 0x22 0x21000 = some (rowMbxE2hRead, []) := by decide +kernel

def rowMbxH2kWrite : RegDesc :=
  ⟨"MBX_H2K_WRITE", 0x21010, [], [.part, .shown], .all, .hMbxH2KWrite, [⟨F.MBX_H2K_WRITE_ENTRY, .wo⟩]⟩
theorem rowAt_MBX_H2K_WRITE : rowAt 0x22 0x21010 = some (rowMbxH2kWrite, []) := by decide +kernel

def rowMbxK2hRead : RegDesc :=
  ⟨"MBX_K2H_READ", 0x21020, [], [.part, .shown], .all, .hMbxK2HRead, [⟨F.MBX_K2H_READ_ENTRY, .rc⟩]⟩
theorem rowAt_MBX_K2H_READ : rowAt 0x22 0x21020 = some (rowMbxK2hRead, []) := by decide +kernel

def rowMbxCtrl : RegDesc :=
  ⟨"MBX_CTRL", 0x21038, [], [.part, .shown], .all, .hMbxCtrl, [⟨F.MBX_CTRL_RESET_E2H, .w1s⟩, ⟨F.MBX_CTRL_RESET_H2K, .w1s⟩, ⟨F.MBX_CTRL_RESET_K2H, .w1s⟩]⟩
theorem rowAt_MBX_CTRL : rowAt 0x22 0x21038 = some (rowMbxCtrl, []) := by decide +kernel

def rowBuyXInject : RegDesc :=
  ⟨"BUY_X_INJECT", 0x80000, [], [], .all, .hBuyXInject, [⟨F.BUY_X_INJECT_DIE, .rw⟩, ⟨F.BUY_X_INJECT_MBX, .rw⟩, ⟨F.BUY_X_INJECT_FIRE, .w1s⟩]⟩
theorem rowAt_BUY_X_INJECT : rowAt 0x22 0x80000 = some (rowBuyXInject, []) := by decide +kernel

def rowLnkPortCtrl : RegDesc :=
  ⟨"LNK_PORT_CTRL", 0x8, [(8, 0x100)], [], .all, .hLnkPortCtrl, [⟨F.LNK_PORT_CTRL_AUTO, .rw⟩, ⟨F.LNK_PORT_CTRL_HALF, .rw⟩, ⟨F.LNK_PORT_CTRL_RETRAIN, .w1s⟩, ⟨F.LNK_PORT_CTRL_FULL_TRAIN, .w1s⟩, ⟨F.LNK_PORT_CTRL_CHANGE, .w1s⟩]⟩
theorem rowAt_LNK_PORT_CTRL : ∀ n < 4, ∀ i < 8, rowAt (0x30 + n) (0x8 + i * 0x100) = some (rowLnkPortCtrl, [i]) := by decide +kernel

def rowLnk0EthQpBase : RegDesc :=
  ⟨"LNK0_ETH_QP_BASE", 0x20000, [], [.first], .all, .hLnk0EthQpBase, [⟨F.LNK0_ETH_QP_BASE_EN, .rw⟩, ⟨F.LNK0_ETH_QP_BASE_BASE_LO, .rw⟩, ⟨F.LNK0_ETH_QP_BASE_BASE_HI, .rw⟩]⟩
theorem rowAt_LNK0_ETH_QP_BASE : rowAt 0x30 0x20000 = some (rowLnk0EthQpBase, []) := by decide +kernel

def rowLnk0EthHstatus : RegDesc :=
  ⟨"LNK0_ETH_HSTATUS", 0x20008, [], [.first], .all, .hLnk0EthHstatus, [⟨F.LNK0_ETH_HSTATUS_ERR, .w1c⟩]⟩
theorem rowAt_LNK0_ETH_HSTATUS : rowAt 0x30 0x20008 = some (rowLnk0EthHstatus, []) := by decide +kernel

def rowLnkCtrClear : RegDesc :=
  ⟨"LNK_CTR_CLEAR", 0x10040, [], [], .all, .hLnkCtrClear, [⟨F.LNK_CTR_CLEAR_CLEAR, .w1s⟩]⟩
theorem rowAt_LNK_CTR_CLEAR : ∀ n < 4, rowAt (0x30 + n) 0x10040 = some (rowLnkCtrClear, []) := by decide +kernel

def rowColGrpApply : RegDesc :=
  ⟨"COL_GRP_APPLY", 0x8, [(4, 0x1000)], [.shown], .group, .hColGrpApply, [⟨F.COL_GRP_APPLY_WATCH_LO, .rw⟩, ⟨F.COL_GRP_APPLY_WATCH_HI, .rw⟩, ⟨F.COL_GRP_APPLY_GO, .w1s⟩]⟩
theorem rowAt_COL_GRP_APPLY : ∀ i < 4, rowAt 0x38 (0x8 + i * 0x1000) = some (rowColGrpApply, [i]) := by decide +kernel

def rowInt0IdlAddr : RegDesc :=
  ⟨"INT0_IDL_ADDR", 0x0, [], [.part, .shown, .first], .all, .hInt0IdlAddr, [⟨F.INT0_IDL_ADDR_ADDR_LO, .rw⟩, ⟨F.INT0_IDL_ADDR_ADDR_HI, .rw⟩]⟩
theorem rowAt_INT0_IDL_ADDR : rowAt 0x40 0x0 = some (rowInt0IdlAddr, []) := by decide +kernel

def rowInt0IdlCtrl : RegDesc :=
  ⟨"INT0_IDL_CTRL", 0x8, [], [.part, .shown, .first], .all, .hInt0IdlCtrl, [⟨F.INT0_IDL_CTRL_LOG2, .rw⟩]⟩
theorem rowAt_INT0_IDL_CTRL : rowAt 0x40 0x8 = some (rowInt0IdlCtrl, []) := by decide +kernel

def rowIntCtrClear : RegDesc :=
  ⟨"INT_CTR_CLEAR", 0x20030, [], [], .all, .hIntCtrClear, [⟨F.INT_CTR_CLEAR_CLEAR, .w1s⟩]⟩
theorem rowAt_INT_CTR_CLEAR : ∀ n < 2, rowAt (0x40 + n) 0x20030 = some (rowIntCtrClear, []) := by decide +kernel

def rowTmvAlloc : RegDesc :=
  ⟨"TMV_ALLOC", 0x0, [], [.part, .shown], .all, .hTmvAlloc, [⟨F.TMV_ALLOC_TIER, .rw⟩, ⟨F.TMV_ALLOC_LOWEST, .rw⟩, ⟨F.TMV_ALLOC_SIZE, .rw⟩, ⟨F.TMV_ALLOC_MOVABLE, .rw⟩, ⟨F.TMV_ALLOC_COUNT_M1, .rw⟩, ⟨F.TMV_ALLOC_GO, .w1s⟩]⟩
theorem rowAt_TMV_ALLOC : rowAt 0x48 0x0 = some (rowTmvAlloc, []) := by decide +kernel

def rowTmvFree : RegDesc :=
  ⟨"TMV_FREE", 0x18, [], [.part, .shown], .all, .hTmvFree, [⟨F.TMV_FREE_BASE_LO, .wo⟩, ⟨F.TMV_FREE_BASE_HI, .wo⟩]⟩
theorem rowAt_TMV_FREE : rowAt 0x48 0x18 = some (rowTmvFree, []) := by decide +kernel

def rowTmvQuota : RegDesc :=
  ⟨"TMV_QUOTA", 0x40, [(4, 0x8)], [.part, .shown, .aliasReadOnly], .all, .hTmvQuota, [⟨F.TMV_QUOTA_GIB, .rw⟩]⟩
theorem rowAt_TMV_QUOTA : ∀ i < 4, rowAt 0x48 (0x40 + i * 0x8) = some (rowTmvQuota, [i]) := by decide +kernel

def rowTmvSubAddr : RegDesc :=
  ⟨"TMV_SUB_ADDR", 0x80, [], [.part, .shown], .all, .hTmvSubAddr, [⟨F.TMV_SUB_ADDR_ADDR_LO, .rw⟩, ⟨F.TMV_SUB_ADDR_ADDR_HI, .rw⟩]⟩
theorem rowAt_TMV_SUB_ADDR : rowAt 0x48 0x80 = some (rowTmvSubAddr, []) := by decide +kernel

def rowTmvSubCtrl : RegDesc :=
  ⟨"TMV_SUB_CTRL", 0x88, [], [.part, .shown], .all, .hTmvSubCtrl, [⟨F.TMV_SUB_CTRL_LOG2, .rw⟩]⟩
theorem rowAt_TMV_SUB_CTRL : rowAt 0x48 0x88 = some (rowTmvSubCtrl, []) := by decide +kernel

def rowTmvFwReset : RegDesc :=
  ⟨"TMV_FW_RESET", 0x20030, [], [], .all, .hTmvFwReset, [⟨F.TMV_FW_RESET_PARTITION, .rw⟩, ⟨F.TMV_FW_RESET_GO, .w1s⟩]⟩
theorem rowAt_TMV_FW_RESET : rowAt 0x48 0x20030 = some (rowTmvFwReset, []) := by decide +kernel

def rowTmvLend : RegDesc :=
  ⟨"TMV_LEND", 0x20100, [(8, 0x8)], [], .all, .hTmvLend, [⟨F.TMV_LEND_BORROWER, .rw⟩, ⟨F.TMV_LEND_TIER, .rw⟩, ⟨F.TMV_LEND_SIZE, .rw⟩, ⟨F.TMV_LEND_EN, .rw⟩]⟩
theorem rowAt_TMV_LEND : ∀ i < 8, rowAt 0x48 (0x20100 + i * 0x8) = some (rowTmvLend, [i]) := by decide +kernel

def rowDftLifeMark : RegDesc :=
  ⟨"DFT_LIFE_MARK", 0x38, [], [], .all, .hDftLifeMark, [⟨F.DFT_LIFE_MARK_MARK, .wo⟩]⟩
theorem rowAt_DFT_LIFE_MARK : rowAt 0x49 0x38 = some (rowDftLifeMark, []) := by decide +kernel

def rowHstRegionInv : RegDesc :=
  ⟨"HST_REGION_INV", 0x10008, [], [], .all, .hHstRegionInv, [⟨F.HST_REGION_INV_ENTRY, .rw⟩, ⟨F.HST_REGION_INV_ALL, .rw⟩, ⟨F.HST_REGION_INV_GO, .w1s⟩]⟩
theorem rowAt_HST_REGION_INV : rowAt 0x4A 0x10008 = some (rowHstRegionInv, []) := by decide +kernel

def rowTdMeCtrClear : RegDesc :=
  ⟨"TD_ME_CTR_CLEAR", 0x10068, [(16, 0x100)], [.shown], .cluster, .hTdMeCtrClear, [⟨F.TD_ME_CTR_CLEAR_CLEAR, .w1s⟩]⟩
theorem rowAt_TD_ME_CTR_CLEAR : ∀ n < 8, ∀ i < 16, rowAt (0x08 + n) (0x10068 + i * 0x100) = some (rowTdMeCtrClear, [i]) := by decide +kernel

def rowTdVeCtrClear : RegDesc :=
  ⟨"TD_VE_CTR_CLEAR", 0x20068, [(16, 0x100)], [.shown], .cluster, .hTdVeCtrClear, [⟨F.TD_VE_CTR_CLEAR_CLEAR, .w1s⟩]⟩
theorem rowAt_TD_VE_CTR_CLEAR : ∀ n < 8, ∀ i < 16, rowAt (0x08 + n) (0x20068 + i * 0x100) = some (rowTdVeCtrClear, [i]) := by decide +kernel

def rowTdCeCtrClear : RegDesc :=
  ⟨"TD_CE_CTR_CLEAR", 0x30040, [(8, 0x100)], [.shown], .copy, .hTdCeCtrClear, [⟨F.TD_CE_CTR_CLEAR_CLEAR, .w1s⟩]⟩
theorem rowAt_TD_CE_CTR_CLEAR : ∀ n < 8, ∀ i < 8, rowAt (0x08 + n) (0x30040 + i * 0x100) = some (rowTdCeCtrClear, [i]) := by decide +kernel

def rowHbmCtrClear : RegDesc :=
  ⟨"HBM_CTR_CLEAR", 0x1030, [], [], .all, .hHbmCtrClear, [⟨F.HBM_CTR_CLEAR_CLEAR, .w1s⟩]⟩
theorem rowAt_HBM_CTR_CLEAR : ∀ n < 16, rowAt (0x10 + n) 0x1030 = some (rowHbmCtrClear, []) := by decide +kernel

def rowUpdSeqCtrClear : RegDesc :=
  ⟨"UPD_SEQ_CTR_CLEAR", 0x10020, [(8, 0x100)], [.shown], .sequencer, .hUpdSeqCtrClear, [⟨F.UPD_SEQ_CTR_CLEAR_CLEAR, .w1s⟩]⟩
theorem rowAt_UPD_SEQ_CTR_CLEAR : ∀ i < 8, rowAt 0x39 (0x10020 + i * 0x100) = some (rowUpdSeqCtrClear, [i]) := by decide +kernel

def rowUpdExpCtrClear : RegDesc :=
  ⟨"UPD_EXP_CTR_CLEAR", 0x20020, [(4, 0x100)], [.shown], .exporter, .hUpdExpCtrClear, [⟨F.UPD_EXP_CTR_CLEAR_CLEAR, .w1s⟩]⟩
theorem rowAt_UPD_EXP_CTR_CLEAR : ∀ i < 4, rowAt 0x39 (0x20020 + i * 0x100) = some (rowUpdExpCtrClear, [i]) := by decide +kernel

def rowPwrCtrClear : RegDesc :=
  ⟨"PWR_CTR_CLEAR", 0x2038, [], [], .all, .hPwrCtrClear, [⟨F.PWR_CTR_CLEAR_CLEAR, .w1s⟩]⟩
theorem rowAt_PWR_CTR_CLEAR : rowAt 0x03 0x2038 = some (rowPwrCtrClear, []) := by decide +kernel

end Sys2Proof.Machine
end

