-- ==== Sys2Proof/Laws/Rows.lean ====
section
/-! SUPPORT. The commands that are writes or reads of one register: an access that violates nothing reaches the register the command
names, through the block windows or through an alias window. -/
namespace Sys2Proof.Machine
set_option Elab.async false

variable {s : State}

/-- An access outside the alias windows that violates nothing comes from a requester that may use the block windows. -/
theorem State.mayBlock_of_clean {x : RegAcc} (hv : s.violKinds x = []) (ha : inAliases x.addr = false) : s.mayBlock x.rq = true := by
  cases hb : s.mayBlock x.rq with
  | true => rfl
  | false =>
  exfalso
  unfold State.violKinds at hv
  simp only [List.append_eq_nil_iff] at hv
  obtain ⟨-, h⟩ := hv
  cases hh : s.hit x <;> simp [hh, ha, hb, errs] at h

/-- The offset of a register lies where the alias slots show it: below 256 KiB, or in the expert half. -/
def shownOff (off : Nat) : Bool := decide (off % 8 = 0) && ((decide (off < 0x40000) && decide (off ≠ 0x3FFF8)) || (decide (0x80000 ≤ off) && decide (off < 0xC0000)))

theorem hit_block {x : RegAcc} {w off : Nat} {d : RegDesc} {idx : List Nat} (hx : x.addr = regBase + (w * 0x100000 + off)) (hw : w < 0x100)
    (ho : shownOff off = true) (hr : rowAt w off = some (d, idx)) (hs : d.vis.contains .selector = false) :
    s.hit x = if d.vis.contains .part ∧ ¬ d.vis.contains .aliasOnly then (s.selected x.rq).map (fun p => ⟨d, w, idx, d.key w off (some p), some p⟩)
      else some ⟨d, w, idx, d.key w off none, none⟩ := by
  simp only [shownOff, Bool.and_eq_true, Bool.or_eq_true, decide_eq_true_eq] at ho
  have ha : x.addr - x.addr % 8 = x.addr := by rw [hx]; unfold regBase; omega
  have hb : inBlocks x.addr = true := by simp only [inBlocks, hx, Bool.and_eq_true, decide_eq_true_eq]; omega
  have h1 : (x.addr - regBase) / 0x100000 = w := by rw [hx]; omega
  have h2 : (x.addr - regBase) % 0x100000 = off := by rw [hx]; omega
  unfold State.hit
  simp only [ha, hb, h1, h2, hr, hs, if_true, Bool.false_eq_true, if_false]

theorem hit_alias {x : RegAcc} {p slot w off : Nat} {d : RegDesc} {idx : List Nat}
    (hx : x.addr = aliasBase + p * 0x1000000 + slot * 0x80000 + (if 0x80000 ≤ off then off - 0x40000 else off))
    (hsl : aliasSlots[slot]? = some w) (ho : shownOff off = true) (hr : rowAt w off = some (d, idx)) :
    s.hit x = some ⟨d, w, idx, d.key w off (some p), some p⟩ := by
  have hl : slot < 28 := (List.getElem?_eq_some_iff.mp hsl).1
  simp only [shownOff, Bool.and_eq_true, Bool.or_eq_true, decide_eq_true_eq] at ho
  obtain ⟨o, hoo⟩ : ∃ o, (if 0x80000 ≤ off then off - 0x40000 else off) = o := ⟨_, rfl⟩
  have ho' : o % 8 = 0 ∧ o < 0x80000 ∧ o ≠ 0x3FFF8 ∧ (if 0x40000 ≤ o then 0x80000 else 0) + o % 0x40000 = off := by
    split at hoo <;> split <;> omega
  rw [hoo] at hx
  have ha : x.addr - x.addr % 8 = x.addr := by rw [hx]; unfold aliasBase; omega
  have hb : inBlocks x.addr = false := by
    simp only [inBlocks, hx, Bool.and_eq_false_iff, decide_eq_false_iff_not]; right; unfold aliasBase regBase; omega
  have h0 : x.addr - aliasBase = p * 0x1000000 + slot * 0x80000 + o := by omega
  have h1 : aliasSlot x.addr = slot := by unfold aliasSlot; rw [h0]; omega
  have h2 : aliasOffset x.addr = off := by
    have : (x.addr - aliasBase) % 0x80000 = o := by rw [h0]; omega
    simp only [aliasOffset, this, if_neg ho'.2.2.1, ho'.2.2.2]
  have h3 : aliasPart x.addr = p := by unfold aliasPart; rw [h0]; omega
  have h4 : off ≠ 0x7FFF8 := by omega
  unfold State.hit
  simp only [ha, hb, h1, h2, h3, hsl, hr, h4, Bool.false_eq_true, if_false, Nat.zero_add]

theorem hit_aliasAddr {x : RegAcc} {p w off k : Nat} {d : RegDesc} {idx : List Nat} (hx : x.addr = aliasAddr p k)
    (hk : k % 0x10000000 = w * 0x100000 + off) (hw : w < 0x100) (ho : shownOff off = true) (hr : rowAt w off = some (d, idx)) :
    s.hit x = some ⟨d, w, idx, d.key w off (some p), some p⟩ ∨ x.addr = regBase + (w * 0x100000 + off) := by
  have hoo : off < 0x100000 := by
    simp only [shownOff, Bool.and_eq_true, Bool.or_eq_true, decide_eq_true_eq] at ho; omega
  unfold aliasAddr at hx
  have h1 : k % 0x10000000 / 0x100000 = w := by omega
  have h2 : k % 0x100000 = off := by omega
  simp only [h1, h2] at hx
  split at hx
  · rename_i slot hsl
    left
    refine hit_alias hx ?_ ho hr
    rw [List.findIdx?_eq_some_iff_getElem] at hsl
    obtain ⟨hl, hp, -⟩ := hsl
    rw [List.getElem?_eq_getElem hl]
    simpa using hp
  · right; omega

/-- A row command's access that violates nothing reaches the register whose key it names. -/
theorem hit_row {rq : Requester} {w off k : Nat} {wr : Bool} {v : Nat} {d : RegDesc} {idx : List Nat} (hr : rowAt w off = some (d, idx))
    (hk : k = w * 0x100000 + off) (hw : w < 0x100) (ho : shownOff off = true) (hs : d.vis.contains .selector = false)
    (hp : d.vis.contains .part = false) (hv : s.violKinds ⟨rq, s.rowAddr rq k, 8, wr, v⟩ = []) :
    ∃ q, s.hit ⟨rq, s.rowAddr rq k, 8, wr, v⟩ = some ⟨d, w, idx, k, q⟩ := by
  have hoo : off < 0x100000 := by
    simp only [shownOff, Bool.and_eq_true, Bool.or_eq_true, decide_eq_true_eq] at ho; omega
  have hk' : k % 0x10000000 = w * 0x100000 + off := by omega
  have hp' : ¬ Vis.part ∈ d.vis := by simpa using hp
  have key : ∀ q, d.key w off q = k := by intro q; cases q <;> simp [RegDesc.key, hp', hk]
  have blk : s.rowAddr rq k = regBase + (w * 0x100000 + off) → ∃ q, s.hit ⟨rq, s.rowAddr rq k, 8, wr, v⟩ = some ⟨d, w, idx, k, q⟩ := by
    intro ha
    refine ⟨none, ?_⟩
    rw [hit_block (x := ⟨rq, s.rowAddr rq k, 8, wr, v⟩) ha hw ho hr hs]
    simp [hp', key]
  by_cases hb : s.mayBlock rq = true
  · exact blk (by simp [State.rowAddr, hb, hk'])
  · cases hq : s.ownWindow rq with
    | none => exact blk (by simp [State.rowAddr, hb, hq, hk'])
    | some p =>
      have ha : s.rowAddr rq k = aliasAddr p k := by simp [State.rowAddr, hb, hq]
      rcases hit_aliasAddr (s := s) (x := ⟨rq, s.rowAddr rq k, 8, wr, v⟩) ha hk' hw ho hr with h | h
      · exact ⟨some p, by rw [h]; simp [key]⟩
      · exact blk h

/-- The same for a register of a partition: through an alias window it is the partition named, through a block window the one that
KPR_PSEL selects. -/
theorem hit_part {rq : Requester} {p w off k : Nat} {wr : Bool} {v : Nat} {d : RegDesc} {idx : List Nat} (hr : rowAt w off = some (d, idx))
    (hk : k = partInst p + w * 0x100000 + off) (hw : w < 0x100) (ho : shownOff off = true) (hs : d.vis.contains .selector = false)
    (hp : d.vis.contains .part = true) (hal : w ∈ aliasSlots)
    (hsel : rq = .keeper ∨ rq = .sideband → s.selected rq = some p) (hv : s.violKinds ⟨rq, partAddr rq p k, 8, wr, v⟩ = []) :
    s.hit ⟨rq, partAddr rq p k, 8, wr, v⟩ = some ⟨d, w, idx, k, some p⟩ := by
  have hoo : off < 0x100000 := by
    simp only [shownOff, Bool.and_eq_true, Bool.or_eq_true, decide_eq_true_eq] at ho; omega
  have hk' : k % 0x10000000 = w * 0x100000 + off := by unfold partInst at hk; omega
  have hp' : Vis.part ∈ d.vis := by simpa using hp
  have key : d.key w off (some p) = k := by simp [RegDesc.key, hk, hp']
  have blk : partAddr rq p k = regBase + (w * 0x100000 + off) → s.selected rq = some p →
      s.hit ⟨rq, partAddr rq p k, 8, wr, v⟩ = some ⟨d, w, idx, k, some p⟩ := by
    intro ha hsl
    have hh := hit_block (s := s) (x := ⟨rq, partAddr rq p k, 8, wr, v⟩) ha hw ho hr hs
    by_cases hao : Vis.aliasOnly ∈ d.vis
    · exfalso
      have hia : inAliases (partAddr rq p k) = false := by
        rw [ha]; simp only [inAliases, Bool.and_eq_false_iff, decide_eq_false_iff_not]; left; unfold aliasBase regBase; omega
      unfold State.violKinds at hv
      simp [hh, hia, errs, hao] at hv
    · rw [hh]; simp [hp', hao, hsl, key]
  have ali : rq ≠ .keeper → rq ≠ .sideband → s.hit ⟨rq, partAddr rq p k, 8, wr, v⟩ = some ⟨d, w, idx, k, some p⟩ := by
    intro h1 h2
    have ha : partAddr rq p k = aliasAddr p k := by cases rq <;> simp_all [partAddr]
    have hq : aliasAddr p k ≠ regBase + (w * 0x100000 + off) := by
      have e1 : k % 0x10000000 / 0x100000 = w := by omega
      have e2 : k % 0x100000 = off := by omega
      unfold aliasAddr
      simp only [e1, e2]
      split
      · unfold aliasBase regBase; omega
      · rename_i hn
        rw [List.findIdx?_eq_none_iff] at hn
        exact absurd (hn w hal) (by simp)
    rcases hit_aliasAddr (s := s) (x := ⟨rq, partAddr rq p k, 8, wr, v⟩) ha hk' hw ho hr with h | h
    · rw [h, key]
    · exact absurd (ha.symm.trans h) hq
  by_cases hkq : rq = .keeper ∨ rq = .sideband
  · refine blk ?_ (hsel hkq)
    rcases hkq with rfl | rfl <;> simp [partAddr, hk']
  · simp only [not_or] at hkq; exact ali hkq.1 hkq.2

/-- A write that reaches a register and violates nothing: what it settles first, the register itself, and what follows. -/
theorem regWrite_hit {x : RegAcc} {h : Hit} (hk : s.keeperOn = true) (hv : s.violKinds x = []) (hh : s.hit x = some h) :
    s.regWrite x = ((s.beforeWrite h (s.newReg x h)).putReg h.key (s.newReg x h)).afterWrite x h (s.reg h.key) := by
  simp [State.regWrite, hk, hv, hh]

/-- A row command's write that violates nothing. -/
theorem rowWrite_eq {rq : Requester} {w off k v : Nat} {d : RegDesc} {idx : List Nat} (hr : rowAt w off = some (d, idx))
    (hk : k = w * 0x100000 + off) (hw : w < 0x100) (ho : shownOff off = true) (hs : d.vis.contains .selector = false)
    (hp : d.vis.contains .part = false) (hon : s.keeperOn = true) (hv : s.violKinds ⟨rq, s.rowAddr rq k, 8, true, v⟩ = []) :
    ∃ q a, s.rowWrite rq k v = ((s.beforeWrite ⟨d, w, idx, k, q⟩ (s.newReg ⟨rq, a, 8, true, v⟩ ⟨d, w, idx, k, q⟩)).putReg k
      (s.newReg ⟨rq, a, 8, true, v⟩ ⟨d, w, idx, k, q⟩)).afterWrite ⟨rq, a, 8, true, v⟩ ⟨d, w, idx, k, q⟩ (s.reg k) := by
  obtain ⟨q, hq⟩ := hit_row hr hk hw ho hs hp hv
  exact ⟨q, _, regWrite_hit hon hv hq⟩

/-- A partition register's write that violates nothing. -/
theorem partWrite_eq {rq : Requester} {p w off k v : Nat} {d : RegDesc} {idx : List Nat} (hr : rowAt w off = some (d, idx))
    (hk : k = partInst p + w * 0x100000 + off) (hw : w < 0x100) (ho : shownOff off = true) (hs : d.vis.contains .selector = false)
    (hp : d.vis.contains .part = true) (hal : w ∈ aliasSlots) (hon : s.keeperOn = true)
    (hv : s.violKinds ⟨rq, partAddr rq p k, 8, true, v⟩ = []) (hsel : rq = .keeper ∨ rq = .sideband → s.selected rq = some p) :
    ∃ a, s.partWrite rq p k v = ((s.beforeWrite ⟨d, w, idx, k, some p⟩ (s.newReg ⟨rq, a, 8, true, v⟩ ⟨d, w, idx, k, some p⟩)).putReg k
      (s.newReg ⟨rq, a, 8, true, v⟩ ⟨d, w, idx, k, some p⟩)).afterWrite ⟨rq, a, 8, true, v⟩ ⟨d, w, idx, k, some p⟩ (s.reg k) :=
  ⟨_, regWrite_hit hon hv (hit_part hr hk hw ho hs hp hal hsel hv)⟩

/-- A field of RW bits after a 64-bit write holds the data's bits. -/
theorem fget_written {x : RegAcc} {d : RegDesc} {w : Word} {f : Fld} (hf : f.hi < 64) (hx : x.bytes = 8)
    (h : ∀ i, f.lo ≤ i → i ≤ f.hi → (d.bits .rw).getLsbD i = true ∧ (d.bits .w1c).getLsbD i = false) :
    fget (x.written d w) f = fget (BitVec.ofNat 64 x.data) f := by
  apply Nat.eq_of_testBit_eq
  intro i
  rw [testBit_fget, testBit_fget]
  by_cases hi : i < f.hi + 1 - f.lo
  · obtain ⟨h3, h4⟩ := h (f.lo + i) (by omega) (by omega)
    have h64 : f.lo + i < 64 := by omega
    have ones : Nat.testBit 18446744073709551615 (f.lo + i) = true := by
      have := Nat.testBit_two_pow_sub_one 64 (f.lo + i)
      simpa [h64] using this
    simp only [RegAcc.written, RegAcc.word, RegAcc.mask, hx, if_true, BitVec.getLsbD_and, BitVec.getLsbD_or, BitVec.getLsbD_not, h3, h4,
      BitVec.getLsbD_ofNat, ones, h64, decide_true]
    simp
  · simp [hi]

/-- Bits that are neither RW nor W1C keep their value in a 64-bit write. -/
theorem fget_written_keep {x : RegAcc} {d : RegDesc} {w : Word} {f : Fld} (hf : f.hi < 64)
    (h : ∀ i, f.lo ≤ i → i ≤ f.hi → (d.bits .rw).getLsbD i = false ∧ (d.bits .w1c).getLsbD i = false) :
    fget (x.written d w) f = fget w f := by
  apply Nat.eq_of_testBit_eq
  intro i
  rw [testBit_fget, testBit_fget]
  by_cases hi : i < f.hi + 1 - f.lo
  · obtain ⟨h3, h4⟩ := h (f.lo + i) (by omega) (by omega)
    have h64 : f.lo + i < 64 := by omega
    simp only [RegAcc.written, BitVec.getLsbD_and, BitVec.getLsbD_or, BitVec.getLsbD_not, h3, h4, h64, decide_true]
    simp
  · simp [hi]

end Sys2Proof.Machine
end

