-- ==== Sys2Proof/Laws/Tables.lean ====
section
/-! SUPPORT. Tables of records: a record put, removed or changed under one key, and every other key's record kept. -/
namespace Sys2Proof.Machine
set_option Elab.async false

variable {α : Type} {l : List (Nat × α)} {j k : Nat} {v : α} {f : α → α}

@[simp] theorem Table.get?_put_same : Table.get? (Table.put l k v) k = some v := by
  induction l with
  | nil => simp [Table.put, Table.get?]
  | cons e l ih =>
    obtain ⟨a, x⟩ := e
    simp only [Table.put]
    split
    · simp [Table.get?]
    · split
      · simp [Table.get?]
      · rename_i h _; simp [Table.get?, h, ih]

theorem Table.get?_put_other (h : j ≠ k) : Table.get? (Table.put l k v) j = Table.get? l j := by
  induction l with
  | nil => simp [Table.put, Table.get?, h]
  | cons e l ih =>
    obtain ⟨a, x⟩ := e
    simp only [Table.put]
    split
    · rename_i h1; subst h1; simp [Table.get?, h]
    · split
      · simp [Table.get?, h]
      · simp [Table.get?, ih]

@[simp] theorem Table.get?_del_same : Table.get? (Table.del l k) k = none := by
  induction l with
  | nil => rfl
  | cons e l ih =>
    obtain ⟨a, x⟩ := e
    by_cases h : a = k
    · rw [Table.del, List.filter_cons_of_neg (by simp [h])]; exact ih
    · rw [Table.del, List.filter_cons_of_pos (by simp [h])]; simp only [Table.get?, if_neg (Ne.symm h)]; exact ih

theorem Table.get?_del_other (h : j ≠ k) : Table.get? (Table.del l k) j = Table.get? l j := by
  induction l with
  | nil => rfl
  | cons e l ih =>
    obtain ⟨a, x⟩ := e
    by_cases h1 : a = k
    · subst h1; rw [Table.del, List.filter_cons_of_neg (by simp)]; simp only [Table.get?, if_neg h]; exact ih
    · rw [Table.del, List.filter_cons_of_pos (by simp [h1])]; simp only [Table.get?]; split <;> first | rfl | exact ih

@[simp] theorem Table.get?_mod_same : Table.get? (Table.mod l k f) k = (Table.get? l k).map f := by
  induction l with
  | nil => rfl
  | cons e l ih =>
    obtain ⟨a, x⟩ := e
    simp only [Table.mod] at ih ⊢
    by_cases h : a = k
    · subst h; simp [Table.get?]
    · simp [h, Table.get?, Ne.symm h, ih]

theorem Table.get?_mod_other (h : j ≠ k) : Table.get? (Table.mod l k f) j = Table.get? l j := by
  induction l with
  | nil => rfl
  | cons e l ih =>
    obtain ⟨a, x⟩ := e
    simp only [Table.mod] at ih ⊢
    by_cases h1 : a = k
    · subst h1; simp [Table.get?, ih, h]
    · simp [h1, Table.get?, ih]

end Sys2Proof.Machine
end

