-- ==== Sys2Proof/WellFormed.lean ====
section
/-! DEFINITION. Which commands are well formed: an operand that names a part of the package names one the package has. The
machine gives a meaning to the others too (they name nothing, and nothing happens, or the register path answers them); the
check is what a driver of the model holds its commands to. -/
namespace Sys2Proof

/-- Is a partition number in range (R39)? -/
def wfPart (p : Nat) : Bool := decide (p < 32)

/-- A requester of the package: harts 0 to 95, partitions 0 to 31, packages 0 to 4,095. -/
def wfRequester : Requester → Bool
  | .hart h _ => decide (h < 96)
  | .keeper => true
  | .sideband => true
  | .pcie p => wfPart p
  | .remote pkg => decide (pkg < 4096)

/-- An agent of the coherence protocol. -/
def wfAgent : Agent → Bool
  | .hart h => decide (h < 96)
  | .dieCache d => decide (d < 18)
  | .port p => decide (p < 8)
  | .remote => true

/-- A crossing queue: 96 mailboxes, the log queues of 19 dies. -/
def wfQueue : QueueId → Bool
  | .mailbox i => decide (i < 96)
  | .log d => decide (d < 19)
  | .other d _ _ _ => decide (d < 19)

/-- A value that a register of 64 bits can take. -/
def wfValue (v : Nat) : Bool := decide (v < 2 ^ 64)

/-- An engine identifier (R61). -/
def wfEngine (e : Nat) : Bool := decide (e < 65536)

/-- A source of Keeper messages. -/
def wfSource : KeeperSource → Bool
  | .mailbox p => wfPart p
  | .sideband e => wfValue e

/-- A port of a link die: LD0 to LD3, ports 0 to 7 (R452). -/
def wfPort (die port : Nat) : Bool := decide (die < 4) && decide (port < 8)

/-- The header fields of a message of Morco Link within their widths (R469). -/
def wfMsg (m : LinkMsg) : Bool :=
  decide (m.src < 4096) && decide (m.dst < 4096) && decide (m.hops < 256) && decide (m.tag < 2 ^ 32) && decide (m.space < 2) && decide (m.part < 256)
    && decide (m.addr < 2 ^ 64) && decide (m.len < 2 ^ 16) && decide (m.epoch < 2 ^ 64) && decide (m.data.length ≤ 4096)

/-- A command is well formed. -/
def Instr.wf : Instr → Bool
  | .registerWrite rq addr _ value => wfRequester rq && decide (addr < 2 ^ 57) && wfValue value
  | .counterLowerHalfRead rq addr => wfRequester rq && decide (addr < 2 ^ 57)
  | .violClear rq => wfRequester rq
  | .expertSettingApply => true
  | .probeStart rq value => wfRequester rq && wfValue value
  | .probeDone _ _ _ => true
  | .trackerEntryFree die => decide (die < 19)
  | .watchStart => true
  | .holdoverEntry => true
  | .acquireTimeout => true
  | .tbLock => true
  | .tbLockLost => true
  | .watchUnlocked => true
  | .holdoverSplit => true
  | .join rq value => wfRequester rq && wfValue value
  | .watchCountStep _ => true
  | .timeReqSend => true
  | .timeReqReceive die port _ => wfPort die port
  | .timeRspReceive _ _ _ _ => true
  | .go rq p value => wfRequester rq && wfPart p && wfValue value
  | .planAdmit => true
  | .cancel rq p value => wfRequester rq && wfPart p && wfValue value
  | .slotStart e => wfEngine e
  | .beSlotStart e => wfEngine e
  | .beSuspend e => wfEngine e
  | .beResume e => wfEngine e
  | .slotWatchdog e => wfEngine e
  | .segmentEnd e => wfEngine e
  | .mload e => wfEngine e
  | .shadowLoadDone e => wfEngine e
  | .mstream e => wfEngine e
  | .swap e => wfEngine e
  | .mfence e => wfEngine e
  | .mfenceComplete e => wfEngine e
  | .meCtrClear rq die bank => wfRequester rq && decide (die < 8) && decide (bank < 16)
  | .vload e => wfEngine e
  | .vstore e => wfEngine e
  | .vchain e => wfEngine e
  | .vred e => wfEngine e
  | .vscan e => wfEngine e
  | .vcompress e => wfEngine e
  | .vexpand e => wfEngine e
  | .vxpose e => wfEngine e
  | .vcntSet e => wfEngine e
  | .vcntAdd e => wfEngine e
  | .vcntStore e => wfEngine e
  | .vfence e => wfEngine e
  | .vfenceComplete e => wfEngine e
  | .vsideArmSum e => wfEngine e
  | .vsideArmMax e => wfEngine e
  | .vsideStore e => wfEngine e
  | .veCtrClear rq die bank => wfRequester rq && decide (die < 8) && decide (bank < 16)
  | .nop e => wfEngine e
  | .endSegment e => wfEngine e
  | .bwait e => wfEngine e
  | .bwaitSatisfied e => wfEngine e
  | .bwaitExpired e => wfEngine e
  | .bsignal e => wfEngine e
  | .badd e => wfEngine e
  | .bcmp e => wfEngine e
  | .mpost e => wfEngine e
  | .tstamp e => wfEngine e
  | .doorbellWrite rq p d value => wfRequester rq && wfPart p && decide (d < 64) && wfValue value
  | .buySignal rq p value => wfRequester rq && wfPart p && wfValue value
  | .buyAdd rq p value => wfRequester rq && wfPart p && wfValue value
  | .ccopy e => wfEngine e
  | .cfill e => wfEngine e
  | .cfence e => wfEngine e
  | .cfenceComplete e => wfEngine e
  | .completionRecordWrite e => wfEngine e
  | .ceCtrClear rq die bank => wfRequester rq && decide (die < 8) && decide (bank < 8)
  | .xqPointerMismatch q => wfQueue q
  | .xqResetDone q => wfQueue q
  | .mbxE2HRead rq p => wfRequester rq && wfPart p
  | .mbxK2HRead rq p => wfRequester rq && wfPart p
  | .mbxH2KWrite rq p value => wfRequester rq && wfPart p && wfValue value
  | .resetE2H rq p => wfRequester rq && wfPart p
  | .resetH2K rq p => wfRequester rq && wfPart p
  | .resetK2H rq p => wfRequester rq && wfPart p
  | .mbxResetDone p m => wfPart p && decide (m < 3)
  | .injectFire rq value => wfRequester rq && wfValue value
  | .groupApplyGo rq g value => wfRequester rq && decide (g < 4) && wfValue value
  | .groupApplyEffect g => decide (g < 4)
  | .cstep e => wfEngine e
  | .creduce e => wfEngine e
  | .coll g _ _ _ _ _ => decide (g < 4)
  | .creduceComplete e => wfEngine e
  | .exchFailed e => wfEngine e
  | .cbeacon e => wfEngine e
  | .subroundOpen g => decide (g < 4)
  | .beaconMessage g _ => decide (g < 4)
  | .beaconDecide g => decide (g < 4)
  | .flipToggle => true
  | .uapply e => wfEngine e
  | .uapplyComplete e => wfEngine e
  | .xopen e => wfEngine e
  | .xshard e => wfEngine e
  | .xclose e => wfEngine e
  | .streamCloseComplete e => wfEngine e
  | .xrelay e => wfEngine e
  | .seqCtrClear rq seq => wfRequester rq && decide (seq < 8)
  | .expCtrClear rq exp => wfRequester rq && decide (exp < 4)
  | .allocGo rq p value => wfRequester rq && wfPart p && wfValue value
  | .allocComplete p => wfPart p
  | .tmvFree rq p value => wfRequester rq && wfPart p && wfValue value
  | .frameZeroed _ => true
  | .tmove e => wfEngine e
  | .frameMoveDone _ => true
  | .stopPoint e => wfEngine e
  | .tierLate e => wfEngine e
  | .routeSettle route => decide (route < 256)
  | .tmvLendWrite rq j value => wfRequester rq && decide (j < 8) && wfValue value
  | .tmvQuotaWrite rq p tier value => wfRequester rq && wfPart p && decide (1 ≤ tier) && decide (tier ≤ 4) && wfValue value
  | .demotion p _ => wfPart p
  | .fwReset rq value => wfRequester rq && wfValue value
  | .subLogConfigWrite rq p _ value => wfRequester rq && wfPart p && wfValue value
  | .durableAdvance => true
  | .stripeClose => true
  | .writeCacheRoom => true
  | .readLimitRelocate _ => true
  | .flashPatrol _ _ => true
  | .relocationDone _ => true
  | .dftLifeMark rq value => wfRequester rq && wfValue value
  | .flashStackLost stack => decide (stack < 16)
  | .stackRebuildDone stack => decide (stack < 16)
  | .hbmBandStart stack => decide (stack < 16)
  | .hbmQueueAdmit stack _ _ addr _ => decide (stack < 16) && decide (addr < 2 ^ 57)
  | .hbmRefresh stack _ => decide (stack < 16)
  | .hbmScrub stack _ _ => decide (stack < 16)
  | .hbmCtrClear rq stack => wfRequester rq && decide (stack < 16)
  | .tlbMiss e _ _ => wfEngine e
  | .walkComplete _ => true
  | .spillCopyDone e => wfEngine e
  | .faultResume rq p slot => wfRequester rq && wfPart p && decide (slot < 64)
  | .faultAbort rq p slot => wfRequester rq && wfPart p && decide (slot < 64)
  | .heldSlotRestore p slot => wfPart p && decide (slot < 64)
  | .invalidate rq p value => wfRequester rq && wfPart p && wfValue value
  | .invalidateComplete p => wfPart p
  | .fqConfigWrite rq p _ value => wfRequester rq && wfPart p && wfValue value
  | .mmuCtrClear rq die => wfRequester rq && decide (die < 8)
  | .rdShared a addr _ => wfAgent a && decide (addr < 2 ^ 57)
  | .rdUnique a addr _ _ => wfAgent a && decide (addr < 2 ^ 57)
  | .upgrade a addr _ _ => wfAgent a && decide (addr < 2 ^ 57)
  | .rdOnce a addr _ => wfAgent a && decide (addr < 2 ^ 57)
  | .wrLine a addr _ _ => wfAgent a && decide (addr < 2 ^ 57)
  | .writeback a addr _ => wfAgent a && decide (addr < 2 ^ 57)
  | .evict a addr => wfAgent a && decide (addr < 2 ^ 57)
  | .forwardAnswer addr _ => decide (addr < 2 ^ 57)
  | .cohTimeout addr => decide (addr < 2 ^ 57)
  | .pcieInboundRequest port _ addr _ _ => decide (port < 8) && decide (addr < 2 ^ 64)
  | .fenceRead port => decide (port < 8)
  | .fenceReadComplete port => decide (port < 8)
  | .pcieRelay port _ addr _ _ => decide (port < 8) && decide (addr < 2 ^ 64)
  | .outboundWindowAccess a addr _ _ => wfAgent a && decide (addr < 2 ^ 57)
  | .pcieReadTimeout port _ => decide (port < 8)
  | .regionInv rq value => wfRequester rq && wfValue value
  | .regionInvComplete => true
  | .epochTick => true
  | .iopen e => wfEngine e
  | .irun e => wfEngine e
  | .irunBudgetExpire e => wfEngine e
  | .iclose e => wfEngine e
  | .sampleFinish e slot => wfEngine e && decide (slot < 65536)
  | .intCtrClear rq die => wfRequester rq && decide (die < 2)
  | .idlConfigWrite rq p _ value => wfRequester rq && wfPart p && wfValue value
  | .laserLow connector => decide (connector < 8)
  | .laserRestored connector => decide (connector < 8)
  | .flitReceive die port _ _ => wfPort die port
  | .replayReqReceive die port seq => wfPort die port && decide (seq < 4096)
  | .replayReqRepeat die port => wfPort die port
  | .replayTimeout die port => wfPort die port
  | .rdReq die msg => decide (die < 4) && wfMsg msg
  | .remoteReadServe die _ => decide (die < 4)
  | .wrReq die msg => decide (die < 4) && wfMsg msg
  | .regRd die msg => decide (die < 4) && wfMsg msg
  | .regWr die msg => decide (die < 4) && wfMsg msg
  | .remoteWriteAcked die _ => decide (die < 4)
  | .rdRsp die msg => decide (die < 4) && wfMsg msg
  | .wrAck die msg => decide (die < 4) && wfMsg msg
  | .regRsp die msg => decide (die < 4) && wfMsg msg
  | .rspTimeout die _ => decide (die < 4)
  | .portChange die port value => wfPort die port && wfValue value
  | .retrain rq die port => wfRequester rq && wfPort die port
  | .fullTrain rq die port => wfRequester rq && wfPort die port
  | .change rq die port value => wfRequester rq && wfPort die port && wfValue value
  | .trainingComplete die port _ _ => wfPort die port
  | .trainingFail die port cause => wfPort die port && decide (1 ≤ cause) && decide (cause ≤ 5)
  | .trainingRetry die port => wfPort die port
  | .portDown die port => wfPort die port
  | .ethQpBaseWrite rq value => wfRequester rq && wfValue value
  | .ethQpError h => decide (h < 64)
  | .rdmaInbound _ _ _ _ addr _ _ _ => decide (addr < 2 ^ 64)
  | .ethHandleReset rq mask => wfRequester rq && wfValue mask
  | .lnkCtrClear rq die => wfRequester rq && decide (die < 4)
  | .powerUp _ => true
  | .sextantBand _ _ _ => true
  | .fastLimit => true
  | .opChangeDone die => decide (die < 8)
  | .modeTakesEffect => true
  | .unitUnavailable unit => decide (unit < 65536)
  | .thermalSample _ _ => true
  | .emergencyEnd => true
  | .powerFailWarning => true
  | .powerDown => true
  | .powerRestore => true
  | .railFault _ => true
  | .railOutOfWindow _ => true
  | .overVoltage => true
  | .refclkLoss => true
  | .refclkRestore => true
  | .pwrCtrClear rq => wfRequester rq
  | .stageKeeper _ _ _ => true
  | .stageChart _ => true
  | .stageClocksAndNetwork _ _ _ => true
  | .stageMemories _ _ _ _ _ _ => true
  | .stageLinks _ _ _ => true
  | .stageCompute _ _ => true
  | .chartWrite rq slot => wfRequester rq && decide (slot < 64)
  | .chartSelect rq slot => wfRequester rq && decide (slot < 64)
  | .licInstall rq => wfRequester rq
  | .invSettings rq => wfRequester rq
  | .chartReset rq => wfRequester rq
  | .chtCommandEnd => true
  | .ping kmsg => wfSource kmsg
  | .identity kmsg => wfSource kmsg
  | .debugOpen kmsg => wfSource kmsg
  | .debugOpened => true
  | .keeperReply p => wfPart p
  | .spareMappingEffect => true
  | .sbRegRd entry => wfValue entry
  | .sbRegWr entry _ => wfValue entry
  | .sbBlock entry _ => wfValue entry
  | .sbBlockTimeout => true
  | .sbReplyRead => true
  | .sysReset _ => true
  | .patternLoadDone unit _ => decide (unit < 65536)
  | .ftSegmentStart unit => decide (unit < 65536)
  | .ftSegmentEnd unit _ => decide (unit < 65536)
  | .ftStarved unit => decide (unit < 65536)
  | .ftsRun rq value => wfRequester rq && wfValue value
  | .ftsCtrClear rq => wfRequester rq
  | .logEventReceive die => decide (die < 19)
  | .logWindowEnd => true
  | .incidentClose => true
  | .logRdSelWrite rq value => wfRequester rq && wfValue value
  | .logReadReady => true
  | .traceConfigWrite rq _ value => wfRequester rq && wfValue value
  | .outboundReadCompletion port _ _ _ => decide (port < 8)
  | .downstreamMsi port _ _ => decide (port < 8)
  | .roceAckReceive h _ _ => decide (h < 64)
  | .localAckTimeout h => decide (h < 64)
  | .congestionNotification h => decide (h < 64)
  | .rateRecovery h => decide (h < 64)
  | .priorityFlowControl oe prio _ => decide (oe < 8) && decide (prio < 8)
  | .flitSlot die port => wfPort die port
  | .powerUpRetry => true
  | .ftTestDue unit => decide (unit < 65536)
  | .inputBelowDropout => true

end Sys2Proof
end

