-- ==== Sys2Proof/Tests/Slice0.lean ====
section
/-! SUPPORT. Small checks of the model: an ill-formed command for each check of WellFormed; for each statement with hypotheses, a concrete state and operands that
meet them, clause by clause; and single steps whose results are worked out by hand from the rules named. -/
namespace Sys2Proof.Tests
set_option Elab.async false
open Sys2Proof Sys2Proof.Machine Sys2Proof.Claims

/-! ## Small states -/

/-- A package that runs under the factory default Chart, every domain on, watch count 0. -/
def up : State :=
  (State.reset.setBoot { State.reset.boot with chart := defaultChart, powered := true }).setDomains (2 ^ 96 - 1)

/-- The package with registers set. -/
def withRegs (s : State) (ws : List (Nat × Word)) : State := ws.foldl (fun s w => s.putReg w.1 w.2) s

/-- Bytes of n zeros with little-endian fields (offset, bytes, value) in them. -/
def entry (n : Nat) (fs : List (Nat × Nat × Nat)) : List Byte :=
  (List.range n).map (fun i => match fs.find? (fun f => decide (f.1 ≤ i) && decide (i < f.1 + f.2.1)) with
    | some f => BitVec.ofNat 8 (f.2.2 / 256 ^ (i - f.1))
    | none => 0)

/-- The TLB of a die maps the first GiB of partition 0 to itself. -/
def identity (die : Nat) : TlbEntry :=
  { die := die, part := 0, va := 0, size := 2 ^ 30, pa0 := 0, pa1 := 0, sided := 0, set := 0, r := true, w := true, a := true, pinned := true }

/-- A guaranteed plan of partition 0 with one slot on an engine. -/
def planOn (e : Nat) (st : SlotState) : Plan :=
  { part := 0, guaranteed := true, start := 0, buoy := 5, result := 0x200000, tag := 7, ending := 0, endSlot := 0xFFFFFFFF
    slots := [{ engine := e, off := 0, gran := 0, count := 1, demand := [], stream := 0x10000, energy := 0, cycles := 100, state := st }] }

/-- A state in which every die's TLB maps the first GiB. -/
def mapped (s : State) : State := s.setMmu { s.mmu with tlb := (List.range 8).map identity }

/-- Bytes in memory. -/
def withBytes (s : State) (a : Nat) (bs : List Byte) : State := s.setMem (putBytes s.mem a bs)

/-- A run of slot 0 of plan 1, with a segment at 0x10000 of one entry of 128 bytes. -/
def aRun : Run := { plan := 1, stream := 0x10000, length := 128 }

/-- An engine has a run. -/
def running (s : State) (e : Nat) (r : Run) : State := (s.setEng { runs := [(e, r)] }).setAdm { plans := [(1, planOn e .running)], lastId := 1 }

/-- An engine stands at an entry of its segment. -/
def at' (s : State) (e : Nat) (r : Run) (bs : List Byte) : State := running (withBytes (mapped s) 0x10040 bs) e r

/-- Does an engine stand at an entry of an opcode that may run, with more that holds of the run, the entry and the state after reading it? -/
def issueCheck (s : State) (e op : Nat) (p : Run → List Byte → State → Bool) : Bool :=
  match Table.get? s.eng.runs e with
  | none => false
  | some r =>
    match s.fetchEntry e r 64, s.fetchEntry e r (entrySize op) with
    | .ok (f, _), .ok (b, s1) =>
      eExists e && !r.lent && decide (r.wait = .none) && decide (r.pos + entrySize op ≤ r.length) && decide (e ∉ s.trackerWaits (eDie e)) &&
      !s.trackerFull (eDie e) && (!r.opened || decide (r.pos + entrySize op ≤ s.published r)) && (decide (op < 8) || (decide (16 ≤ op) && opDefined (eKind e) op)) &&
      decide (byteOf f 0 = op) && decide (byteOf b 0 = op) && p r b s1
    | _, _ => false

/-- What the check shows. -/
theorem issues_of_check {s : State} {e op : Nat} {p : Run → List Byte → State → Bool} (h : issueCheck s e op p = true) :
    ∃ r b s1, Issues s e op r b s1 ∧ p r b s1 = true := by
  unfold issueCheck at h
  split at h
  · cases h
  · rename_i r hr
    split at h
    · rename_i f s0 b s1 h0 h1
      simp only [Bool.and_eq_true, Bool.or_eq_true, Bool.not_eq_true', decide_eq_true_eq] at h
      obtain ⟨⟨⟨⟨⟨⟨⟨⟨⟨⟨a1, a2⟩, a3⟩, a4⟩, a5⟩, a6⟩, a7⟩, a8⟩, a9⟩, a10⟩, a11⟩ := h
      refine ⟨r, b, s1, ⟨a1, hr, a2, a3, a4, a5, a6, fun ho => ?_, a8, ⟨f, s0, h0, a9⟩, h1, a10⟩, a11⟩
      rcases a7 with h | h
      · exact absurd ho (by simp [h])
      · exact h
    · cases h

/-- Does a computation succeed, with a value of which something holds? -/
def gives {ε α : Type} (x : Except ε α) (p : α → Bool) : Bool := match x with | .ok v => p v | .error _ => false

/-- An option of whose content something holds. -/
theorem some_of_any {α : Type} {o : Option α} {p : α → Bool} (h : o.any p = true) : ∃ x, o = some x ∧ p x = true := by
  cases o with
  | none => cases h
  | some x => exact ⟨x, rfl, h⟩

/-! ## States and operands that meet the statements' hypotheses -/

theorem witness_ClearCommandsClearTheirBank :
    RowAccess up .keeper (TD_ME_CTR_CLEAR 7 15) 1 ∧ RowAccess up .keeper (TD_VE_CTR_CLEAR 7 15) 1 ∧ RowAccess up .keeper (TD_CE_CTR_CLEAR 7 7) 1 ∧
    RowAccess up .keeper (UPD_SEQ_CTR_CLEAR 7) 1 ∧ RowAccess up .keeper (UPD_EXP_CTR_CLEAR 3) 1 ∧ RowAccess up .keeper (HBM_CTR_CLEAR 15) 1 ∧
    RowAccess up .keeper (MMU_CTR_CLEAR 7) 1 ∧ RowAccess up .keeper (INT_CTR_CLEAR 1) 1 ∧ RowAccess up .keeper (LNK_CTR_CLEAR 3) 1 ∧
    RowAccess up .keeper PWR_CTR_CLEAR 1 ∧ RowAccess up .keeper FTS_CTR_CLEAR 1 ∧ RowAccess up .keeper KPR_VIOL_CLEAR 1 := by decide +kernel

theorem witness_LogConfigWritesRestartTheLog :
    PartAccess up (.hart 0 true) 0 (MMU_FQ_ADDR 0) true 64 ∧ PartAccess up .keeper 0 (MMU_FQ_CTRL 0) true 4 ∧
    PartAccess up (.hart 95 true) 0 (INT0_IDL_ADDR 0) true 64 ∧ PartAccess up .keeper 0 (INT0_IDL_CTRL 0) true 4 ∧
    PartAccess up (.hart 0 true) 0 (TMV_SUB_ADDR 0) true 64 ∧ PartAccess up .sideband 0 (TMV_SUB_CTRL 0) true 4 ∧
    RowAccess up .keeper LOG_TRACE_ADDR 64 ∧ RowAccess up .keeper LOG_TRACE_CTRL 4 := by decide +kernel

/-- Mailboxes: one in reset, one empty, one with an entry. -/
def mail (i : Nat) (m : Mailbox) : State := up.putMbox i m

theorem witness_MailboxReadTakesTheOldest :
    (PartAccess up (.hart 0 true) 0 (MBX_E2H_READ 0) false 0 ∧ (up.mbox 0).resetting = false ∧ (up.mbox 0).entries = []) ∧
    (PartAccess (mail 0 { resetting := true }) (.hart 0 true) 0 (MBX_E2H_READ 0) false 0 ∧ ((mail 0 { resetting := true }).mbox 0).resetting = true) ∧
    (PartAccess (mail 0 { entries := [7, 8] }) (.hart 0 true) 0 (MBX_E2H_READ 0) false 0 ∧ ((mail 0 { entries := [7, 8] }).mbox 0).entries = 7 :: [8]) ∧
    (PartAccess up (.hart 0 true) 0 (MBX_K2H_READ 0) false 0 ∧ (up.mbox 2).entries = []) ∧
    (PartAccess (mail 2 { resetting := true }) (.hart 0 true) 0 (MBX_K2H_READ 0) false 0 ∧ ((mail 2 { resetting := true }).mbox 2).resetting = true) ∧
    (PartAccess (mail 2 { entries := [7] }) (.hart 0 true) 0 (MBX_K2H_READ 0) false 0 ∧ ((mail 2 { entries := [7] }).mbox 2).entries = 7 :: []) := by
  decide +kernel

theorem witness_MailboxWritesAndResets :
    (PartAccess up (.hart 0 true) 0 (MBX_H2K_WRITE 0) true 9 ∧ (up.mbox 1).resetting = false ∧ (up.mbox 1).entries.length < 64) ∧
    (PartAccess (mail 1 { entries := List.replicate 64 0 }) (.hart 0 true) 0 (MBX_H2K_WRITE 0) true 9 ∧
      64 ≤ ((mail 1 { entries := List.replicate 64 0 }).mbox 1).entries.length) ∧
    PartAccess up (.hart 0 true) 0 (MBX_CTRL 0) true (oneBit F.MBX_CTRL_RESET_E2H) ∧ PartAccess up (.hart 0 true) 0 (MBX_CTRL 0) true (oneBit F.MBX_CTRL_RESET_H2K) ∧
    PartAccess up (.hart 0 true) 0 (MBX_CTRL 0) true (oneBit F.MBX_CTRL_RESET_K2H) := by decide +kernel

/-- The package with every expert block of the Chart enabled. -/
def expert : State := up.putFld CHT_EXPERT_EN F.CHT_EXPERT_EN_EN (2 ^ 44 - 1)

theorem witness_InjectFire : RowAccess expert .keeper BUY_X_INJECT (2 ^ F.BUY_X_INJECT_FIRE.lo + 95 * 2 ^ F.BUY_X_INJECT_MBX.lo) ∧
    asks (2 ^ F.BUY_X_INJECT_FIRE.lo + 95 * 2 ^ F.BUY_X_INJECT_MBX.lo) F.BUY_X_INJECT_FIRE ∧
    fget (BitVec.ofNat 64 (2 ^ F.BUY_X_INJECT_FIRE.lo + 95 * 2 ^ F.BUY_X_INJECT_MBX.lo)) F.BUY_X_INJECT_MBX = 95 ∧ (expert.mbox 95).resetting = false := by
  decide +kernel

/-- An engine waits at doorbell 63 of partition 0. -/
def atBell : State := running up 64 { aRun with wait := .doorbell, opened := true, doorbell := 63 }

theorem witness_BuoyAndDoorbellWrites :
    PartAccess up (.hart 0 true) 0 (BUY_SIGNAL 0) true (16383 * 2 ^ F.BUY_SIGNAL_BUOY.lo + 5) ∧ PartAccess up (.hart 0 true) 0 (BUY_ADD 0) true 1 ∧
    (PartAccess atBell (.hart 0 true) 0 (BUY_DOORBELL 0 63) true 64 ∧ Table.get? atBell.eng.runs 64 = some { aRun with wait := .doorbell, opened := true, doorbell := 63 } ∧
      0 + 64 ≤ fget (BitVec.ofNat 64 64) F.BUY_DOORBELL_PUBLISHED / 64 * 64) ∧
    (PartAccess atBell (.hart 0 true) 0 (BUY_DOORBELL 0 63) true 63 ∧ fget (BitVec.ofNat 64 63) F.BUY_DOORBELL_PUBLISHED / 64 * 64 < 0 + 64) := by decide +kernel

/-- A state whose admission queue holds n submissions of partition 0. -/
def queued (n : Nat) : State := up.setAdm { plans := [(1, planOn 0 .waiting)], lastId := 1, queue := List.replicate n ⟨0, 0x1000⟩ }

theorem witness_GoAndCancel :
    (PartAccess (queued 15) (.hart 0 true) 0 (WCH_SUB_CTRL 0) true (oneBit F.WCH_SUB_CTRL_GO) ∧ asks (oneBit F.WCH_SUB_CTRL_GO) F.WCH_SUB_CTRL_GO ∧
      ¬ asks (oneBit F.WCH_SUB_CTRL_GO) F.WCH_SUB_CTRL_CANCEL ∧ ((queued 15).adm.queue.filter (fun q => q.part = 0)).length < 16) ∧
    (PartAccess (queued 16) (.hart 0 true) 0 (WCH_SUB_CTRL 0) true (oneBit F.WCH_SUB_CTRL_GO) ∧ 16 ≤ ((queued 16).adm.queue.filter (fun q => q.part = 0)).length) ∧
    (PartAccess (queued 0) (.hart 0 true) 0 (WCH_SUB_CTRL 0) true (oneBit F.WCH_SUB_CTRL_CANCEL + 2 ^ F.WCH_SUB_CTRL_PLAN_ID.lo) ∧
      asks (oneBit F.WCH_SUB_CTRL_CANCEL + 2 ^ F.WCH_SUB_CTRL_PLAN_ID.lo) F.WCH_SUB_CTRL_CANCEL ∧
      fget (BitVec.ofNat 64 (oneBit F.WCH_SUB_CTRL_CANCEL + 2 ^ F.WCH_SUB_CTRL_PLAN_ID.lo)) F.WCH_SUB_CTRL_PLAN_ID = 1 ∧
      Table.get? (queued 0).adm.plans 1 = some (planOn 0 .waiting) ∧ (planOn 0 .waiting).part = 0) ∧
    (PartAccess (queued 0) (.hart 0 true) 0 (WCH_SUB_CTRL 0) true (oneBit F.WCH_SUB_CTRL_CANCEL) ∧ Table.get? (queued 0).adm.plans 0 = none) := by
  decide +kernel

/-- A guaranteed plan is held. -/
def held : State := queued 0

theorem witness_ProbeJoinAndGroupApply :
    (RowAccess up .keeper KPR_PROBE_CTRL (oneBit F.KPR_PROBE_CTRL_START) ∧ asks (oneBit F.KPR_PROBE_CTRL_START) F.KPR_PROBE_CTRL_START ∧ up.probe = none) ∧
    (RowAccess (up.setProbe (some (0, 1, 0))) .keeper KPR_PROBE_CTRL (oneBit F.KPR_PROBE_CTRL_START) ∧ (up.setProbe (some (0, 1, 0))).probe.isSome = true) ∧
    (RowAccess held .keeper WCH_TB_CTRL (oneBit F.WCH_TB_CTRL_JOIN) ∧ asks (oneBit F.WCH_TB_CTRL_JOIN) F.WCH_TB_CTRL_JOIN ∧ held.guaranteedHeld = true) ∧
    (up.guaranteedHeld = false ∧ RowAccess up .keeper WCH_TB_CTRL (oneBit F.WCH_TB_CTRL_JOIN) ∧ fget (BitVec.ofNat 64 (oneBit F.WCH_TB_CTRL_JOIN)) F.WCH_TB_CTRL_ROLE = 0 ∧
      RowAccess up .keeper WCH_TB_CTRL (oneBit F.WCH_TB_CTRL_JOIN + 2 ^ F.WCH_TB_CTRL_ROLE.lo) ∧
      fget (BitVec.ofNat 64 (oneBit F.WCH_TB_CTRL_JOIN + 2 ^ F.WCH_TB_CTRL_ROLE.lo)) F.WCH_TB_CTRL_ROLE = 1 ∧
      RowAccess up .keeper WCH_TB_CTRL (oneBit F.WCH_TB_CTRL_JOIN + 2 * 2 ^ F.WCH_TB_CTRL_ROLE.lo) ∧
      fget (BitVec.ofNat 64 (oneBit F.WCH_TB_CTRL_JOIN + 2 * 2 ^ F.WCH_TB_CTRL_ROLE.lo)) F.WCH_TB_CTRL_ROLE = 2) ∧
    (RowAccess up .keeper (COL_GRP_APPLY 3) (oneBit F.COL_GRP_APPLY_GO + 2 ^ F.COL_GRP_APPLY_WATCH_LO.lo) ∧
      fget (BitVec.ofNat 64 (oneBit F.COL_GRP_APPLY_GO + 2 ^ F.COL_GRP_APPLY_WATCH_LO.lo)) F.COL_GRP_APPLY_WATCH_LO = 1 ∧ up.watch < 1) ∧
    (RowAccess up .keeper (COL_GRP_APPLY 3) (oneBit F.COL_GRP_APPLY_GO) ∧ asks (oneBit F.COL_GRP_APPLY_GO) F.COL_GRP_APPLY_GO ∧ 0 ≤ up.watch) := by decide +kernel

/-- A CHT command runs and its bit reads 1. -/
def busy : State := (up.setBit CHT_CTRL F.CHT_CTRL_SELECT).setBoot { up.boot with chtRun := some (.select, 0, 0, []) }

theorem witness_ChartCommandsStartOrWait :
    (RowAccess up .keeper CHT_CTRL (1 + 3 % 2 * 2 ^ F.CHT_CTRL_SLOT.lo) ∧ up.flag CHT_CTRL ChtOp.write.bit = false ∧ up.boot.chtRun = none) ∧
    RowAccess up .keeper CHT_CTRL (2 ^ F.CHT_CTRL_SELECT.lo) ∧ RowAccess up .keeper CHT_CTRL (2 ^ F.CHT_CTRL_LIC_INSTALL.lo) ∧
    RowAccess up .keeper CHT_CTRL (2 ^ F.CHT_CTRL_INV_SETTINGS.lo) ∧ RowAccess up .keeper CHT_CTRL (2 ^ F.CHT_CTRL_RESET.lo) ∧
    (RowAccess busy .keeper CHT_CTRL (2 ^ F.CHT_CTRL_SELECT.lo) ∧ busy.flag CHT_CTRL ChtOp.select.bit = true) ∧
    (RowAccess busy .keeper CHT_CTRL 1 ∧ busy.flag CHT_CTRL ChtOp.write.bit = false ∧ busy.boot.chtRun.isSome = true) := by decide +kernel


/-- Partition 0 has an allocation request running. -/
def allocating : State := up.setTiers { up.tiers with allocs := [(0, { tier := 1, lowest := 1, big := false, movable := true, count := 1, va := 0 })] }

/-- A 64 KiB frame of partition 0 at address 0x10000. -/
def framed (f : Frame) : State := up.setTiers { up.tiers with frames := [(0x10000, f)] }

/-- An ordinary frame of partition 0. -/
def plainFrame : Frame := { part := 0, big := false, movable := true, va := 0, run := 1, stamp := 0 }

theorem witness_AllocGoAndFree :
    (PartAccess up (.hart 0 true) 0 (TMV_ALLOC 0) true (oneBit F.TMV_ALLOC_GO) ∧ asks (oneBit F.TMV_ALLOC_GO) F.TMV_ALLOC_GO ∧ Table.get? up.tiers.allocs 0 = none) ∧
    (PartAccess allocating (.hart 0 true) 0 (TMV_ALLOC 0) true (oneBit F.TMV_ALLOC_GO) ∧ (Table.get? allocating.tiers.allocs 0).isSome = true) ∧
    (PartAccess up (.hart 0 true) 0 (TMV_FREE 0) true (2 ^ F.TMV_FREE_BASE_LO.lo) ∧
      0x10000 = fget (BitVec.ofNat 64 (2 ^ F.TMV_FREE_BASE_LO.lo)) F.TMV_FREE_BASE_LO * 2 ^ 16 + fget (BitVec.ofNat 64 (2 ^ F.TMV_FREE_BASE_LO.lo)) F.TMV_FREE_BASE_HI * 2 ^ 32 ∧
      Table.get? up.tiers.frames 0x10000 = none) ∧
    (PartAccess (framed { plainFrame with transit := true }) (.hart 0 true) 0 (TMV_FREE 0) true (2 ^ F.TMV_FREE_BASE_LO.lo) ∧
      Table.get? (framed { plainFrame with transit := true }).tiers.frames 0x10000 = some { plainFrame with transit := true }) ∧
    (PartAccess (framed plainFrame) (.hart 0 true) 0 (TMV_FREE 0) true (2 ^ F.TMV_FREE_BASE_LO.lo) ∧ plainFrame.part = 0 ∧ plainFrame.zeroing = false ∧
      plainFrame.transit = false ∧ Table.get? (framed plainFrame).tiers.frames 0x10000 = some plainFrame) := by decide +kernel

theorem witness_TierSettings :
    ((1 : Nat) ≤ 1 ∧ 0 < 32 ∧ up.mayBlock .keeper = true ∧ up.keeperOn = true ∧ up.selected .keeper = some 0) ∧
    (RowAccess up .keeper TMV_FW_RESET (oneBit F.TMV_FW_RESET_GO) ∧ asks (oneBit F.TMV_FW_RESET_GO) F.TMV_FW_RESET_GO) ∧
    RowAccess up .keeper (TMV_LEND 7) 0 ∧
    (RowAccess up .keeper DFT_LIFE_MARK (oneBit F.DFT_LIFE_MARK_MARK) ∧ asks (oneBit F.DFT_LIFE_MARK_MARK) F.DFT_LIFE_MARK_MARK ∧
      up.fld DFT_LIFE_CTRL F.DFT_LIFE_CTRL_SRC ≠ 1) ∧
    (RowAccess (up.putFld DFT_LIFE_CTRL F.DFT_LIFE_CTRL_SRC 1) .keeper DFT_LIFE_MARK (oneBit F.DFT_LIFE_MARK_MARK) ∧
      (up.putFld DFT_LIFE_CTRL F.DFT_LIFE_CTRL_SRC 1).fld DFT_LIFE_CTRL F.DFT_LIFE_CTRL_SRC = 1) := by decide +kernel

/-- Slot 63 of partition 0 holds a run. -/
def heldAt (resumed : Bool) : State := up.setEng { held := [(63, ⟨64, aRun, resumed⟩)] }

theorem witness_FaultAndInvalidateCommands :
    (PartAccess (heldAt false) (.hart 0 true) 0 (MMU_RESUME 0) true 63 ∧ Table.get? (heldAt false).eng.held (64 * 0 + 63) = some ⟨64, aRun, false⟩) ∧
    (PartAccess up (.hart 0 true) 0 (MMU_RESUME 0) true 63 ∧ up.spillTaken 0 63 = false) ∧
    (PartAccess (heldAt false) (.hart 0 true) 0 (MMU_RESUME 0) true (63 + oneBit F.MMU_RESUME_ACTION) ∧ (heldAt false).spillTaken 0 63 = true) ∧
    (PartAccess up (.hart 0 true) 0 (MMU_RESUME 0) true (63 + oneBit F.MMU_RESUME_ACTION) ∧ up.spillTaken 0 63 = false) ∧
    (PartAccess (mapped up) (.hart 0 true) 0 (MMU_INV 0) true (oneBit F.MMU_INV_GO) ∧ asks (oneBit F.MMU_INV_GO) F.MMU_INV_GO ∧
      Table.get? (mapped up).mmu.inv 0 = none ∧ ¬ asks (oneBit F.MMU_INV_GO) F.MMU_INV_SCOPE) ∧
    (PartAccess (up.setMmu { up.mmu with inv := [(0, true, 0, 4096)] }) (.hart 0 true) 0 (MMU_INV 0) true (oneBit F.MMU_INV_GO) ∧
      (Table.get? (up.setMmu { up.mmu with inv := [(0, true, 0, 4096)] }).mmu.inv 0).isSome = true) ∧
    (RowAccess up .keeper HST_REGION_INV (oneBit F.HST_REGION_INV_GO) ∧ asks (oneBit F.HST_REGION_INV_GO) F.HST_REGION_INV_GO ∧ up.pcie.inv = none ∧
      ¬ asks (oneBit F.HST_REGION_INV_GO) F.HST_REGION_INV_ALL) ∧
    (RowAccess up .keeper HST_REGION_INV (oneBit F.HST_REGION_INV_GO + oneBit F.HST_REGION_INV_ALL) ∧
      asks (oneBit F.HST_REGION_INV_GO + oneBit F.HST_REGION_INV_ALL) F.HST_REGION_INV_ALL) ∧
    (RowAccess (up.setPcie { up.pcie with inv := some 3 }) .keeper HST_REGION_INV (oneBit F.HST_REGION_INV_GO) ∧
      (up.setPcie { up.pcie with inv := some 3 }).pcie.inv.isSome = true) := by decide +kernel

/-- A port in a state. -/
def portIn (o st : Nat) : State := up.putFld (LNK_PORT_STATUS (o / 8) (o % 8)) F.LNK_PORT_STATUS_STATE st

/-- An UP port in Ethernet mode. -/
def ethPort : State := (portIn 1 2).putFld (LNK_PORT_STATUS 0 1) F.LNK_PORT_STATUS_ETH 1

theorem witness_PortCommands :
    (RowAccess up .keeper (LNK_PORT_CTRL 3 7) (portAsk up 3 7 F.LNK_PORT_CTRL_RETRAIN) ∧ up.portState 31 = 0) ∧
    (RowAccess (portIn 31 2) .keeper (LNK_PORT_CTRL 3 7) (portAsk (portIn 31 2) 3 7 F.LNK_PORT_CTRL_RETRAIN) ∧ (portIn 31 2).portState 31 ≠ 0) ∧
    (RowAccess up .keeper (LNK_PORT_CTRL 0 0) (portAsk up 0 0 F.LNK_PORT_CTRL_FULL_TRAIN) ∧ up.portState 0 = 0) ∧
    (RowAccess (portIn 0 2) .keeper (LNK_PORT_CTRL 0 0) (portAsk (portIn 0 2) 0 0 F.LNK_PORT_CTRL_FULL_TRAIN) ∧ (portIn 0 2).portState 0 ≠ 0) ∧
    (RowAccess up .keeper (LNK_PORT_CTRL 3 7) (oneBit F.LNK_PORT_CTRL_CHANGE) ∧ asks (oneBit F.LNK_PORT_CTRL_CHANGE) F.LNK_PORT_CTRL_CHANGE ∧
      ¬ asks (oneBit F.LNK_PORT_CTRL_CHANGE) F.LNK_PORT_CTRL_RETRAIN ∧ ¬ asks (oneBit F.LNK_PORT_CTRL_CHANGE) F.LNK_PORT_CTRL_FULL_TRAIN ∧ up.portState 31 ≠ 2) ∧
    (RowAccess (portIn 31 2) .keeper (LNK_PORT_CTRL 3 7) (oneBit F.LNK_PORT_CTRL_CHANGE) ∧ (portIn 31 2).portState 31 = 2 ∧ (portIn 31 2).isEth 31 = false) ∧
    (RowAccess ethPort .keeper (LNK_PORT_CTRL 0 1) (oneBit F.LNK_PORT_CTRL_CHANGE) ∧
      ethPort.portState 1 = 2 ∧
      ethPort.isEth 1 = true) := by decide +kernel

/-- The table of queue pairs lies in a PINNED frame of partition 0, and handle 63 has its error bit. -/
def queuePairs : State := (up.setTiers { up.tiers with frames := [(0, { plainFrame with movable := false })] }).setLnk
  { up.lnk with handles := [(63, { entry := entry 64 [(12, 3, 5)], psn := 9 })] }

theorem witness_EthernetHandleWrites :
    (RowAccess up .keeper LNK0_ETH_QP_BASE 0 ∧ ¬ asks 0 F.LNK0_ETH_QP_BASE_EN) ∧
    (RowAccess queuePairs .keeper LNK0_ETH_QP_BASE (oneBit F.LNK0_ETH_QP_BASE_EN) ∧ queuePairs.service? = some 0 ∧
      asks (oneBit F.LNK0_ETH_QP_BASE_EN) F.LNK0_ETH_QP_BASE_EN ∧ queuePairs.pinnedT1 0 0 4096 = true ∧
      0 = fget (BitVec.ofNat 64 (oneBit F.LNK0_ETH_QP_BASE_EN)) F.LNK0_ETH_QP_BASE_BASE_LO * 4096 +
        fget (BitVec.ofNat 64 (oneBit F.LNK0_ETH_QP_BASE_EN)) F.LNK0_ETH_QP_BASE_BASE_HI * 2 ^ 32) ∧
    (up.service? = some 0 ∧ up.pinnedT1 0 0 4096 = false) ∧
    (RowAccess (queuePairs.putReg LNK0_ETH_HSTATUS (2 ^ 63)) .keeper LNK0_ETH_HSTATUS (2 ^ 63) ∧ (63 : Nat) < 64 ∧ (2 ^ 63 : Nat).testBit 63 = true ∧
      ((queuePairs.putReg LNK0_ETH_HSTATUS (2 ^ 63)).reg LNK0_ETH_HSTATUS).toNat.testBit 63 = true ∧
      Table.get? (queuePairs.putReg LNK0_ETH_HSTATUS (2 ^ 63)).lnk.handles 63 = some { entry := entry 64 [(12, 3, 5)], psn := 9 }) ∧
    (RowAccess queuePairs .keeper LNK0_ETH_HSTATUS 0 ∧ (0 : Nat).testBit 63 = false ∧ (Table.get? queuePairs.lnk.handles 63).isSome = true) := by decide +kernel

/-- A write of FTS_RUN with GO for a unit. -/
def testOf (u : Nat) : Nat := oneBit F.FTS_RUN_GO + u * 2 ^ F.FTS_RUN_UNIT.lo

theorem witness_TestAndLogCommands :
    (RowAccess up .keeper FTS_RUN (testOf 49) ∧ asks (testOf 49) F.FTS_RUN_GO ∧ 49 = fget (BitVec.ofNat 64 (testOf 49)) F.FTS_RUN_UNIT ∧
      unitExists 49 = true ∧ (up.unit 49).state < 2 ∧ up.windowsAhead 49 = []) ∧
    (RowAccess up .keeper FTS_RUN (testOf 50) ∧
      50 = fget (BitVec.ofNat 64 (testOf 50)) F.FTS_RUN_UNIT ∧ unitExists 50 = false) ∧
    (RowAccess (up.setUnit 49 { state := 2 }) .keeper FTS_RUN (testOf 49) ∧ 2 ≤ ((up.setUnit 49 { state := 2 }).unit 49).state) ∧
    (RowAccess (up.setFt { up.ft with windows := [⟨49, 1, 0⟩] }) .keeper FTS_RUN (testOf 49) ∧
      (up.setFt { up.ft with windows := [⟨49, 1, 0⟩] }).windowsAhead 49 ≠ []) ∧
    RowAccess up .keeper LOG_RD_SEL (2 ^ 63) := by decide +kernel


theorem witness_CounterSnapshot :
    (∃ h, up.hit ⟨.keeper, regBase + KPR_VIOLATIONS, 4, false, 0⟩ = some h ∧ (h.desc.isCounter && (up.violKinds ⟨.keeper, regBase + KPR_VIOLATIONS, 4, false, 0⟩).isEmpty &&
      inBlocks (regBase + KPR_VIOLATIONS) && decide ((regBase + KPR_VIOLATIONS) % 8 = 0)) = true) ∧
    (∃ h, up.hit ⟨.hart 0 false, aliasAddr 0 (WCH_PART_BROKEN 0), 4, false, 0⟩ = some h ∧
      (h.desc.isCounter && (up.violKinds ⟨.hart 0 false, aliasAddr 0 (WCH_PART_BROKEN 0), 4, false, 0⟩).isEmpty &&
      inAliases (aliasAddr 0 (WCH_PART_BROKEN 0)) && decide (aliasAddr 0 (WCH_PART_BROKEN 0) % 8 = 0)) = true) ∧
    (∃ h, up.hit ⟨.keeper, regBase + KPR_VIOLATIONS, 8, false, 0⟩ = some h ∧
      (h.desc.isCounter && (up.violKinds ⟨.keeper, regBase + KPR_VIOLATIONS, 8, false, 0⟩).isEmpty) = true) :=
  ⟨some_of_any (by decide +kernel), some_of_any (by decide +kernel), some_of_any (by decide +kernel)⟩

theorem witness_ViolationsAreIgnoredAndCounted :
    (up.violKinds ⟨.hart 0 true, regBase + 0xFFFF000, 8, true, 1⟩ = 2 :: [] ∧ up.reqPart (.hart 0 true) = some 0) ∧
    (up.violKinds ⟨.keeper, regBase + 0xFFFF001, 8, true, 1⟩ = 1 :: [2] ∧ up.reqPart .keeper = none) ∧
    (up.violKinds ⟨.hart 0 false, aliasAddr 1 0, 4, false, 0⟩ = 4 :: [] ∧ inAliases (aliasAddr 1 0) = true ∧ up.keeperOn = true) := by decide +kernel

theorem witness_PlainRegisterWrites :
    (∃ h, up.hit ⟨.hart 0 false, aliasAddr 0 (WCH_SUB_ADDR 0), 8, true, 5⟩ = some h ∧ (decide (h.desc.hook = .plain) &&
      (up.violKinds ⟨.hart 0 false, aliasAddr 0 (WCH_SUB_ADDR 0), 8, true, 5⟩).isEmpty && inAliases (aliasAddr 0 (WCH_SUB_ADDR 0))) = true) ∧
    (∃ h, up.hit ⟨.sideband, regBase + (0x11 + TD_ME_CFG 0 / 8 * 65536) / 65536 % 2 ^ 25 * 8, 4, true, 1 % 2 ^ 32⟩ = some h ∧ (decide (h.desc.hook = .plain) &&
      (up.violKinds ⟨.sideband, regBase + (0x11 + TD_ME_CFG 0 / 8 * 65536) / 65536 % 2 ^ 25 * 8, 4, true, 1 % 2 ^ 32⟩).isEmpty && up.sbOpen &&
      decide ((0x11 + TD_ME_CFG 0 / 8 * 65536) % 256 = 0x11) && !(0x11 + TD_ME_CFG 0 / 8 * 65536).testBit 41) = true) ∧
    (up.sbOpen = true ∧ (0x10 + TD_ME_CFG 0 / 8 * 65536) % 256 = 0x10) :=
  ⟨some_of_any (by decide +kernel), some_of_any (by decide +kernel), by decide +kernel⟩

/-- The timebase in a role and a state. -/
def tbIn (role st : Nat) (tb : Timebase) : State :=
  ((up.putFld WCH_TB_STATUS F.WCH_TB_STATUS_ROLE role).putFld WCH_TB_STATUS F.WCH_TB_STATUS_STATE st).setTb tb

/-- An expert setting waits for watch 1. -/
def waitingSetting : State := up.setDeferred [⟨TD_X_ME_FEED 0 0, 0, 0⟩]

theorem witness_WatchStartsAndDeferredSettings :
    waitingSetting.deferred = [⟨TD_X_ME_FEED 0 0, 0, 0⟩] ∧ (∀ d ∈ waitingSetting.deferred, d.key = TD_X_ME_FEED 0 0 →
      d.key ≠ TMV_CFG ∧ d.key ≠ TMV_X_TUNE ∧ d.watch ≤ waitingSetting.watch) ∧
    (waitingSetting.putFld CHT_EXPERT_EN F.CHT_EXPERT_EN_EN (2 ^ 44 - 1)).expertOn (TD_X_ME_FEED 0 0) = true := by decide +kernel

theorem witness_TimebaseChangesState :
    ((tbIn 1 2 { missed := 4 }).tbRole = 1 ∧ (tbIn 1 2 { missed := 4 }).tbState = 2 ∧ 4 ≤ (tbIn 1 2 { missed := 4 }).tb.missed) ∧
    ((tbIn 1 1 { acquiring := 16384 }).tbState = 1 ∧ 16384 ≤ (tbIn 1 1 { acquiring := 16384 }).tb.acquiring) ∧
    ((tbIn 1 1 { inRange := 16 }).tbState = 1 ∧ 16 ≤ (tbIn 1 1 { inRange := 16 }).tb.inRange) ∧
    ((tbIn 1 2 { outRange := 4 }).tbRole = 1 ∧ (tbIn 1 2 { outRange := 4 }).tbState = 2 ∧ 4 ≤ (tbIn 1 2 { outRange := 4 }).tb.outRange) ∧
    ((tbIn 1 3 { holdover := 81 }).tbState = 3 ∧ (tbIn 1 3 { holdover := 81 }).tb.unlocked = false ∧
      20 * 32 < (tbIn 1 3 { holdover := 81 }).tb.offset.natAbs + 8 * (tbIn 1 3 { holdover := 81 }).tb.holdover) ∧
    ((tbIn 1 3 { holdover := 40001 }).tbState = 3 ∧ 10000 * 32 < (tbIn 1 3 { holdover := 40001 }).tb.offset.natAbs + 8 * (tbIn 1 3 { holdover := 40001 }).tb.holdover) ∧
    ((tbIn 1 1 { stepPending := true }).tb.stepPending = true ∧ (tbIn 1 1 { stepPending := true }).guaranteedHeld = false) ∧
    (held.setTb { stepPending := true }).tb.stepPending = true ∧ (held.setTb { stepPending := true }).guaranteedHeld = true := by decide +kernel

/-- A follower whose parent port is 31. -/
def follower (st : Nat) : State := (tbIn 1 2 {}).setBoot { up.boot with chart := { up.boot.chart with parent := 31 } } |>.putFld (LNK_PORT_STATUS 3 7) F.LNK_PORT_STATUS_STATE st

theorem witness_TimeMessages :
    (31 = (follower 2).boot.chart.parent ∧ (follower 2).tbRole = 1 ∧ (follower 2).portUp 31 = true) ∧
    (follower 2).portUp (8 * 3 + 7) = true ∧
    (up.tbRole ≠ 1) ∧ ((follower 2).tb.heard = false ∧ (follower 2).tbRole = 1 ∧ (follower 2).tbState = 2) := by decide +kernel

/-- A probe of n reads runs, from a die. -/
def probing (die n pa : Nat) : State := up.setProbe (some (die, n, pa))

theorem witness_ProbeAndTracker :
    ((probing 9 65535 (0x18000000000 - 64)).probe = some (9, 65535, 0x18000000000 - 64) ∧ (9 : Nat) ≤ 9 ∧ (65535 : Nat) ≠ 0) ∧
    ((probing 10 1 0).probe = some (10, 1, 0)) ∧ ((probing 9 0 0).probe = some (9, 0, 0)) ∧ ((probing 9 1 0x18000000000).probe = some (9, 1, 0x18000000000)) ∧
    ((up.setTracker [(7, [5, 6])]).trackerWaits 7 = 5 :: [6] ∧ (up.setTracker [(7, [5, 6])]).trackerFull 7 = false) := by decide +kernel


/-- The queue holds one submission of partition 0, whose plan has one vector slot of three granules. -/
def planned (version cls mode start : Nat) : State :=
  (withBytes (withBytes (mapped up) 0x1000 (entry 64 [(0, 2, version), (2, 1, cls), (3, 1, mode), (4, 4, 1), (8, 8, start), (16, 8, 0x1100), (34, 2, 5), (40, 8, 0x1200)]))
    0x1100 (entry 32 [(0, 2, 64), (5, 1, 3), (6, 2, 0xFFFF), (8, 8, 0x10000), (20, 4, 100)])).setAdm { up.adm with queue := [⟨0, 0x1000⟩] }

/-- What admission reads of it. -/
abbrev readOf (s : State) : PlanRead := ((s.setAdm { s.adm with queue := [] }).showQueue 0).readPlan 0 0x1000

/-- The emergency state. -/
def emergency (s : State) : State := s.putFld PWR_STATUS F.PWR_STATUS_EMERG 1

theorem witness_PlanAdmissionDecides :
    ((planned 1 0 0 0).adm.queue = ⟨0, 0x1000⟩ :: []) ∧
    ((up.setAdm { up.adm with queue := [⟨0, 0x1000⟩] }).adm.queue = ⟨0, 0x1000⟩ :: [] ∧ (readOf (up.setAdm { up.adm with queue := [⟨0, 0x1000⟩] })).text = none) ∧
    (∃ x, (readOf (planned 2 0 0 0)).text = some x ∧ (!x.shape) = true) ∧
    (∃ x, (readOf ((planned 1 0 0 0).setFt { up.ft with unavailable := [64] })).text = some x ∧
      (x.shape && !(readOf ((planned 1 0 0 0).setFt { up.ft with unavailable := [64] })).state.planEngines 0 x) = true) ∧
    (∃ x, (readOf (planned 1 1 0 0)).text = some x ∧ (x.shape && (readOf (planned 1 1 0 0)).state.planEngines 0 x &&
      (readOf (planned 1 1 0 0)).state.ownsBuoy 0 x.buoy && decide (x.cls = 1)) = true) ∧
    (∃ x, (readOf (planned 1 0 0 7)).text = some x ∧ (x.shape && (readOf (planned 1 0 0 7)).state.planEngines 0 x &&
      (readOf (planned 1 0 0 7)).state.ownsBuoy 0 x.buoy && decide (x.cls = 0) && !(readOf (planned 1 0 0 7)).state.flag PWR_STATUS F.PWR_STATUS_EMERG &&
      decide ((readOf (planned 1 0 0 7)).state.verdict 0 x = .inl 7)) = true) ∧
    (∃ x, (readOf (planned 1 0 1 1)).text = some x ∧ (x.shape && (readOf (planned 1 0 1 1)).state.planEngines 0 x &&
      (readOf (planned 1 0 1 1)).state.ownsBuoy 0 x.buoy && decide (x.cls = 0) && decide ((readOf (planned 1 0 1 1)).state.verdict 0 x = .inr (10, 2))) = true) ∧
    (∃ x, (readOf (emergency (planned 1 0 0 7))).text = some x ∧ (x.shape && (readOf (emergency (planned 1 0 0 7))).state.planEngines 0 x &&
      (readOf (emergency (planned 1 0 0 7))).state.ownsBuoy 0 x.buoy && decide (x.cls = 0) &&
      (readOf (emergency (planned 1 0 0 7))).state.flag PWR_STATUS F.PWR_STATUS_EMERG) = true) :=
  ⟨by decide +kernel, by decide +kernel, some_of_any (by decide +kernel), some_of_any (by decide +kernel), some_of_any (by decide +kernel),
    some_of_any (by decide +kernel), some_of_any (by decide +kernel), some_of_any (by decide +kernel)⟩

/-- A slot of plan 1 waits on the vector engine 64, for the start of watch 0, its segment's header in memory. -/
def toStart (stream len : Nat) : State :=
  (withBytes (mapped up) 0x10000 (entry 64 [(0, 2, 1), (4, 4, len)])).setAdm
    { plans := [(1, { planOn 64 .waiting with slots := [{ engine := 64, off := 0, gran := 249, count := 3, demand := [], stream := stream, energy := 0, cycles := 100, state := .waiting }] })]
      lastId := 1 }

/-- Its slot and its plan. -/
def firstSlot (stream : Nat) : Slot :=
  { engine := 64, off := 0, gran := 249, count := 3, demand := [], stream := stream, energy := 0, cycles := 100, state := .waiting }
def firstPlan (stream : Nat) : Plan := { planOn 64 .waiting with slots := [firstSlot stream] }

/-- A plan of two slots, the first of which runs. -/
def twoSlots : State := (running up 64 { aRun with pos := 128 }).setAdm
  { plans := [(1, { planOn 64 .running with slots := [{ firstSlot 0x10000 with state := .running }, { firstSlot 0x10000 with gran := 10 }] })], lastId := 1 }

theorem witness_GuaranteedSlotsStartAndEnd :
    (eExists 64 = true ∧ earliest ((toStart 0x10000 128).waitingSlots 64 (toStart 0x10000 128).watch) = some (1, 0, firstSlot 0x10000) ∧ (firstSlot 0x10000).gran < 250 ∧
      Table.get? (toStart 0x10000 128).adm.plans 1 = some (firstPlan 0x10000) ∧ Table.get? (toStart 0x10000 128).eng.runs 64 = none ∧
      (toStart 0x10000 128).unavailable 64 = false ∧ ¬ ((toStart 0x10000 128).underTest ((toStart 0x10000 128).engineSource 64) = some false)) ∧
    ((firstSlot 0).isLent = true ∧ driverOver (firstPlan 0).slots (firstSlot 0) = false ∧ (firstSlot 0x10000).isLent = false) ∧
    gives ((begun ((toStart 0x10000 128).toTick 249000) 64 1 0 (firstPlan 0x10000) (firstSlot 0x10000)).vRead
      ((freshRun 1 0 (firstPlan 0x10000) (firstSlot 0x10000)).access 64 3) 0x10000 64)
      (fun x => (headerCodes 0x10000 x.1 false).isEmpty && decide (leAt x.1 4 4 ≠ 0)) = true ∧
    gives ((begun ((toStart 0x10000 0).toTick 249000) 64 1 0 (firstPlan 0x10000) (firstSlot 0x10000)).vRead
      ((freshRun 1 0 (firstPlan 0x10000) (firstSlot 0x10000)).access 64 3) 0x10000 64) (fun x => decide (leAt x.1 4 4 = 0)) = true ∧
    (((toStart 0x10000 128).setFt { up.ft with unavailable := [64] }).unavailable 64 = true) ∧
    (Table.get? (running up 64 aRun).eng.runs 64 = some aRun ∧ aRun.be = false ∧ aRun.lent = false ∧
      Table.get? (running up 64 aRun).adm.plans aRun.plan = some (planOn 64 .running)) ∧
    (Table.get? (running up 64 { aRun with pos := 128 }).eng.runs 64 = some { aRun with pos := 128 } ∧ aRun.wait = .none ∧ aRun.length ≤ 128 ∧ aRun.mx.loading = false ∧
      eKind 64 ≠ 5 ∧ eKind 64 ≠ 13 ∧ ¬ Unended ((planOn 64 .running).setSlot 0 .finished) ∧ (planOn 64 .running).buoy < 16384) ∧
    (∃ pl, Table.get? twoSlots.adm.plans 1 = some pl ∧ ((pl.setSlot 0 .finished).slots.any (fun x => !x.state.isOver)) = true) := by
  refine ⟨by decide +kernel, by decide +kernel, by decide +kernel, by decide +kernel, by decide +kernel, by decide +kernel, ?_, some_of_any (by decide +kernel)⟩
  unfold Unended
  decide +kernel

/-- A best-effort slot of plan 1 waits on engine 64. -/
def beWaiting : State := up.setAdm { plans := [(1, { planOn 64 .waiting with guaranteed := false })], lastId := 1 }

/-- The slot of planOn. -/
def itsSlot : Slot := { engine := 64, off := 0, gran := 0, count := 1, demand := [], stream := 0x10000, energy := 0, cycles := 100, state := .waiting }

/-- A best-effort run. -/
def beRun : Run := { aRun with be := true }

theorem witness_BestEffortSlotsComeAndGo :
    ((beWaiting.readySlots 64)[beWaiting.anyNat % (beWaiting.readySlots 64).length]? = some (1, 0, itsSlot) ∧ beWaiting.freeFor 64 false = true ∧
      Table.get? beWaiting.adm.plans 1 = some { planOn 64 .waiting with guaranteed := false } ∧ ¬ (beWaiting.underTest (beWaiting.engineSource 64) = some false)) ∧
    (Table.get? ((running up 64 beRun).putFld PWR_STATUS F.PWR_STATUS_HOLD 1).eng.runs 64 = some beRun ∧ beRun.be = true ∧
      ((running up 64 beRun).putFld PWR_STATUS F.PWR_STATUS_HOLD 1).mustSuspend 64 = true) ∧
    (Table.get? (up.setEng { banks := [(64, beRun)] }).eng.banks 64 = some beRun ∧ (up.setEng { banks := [(64, beRun)] }).freeFor 64 true = true ∧ beRun.fetch = none) ∧
    (Table.get? (heldAt true).eng.held (64 * 0 + 63) = some ⟨64, aRun, true⟩ ∧ (heldAt true).freeFor 64 false = true ∧ aRun.fetch = none) ∧
    (up.setEng { spilling := [(64, 3, beRun)] }).eng.spilling.find? (fun x => x.1 = 64) = some (64, 3, beRun) := by
  refine ⟨⟨?_, by decide +kernel⟩, by decide +kernel, by decide +kernel, by decide +kernel, by decide +kernel⟩
  rw [show (beWaiting.readySlots 64).length = 1 by decide +kernel, Nat.mod_one]
  decide +kernel


/-- An engine stands at a common command of 64 bytes. -/
def common64 (op : Nat) (fs : List (Nat × Nat × Nat)) : State := at' up 64 aRun (entry 64 ((0, 1, op) :: fs))

/-- What the common commands ask. -/
def commonCheck (r : Run) (b : List Byte) (s1 : State) (more : Bool) : Bool := !r.mx.loading && (s1.commonCodes r b).isEmpty && more

theorem witness_CommonCommandsRun :
    (∃ r b s1, Issues (common64 0 []) 64 0 r b s1 ∧ commonCheck r b s1 true = true) ∧
    (∃ r b s1, Issues (common64 1 []) 64 1 r b s1 ∧ commonCheck r b s1 true = true) ∧
    (∃ r b s1, Issues (common64 2 [(2, 2, 16383), (4, 4, 250000)]) 64 2 r b s1 ∧
      commonCheck r b s1 (condHolds (byteOf b 1) ((common64 2 [(2, 2, 16383), (4, 4, 250000)]).buoy (leAt b 2 2)) (word64 b 8)) = true) ∧
    (∃ r b s1, Issues (common64 2 [(2, 2, 16383), (4, 4, 1), (8, 8, 1)]) 64 2 r b s1 ∧
      commonCheck r b s1 (!condHolds (byteOf b 1) ((common64 2 [(2, 2, 16383), (4, 4, 1), (8, 8, 1)]).buoy (leAt b 2 2)) (word64 b 8)) = true) ∧
    (∃ r b s1, Issues (common64 3 [(2, 2, 9), (8, 8, 1)]) 64 3 r b s1 ∧ commonCheck r b s1 true = true) ∧
    (∃ r b s1, Issues (common64 4 [(2, 2, 9), (8, 8, 1)]) 64 4 r b s1 ∧ commonCheck r b s1 true = true) ∧
    (∃ r b s1, Issues (common64 6 [(8, 8, 1)]) 64 6 r b s1 ∧
      commonCheck r b s1 (decide (((common64 6 [(8, 8, 1)]).mbox 0).entries.length < 256) && !((common64 6 [(8, 8, 1)]).mbox 0).resetting) = true) ∧
    (∃ r b s1, Issues ((common64 6 [(8, 8, 1)]).putMbox 0 { resetting := true }) 64 6 r b s1 ∧
      commonCheck r b s1 (((common64 6 [(8, 8, 1)]).putMbox 0 { resetting := true }).mbox 0).resetting = true) :=
  ⟨issues_of_check (by decide +kernel), issues_of_check (by decide +kernel), issues_of_check (by decide +kernel), issues_of_check (by decide +kernel),
    issues_of_check (by decide +kernel), issues_of_check (by decide +kernel), issues_of_check (by decide +kernel), issues_of_check (by decide +kernel)⟩

/-- A run waits for buoy 9 to reach v. -/
def waiting9 (v : Word) : Run := { aRun with wait := .buoy 0 9 v 1 }

/-- An access by partition 0 on die 0 through the identity mapping. -/
theorem translate_identity {s : State} (h : s.mmu.tlb = (mapped up).mmu.tlb) : s.translate (aRun.access 64 1) 0x20010 = .ok 0x20010 := by
  have h1 : s.translation 0 0 0x20010 = .ok ⟨2 ^ 30, 0, 0, 0, 0, true, true, true, true, 0, 0⟩ := by
    unfold State.translation State.tlbHit
    rw [h]
    rfl
  have hw : walkDie (aRun.access 64 1).engine = 0 := by decide
  have hp : (aRun.access 64 1).part = 0 := rfl
  simp only [State.translate, hw, hp, h1, State.side]
  simp

/-- Time and cycle counters do not touch the TLBs. -/
theorem someTick_commonCycles_mmu {s : State} {e : Nat} {w : Bool} : (s.someTick.commonCycles e w).mmu = s.mmu := by
  have h : s.someTick.mmu = s.mmu := by
    unfold State.someTick State.toTick State.tookFree
    by_cases ht : s.tick < s.tick + s.anyNat % (250000 - s.tick) <;> simp only [ht, if_true, if_false] <;> rfl
  rw [← h]
  generalize s.someTick = u
  unfold State.commonCycles State.waitCycles
  dsimp only
  repeat' first | rfl | split

theorem witness_WaitsComparesAndStamps :
    (eExists 64 = true ∧ Table.get? (running up 64 (waiting9 0)).eng.runs 64 = some (waiting9 0) ∧ condHolds 0 ((running up 64 (waiting9 0)).buoy 9) 0 = true) ∧
    (Table.get? (running up 64 (waiting9 1)).eng.runs 64 = some (waiting9 1) ∧ condHolds 0 ((running up 64 (waiting9 1)).buoy 9) 1 = false ∧ (1 : Nat) ≠ 0) ∧
    (∃ r b s1, Issues (common64 5 [(2, 2, 9), (16, 8, 3), (24, 8, 0x20008)]) 64 5 r b s1 ∧ commonCheck r b s1
      (gives (s1.translate (r.access 64 1) (leAt b 24 8)) (fun pa => decide (pa % 8 = 0) && !s1.inTransit pa 8 && decide (s1.region pa = .hbm))) = true) ∧
    (∃ r b s1, Issues (common64 7 [(24, 8, 0x20010)]) 64 7 r b s1 ∧ (r.mx.loading = false ∧ s1.commonCodes r b = [] ∧
      (s1.someTick.commonCycles 64 true).translate (r.access 64 1) (leAt b 24 8) = .ok 0x20010 ∧ s1.inTransit 0x20010 16 = false ∧ s1.region 0x20010 = .hbm)) := by
  refine ⟨by decide +kernel, by decide +kernel, issues_of_check (by decide +kernel), ?_⟩
  obtain ⟨r, b, s1, h, h2⟩ := issues_of_check (s := common64 7 [(24, 8, 0x20010)]) (e := 64) (op := 7) (p := fun r b s1 => decide (r = aRun) &&
    decide (leAt b 24 8 = 0x20010) && decide (s1.mmu.tlb = (mapped up).mmu.tlb) && (s1.commonCodes r b).isEmpty && !s1.inTransit 0x20010 16 &&
    decide (s1.region 0x20010 = .hbm)) (by decide +kernel)
  simp only [Bool.and_eq_true, decide_eq_true_eq, Bool.not_eq_true', List.isEmpty_iff] at h2
  obtain ⟨⟨⟨⟨⟨rfl, hb⟩, ht⟩, hc⟩, hi⟩, hr⟩ := h2
  exact ⟨aRun, b, s1, h, rfl, hc, by rw [hb, translate_identity (by rw [someTick_commonCycles_mmu, ht])], hi, hr⟩


/-- A matrix engine stands at a command. -/
def me (r : Run) (bs : List Byte) : State := at' up 0 r bs

/-- An MLOAD of one row of one INT8 element at 0x20000. -/
def mloadEntry : List Byte := entry 64 [(0, 1, 0x10), (2, 2, 1), (8, 8, 0x20000), (16, 1, 1), (17, 1, 4), (18, 2, 1), (20, 4, 16)]

/-- An MSTREAM of one row through it, to INT8 at 0x30000. -/
def mstreamEntry (swap : Nat) : List Byte :=
  entry 128 [(0, 1, 0x11), (1, 1, swap), (4, 4, 1), (16, 8, 0x20000), (24, 1, 1), (25, 1, 4), (26, 2, 1), (28, 4, 16),
    (80, 8, 0x30000), (88, 1, 1), (89, 1, 7), (90, 2, 1), (92, 4, 16)]

/-- The plane it makes. -/
def aPlane : Plane := { fmt := 4, kr := 1, nc := 1, elems := [3], scales := [] }

/-- A run with planes. -/
def planes (mx : MatrixState) : Run := { aRun with mx := mx }

/-- With no store pending, a row is read as memory stands. -/
theorem rowView_nil {s : State} {e free i : Nat} (h : s.pendOf e = []) : s.rowView e free i [] = [] := by
  unfold State.rowView
  split
  · exact h
  · rfl

/-- Can one row of an MSTREAM without C and without scales be read, computed and written? -/
def streams (s : State) (r : Run) (p : Plane) (b : List Byte) : Bool :=
  r.pend.isEmpty && (s.pendOf 0).isEmpty && !(descAt b 16).bs && !mUseC b && !(descAt b 80).bs && decide (leAt b 4 4 = 1) &&
  gives (s.readWith (r.access 0 0) [] ((descAt b 16).place 0) (descAt b 16).base (descAt b 16).len) (fun x =>
    gives (x.2.writeAt (r.access 0 0) ((descAt b 80).place 0) (descAt b 80).base (rowBytes (descAt b 80).ty
      ((streamRow p (descAt b 16).format (descAt b 80).format false (mSat b) (decode32 (leAt b 8 4)) (rowCodes (descAt b 16).ty p.kr x.1) []
        (rowCodes (descAt b 48).ty p.nc [])).casts.map (·.code)))) (fun _ => true))

/-- Then it streams. -/
theorem streams_ok {s : State} {r : Run} {p : Plane} {b : List Byte} (h : streams s r p b = true) :
    ∃ s2, foldM (fun s i => s.streamOne r 0 s.free p b i) (List.range (leAt b 4 4)) s = .ok s2 := by
  unfold streams at h
  simp only [Bool.and_eq_true, Bool.not_eq_true', decide_eq_true_eq, List.isEmpty_iff] at h
  obtain ⟨⟨⟨⟨⟨⟨h1, h2⟩, h3⟩, h4⟩, h5⟩, h6⟩, h7⟩ := h
  rw [h6]
  show ∃ s2, (match s.streamOne r 0 s.free p b 0 with | .error t => .error t | .ok s1 => .ok s1) = Except.ok s2
  unfold State.streamOne
  simp only [h1, rowView_nil h2, h3, h4, h5, Nat.zero_mul, Nat.add_zero, Bool.false_eq_true, if_false, List.map_nil]
  unfold gives at h7
  split at h7
  · rename_i x hx
    simp only [hx]
    dsimp only at h7
    split at h7
    · rename_i y hy
      simp only [hy]
      exact ⟨_, rfl⟩
    · cases h7
  · cases h7

theorem witness_MatrixCommandsRun :
    (∃ r b s1, Issues (withBytes (me aRun mloadEntry) 0x20000 [3]) 0 0x10 r b s1 ∧ ((mloadCodes b s1.fp4).isEmpty &&
      gives (s1.readPlane (r.access 0 0) 0 (leAt b 2 2) (descAt b 8)) (fun x => decide (x.1 = aPlane))) = true) ∧
    (Table.get? (me (planes { loading := true, shadow := some aPlane }) []).eng.runs 0 = some (planes { loading := true, shadow := some aPlane }) ∧ eKind 0 = 0) ∧
    (∃ r b s1, Issues (me (planes { active := some aPlane }) (mstreamEntry 0)) 0 0x11 r b s1 ∧ (!mSwap b && decide (r.mx.active = some aPlane) &&
      (mstreamCodes b (some aPlane) s1.fp4).isEmpty && streams s1 r aPlane b) = true) ∧
    (∃ r b s1, Issues (me (planes { loading := true, shadow := some aPlane }) (mstreamEntry 1)) 0 0x11 r b s1 ∧ (mSwap b && decide (r.mx.shadow = some aPlane) &&
      (mstreamCodes b (some aPlane) s1.fp4).isEmpty && r.mx.loading) = true) ∧
    (Table.get? (me { planes { shadow := some aPlane } with wait := .swap } (mstreamEntry 1)).eng.runs 0 = some { planes { shadow := some aPlane } with wait := .swap } ∧
      gives (((me { planes { shadow := some aPlane } with wait := .swap } (mstreamEntry 1)).modRun 0 (fun r => { r with wait := .none })).fetchEntry 0
        { planes { shadow := some aPlane } with wait := .swap } 128) (fun x => decide (x.1 = mstreamEntry 1) &&
        streams ((x.2.modRun 0 (fun r => { r with mx := r.mx.exchange })).showPlanes 0) { planes (MatrixState.exchange { shadow := some aPlane }) with wait := .none }
          aPlane x.1) = true) ∧
    (∃ r b s1, Issues (me aRun (entry 64 [(0, 1, 0x12)])) 0 0x12 r b s1 ∧ zerosAt b 1 63 = true) ∧
    (Table.get? (me { aRun with wait := .fence, pend := [(5, 1)] } []).eng.runs 0 = some { aRun with wait := .fence, pend := [(5, 1)] }) :=
  ⟨issues_of_check (by decide +kernel), by decide +kernel, issues_of_check (by decide +kernel), issues_of_check (by decide +kernel), by decide +kernel,
    issues_of_check (by decide +kernel), by decide +kernel⟩


/-- A vector engine stands at a command of a run with vector state v. -/
def ve (v : VectorState) (bs : List Byte) : State := at' up 64 { aRun with vx := v } bs

/-- A vector entry: opcode, FLAGS, ROWS, TYPE, DST, SRC, AUX, SEL, and more fields. -/
def vent (n op flags rows ty dst src aux sel : Nat) (more : List (Nat × Nat × Nat)) : List Byte :=
  entry n ([(0, 1, op), (1, 1, flags), (2, 1, rows), (3, 1, ty), (4, 1, dst), (5, 1, src), (6, 1, aux), (7, 1, sel)] ++ more)

/-- A descriptor at offset 16 of one INT32 element in memory at 0x20000. -/
def wordDesc : List (Nat × Nat × Nat) := [(16, 8, 0x20000), (24, 1, 1), (25, 1, 7), (26, 2, 1), (28, 4, 16)]

theorem witness_VectorLoadsAndStores :
    (∃ r b s1, Issues (withBytes (ve {} (vent 64 0x20 0 1 7 31 0 0 0 wordDesc)) 0x20000 [5, 0, 0, 0]) 64 0x20 r b s1 ∧
      ((vloadCodes b s1.fp4).isEmpty && gives (s1.loadRows (r.access 64 0) 64 (descAt b 16) (vhdr b).rows) (fun x => decide (x.1.1 = [[5, 0, 0, 0]]))) = true) ∧
    (∃ r b s1, Issues (ve {} (vent 64 0x21 0 1 7 0 31 0 0 wordDesc)) 64 0x21 r b s1 ∧ ((vstoreCodes b r.vx s1.fp4).isEmpty && !bit (vhdr b).flags 1 &&
      gives (s1.storeRows (r.access 64 1) 64 (descAt b 16) ((List.range (vhdr b).rows).map (fun i =>
        storeRow (descAt b 16) (vhdr b).ty (bit (vhdr b).flags 0) (r.vx.codes (vhdr b).ty (vhdr b).src i (descAt b 16).width)))) (fun _ => true)) = true) ∧
    (∃ r b s1, Issues (ve {} (vent 64 0x28 2 0 0 0 0 0 7 [(16, 8, 0x2FFFFFC)])) 64 0x28 r b s1 ∧
      (decide (byteOf b 1 % 4 = 2) && (vcntCodes b).isEmpty && decide (byteOf b 24 = 0)) = true) ∧
    (∃ r b s1, Issues (ve {} (vent 64 0x28 2 0 0 0 0 0 7 [(16, 8, 0x20000), (24, 1, 1)])) 64 0x28 r b s1 ∧
      (decide (byteOf b 1 % 4 = 2) && (vcntCodes b).isEmpty && decide (byteOf b 24 = 1) && gives (s1.translate (r.access 64 1) (leAt b 16 8)) (fun k =>
        !s1.inTransit k 4 && decide (s1.region k ≠ .flash))) = true) ∧
    (∃ r b s1, Issues (ve {} (vent 64 0x2A 2 0 0 0 0 0 0 [(16, 8, 4)])) 64 0x2A r b s1 ∧
      (decide (byteOf b 1 % 4 = 2) && (vsideCodes b).isEmpty && decide (byteOf b 24 = 0)) = true) :=
  ⟨issues_of_check (by decide +kernel), issues_of_check (by decide +kernel), issues_of_check (by decide +kernel), issues_of_check (by decide +kernel),
    issues_of_check (by decide +kernel)⟩

theorem witness_VectorComputeCommandsRun :
    (∃ r b s1, Issues (ve {} (vent 128 0x22 0 64 6 1 2 0 1 [(8, 1, 6), (16, 1, 9), (17, 2, 0xFFFF)])) 64 0x22 r b s1 ∧ ((vchainCodes b).isEmpty &&
      gives (s1.readBcast (r.access 64 0) 64 (usesCode (chainStages b) 0x40) (descAt b 48) (vhdr b).rows) (fun x =>
        gives (x.2.readBcast (r.access 64 0) 64 (usesCode (chainStages b) 0x41) (descAt b 80) (vhdr b).rows) (fun _ => true))) = true) ∧
    (∃ r b s1, Issues (ve {} (vent 64 0x23 0 64 6 1 2 0 0 [])) 64 0x23 r b s1 ∧ ((vredCodes b).isEmpty && !bit (vhdr b).sel 4) = true) ∧
    (∃ r b s1, Issues (ve {} (vent 64 0x23 0 64 6 1 2 0 0x11 [])) 64 0x23 r b s1 ∧ ((vredCodes b).isEmpty && bit (vhdr b).sel 4) = true) ∧
    (∃ r b s1, Issues (ve {} (vent 64 0x24 8 64 6 1 2 0 1 [])) 64 0x24 r b s1 ∧ ((vscanCodes b).isEmpty && bit (vhdr b).flags 3) = true) ∧
    (∃ r b s1, Issues (ve {} (vent 64 0x25 0 64 6 1 2 3 7 [])) 64 0x25 r b s1 ∧ (vcompressCodes b 0).isEmpty = true) ∧
    (∃ r b s1, Issues (ve {} (vent 64 0x26 1 64 6 1 2 3 7 [])) 64 0x26 r b s1 ∧ (vcompressCodes b 1).isEmpty = true) ∧
    (∃ r b s1, Issues (ve {} (vent 64 0x27 0 64 3 1 2 0 0x11 [])) 64 0x27 r b s1 ∧ (vxposeCodes b).isEmpty = true) :=
  ⟨issues_of_check (by decide +kernel), issues_of_check (by decide +kernel), issues_of_check (by decide +kernel), issues_of_check (by decide +kernel),
    issues_of_check (by decide +kernel), issues_of_check (by decide +kernel), issues_of_check (by decide +kernel)⟩

theorem witness_VectorRegistersAndFences :
    (∃ r b s1, Issues (ve {} (vent 64 0x28 0 0 0 0 0 0 7 [(8, 4, 9)])) 64 0x28 r b s1 ∧ (decide (byteOf b 1 % 4 = 0) && (vcntCodes b).isEmpty) = true) ∧
    (∃ r b s1, Issues (ve {} (vent 64 0x28 1 0 0 0 0 0 7 [(8, 4, 9)])) 64 0x28 r b s1 ∧ (decide (byteOf b 1 % 4 = 1) && (vcntCodes b).isEmpty) = true) ∧
    (∃ r b s1, Issues (ve {} (vent 64 0x2A 0 0 0 0 0 0 0 [])) 64 0x2A r b s1 ∧ (decide (byteOf b 1 % 4 = 0) && (vsideCodes b).isEmpty) = true) ∧
    (∃ r b s1, Issues (ve {} (vent 64 0x2A 1 0 0 0 0 0 0 [])) 64 0x2A r b s1 ∧ (decide (byteOf b 1 % 4 = 1) && (vsideCodes b).isEmpty) = true) ∧
    (∃ r b s1, Issues (ve {} (vent 64 0x29 0 0 6 1 2 3 0 [])) 64 0x29 r b s1 ∧ (decide (byteOf b 1 = 0) && decide (byteOf b 2 = 0) && zerosAt b 7 57) = true) ∧
    (Table.get? (running up 64 { aRun with wait := .fence, pend := [(5, 1)] }).eng.runs 64 = some { aRun with wait := .fence, pend := [(5, 1)] } ∧ eKind 64 = 1) :=
  ⟨issues_of_check (by decide +kernel), issues_of_check (by decide +kernel), issues_of_check (by decide +kernel), issues_of_check (by decide +kernel),
    issues_of_check (by decide +kernel), by decide +kernel⟩

/-- A copy engine stands at a command. -/
def ce (e : Nat) (bs : List Byte) : State := at' up e aRun bs

/-- A copy of 16 bytes within cluster 0's SRAM, and a fill of 16 bytes with a record. -/
def ccopyEntry : List Byte := entry 128 [(0, 1, 0x30), (4, 4, 1), (8, 4, 16), (16, 8, 0x100), (32, 8, 0x200)]
def cfillEntry : List Byte := entry 128 [(0, 1, 0x31), (1, 1, 2), (4, 4, 1), (8, 4, 16), (32, 8, 0x200), (48, 8, 0x20000), (56, 8, 7), (64, 8, 0x0807060504030201)]

theorem witness_CopyCommandsRun :
    (∃ r b s1, Issues (ce 128 ccopyEntry) 128 0x30 r b s1 ∧ ((copyCodes b (decide (eKind 128 = 2))).isEmpty && gives (s1.copyBytes 128 r (copyCmd b)) (fun _ => true) &&
      !(copyCmd b).record && decide ((copyCmd b).dstSpace = 0 ∧ (copyCmd b).srcSpace = 0 ∧ (copyCmd b).rows = 1 ∧ (copyCmd b).xpose = false)) = true) ∧
    (∃ r b s1, Issues (ce 128 cfillEntry) 128 0x31 r b s1 ∧ ((copyCodes b (decide (eKind 128 = 2))).isEmpty && gives (s1.copyBytes 128 r (copyCmd b)) (fun _ => true) &&
      (copyCmd b).record && decide ((copyCmd b).dstSpace = 0 ∧ (copyCmd b).rows = 1)) = true) ∧
    (Table.get? (mapped (running up 192 { aRun with wait := .record 0x20000 7 })).eng.runs 192 = some { aRun with wait := .record 0x20000 7 } ∧ eKind 192 = 3 ∧
      gives (((mapped (running up 192 { aRun with wait := .record 0x20000 7 })).drain 192).translate (aRun.access 192 1) 0x20000) (fun pa => decide (pa % 16 = 0) &&
        !((mapped (running up 192 { aRun with wait := .record 0x20000 7 })).drain 192).inTransit pa 16 &&
        decide (((mapped (running up 192 { aRun with wait := .record 0x20000 7 })).drain 192).region pa = .hbm)) = true) ∧
    (∃ r b s1, Issues (ce 128 (entry 64 [(0, 1, 0x32)])) 128 0x32 r b s1 ∧ zerosAt b 1 63 = true) ∧
    (Table.get? (running up 128 { aRun with wait := .fence, pend := [(5, 1)] }).eng.runs 128 = some { aRun with wait := .fence, pend := [(5, 1)] } ∧ eKind 128 = 2) :=
  ⟨issues_of_check (by decide +kernel), issues_of_check (by decide +kernel), by decide +kernel, issues_of_check (by decide +kernel), by decide +kernel⟩

theorem witness_CrossingQueuesReset :
    ((mail 0 { entries := List.replicate 256 1 }).mbox 0).resetting = false ∧ ((mail 0 { entries := List.replicate 256 1 }).mbox 0).entries.length ≤ 256 ∧
    ¬ QueueId.log 3 ∈ up.xq.resetting ∧ ¬ QueueId.other 1 2 3 4 ∈ up.xq.resetting ∧
    (((mail 4 { resetting := true }).mbox 4).resetting = true ∧ ((mail 4 { resetting := true }).mbox 4).commanded = false) ∧
    (∀ i, QueueId.log 3 ≠ .mailbox i) ∧
    (2 < 3 ∧ ((mail 5 { resetting := true, commanded := true }).mbox (3 * 1 + 2)).resetting = true ∧
      ((mail 5 { resetting := true, commanded := true }).mbox (3 * 1 + 2)).commanded = true) :=
  ⟨by decide +kernel, by decide +kernel, by decide +kernel, by decide +kernel, by decide +kernel, by simp, by decide +kernel⟩


/-- The collective engine of link die 10 stands at a command; group 0 has step 1 open on it. -/
def col (bs : List Byte) : State := (at' up 20864 aRun bs).setCol { up.col with steps := [(stepKey 0 0, { step := 1, thresh := 0 })] }

/-- A CSTEP of step 2, and a CREDUCE of one FP32 element for step 1. -/
def cstepEntry : List Byte := entry 64 [(0, 1, 0x40), (8, 8, 2), (16, 4, 0x3F800000)]
def creduceEntry : List Byte :=
  entry 128 [(0, 1, 0x41), (4, 1, 6), (5, 1, 6), (6, 1, 6), (8, 8, 1), (16, 8, 0x20000), (24, 8, 0x20000), (32, 8, 1), (40, 4, 250000), (44, 4, 9)]

/-- Group 0 captures at 0x20000. -/
def capState : State :=
  ((col cstepEntry).putFld (COL_CAP_CTRL 0) F.COL_CAP_CTRL_MODE 1 |>.putReg (COL_CAP_SIZE 0) 64).putReg (COL_CAP_ADDR 0) 0x20000

theorem witness_ExchangeStepsStart :
    ((up.putGroup 14 { pending := some (0, { size := 2 }) }).group 14).pending = some (0, { size := 2 }) ∧ 0 ≤ (up.putGroup 14 { pending := some (0, { size := 2 }) }).watch ∧
    (∃ r b s1, Issues (col cstepEntry) 20864 0x40 r b s1 ∧ ((s1.cstepCodes r b).isEmpty && decide (s1.capMode (byteOf b 2) ≠ 1)) = true) ∧
    (∃ r b s1, Issues capState 20864 0x40 r b s1 ∧ ((s1.cstepCodes r b).isEmpty && !s1.stepOpen 0 (leAt b 8 8) && decide (byteOf b 2 = 0 ∧ s1.capMode 0 = 1) &&
      decide (64 ≤ s1.addr (COL_CAP_SIZE 0) F.COL_CAP_SIZE_SIZE_LO F.COL_CAP_SIZE_SIZE_HI) &&
      gives (s1.translate (r.access 20864 1) (s1.addr (COL_CAP_ADDR 0) F.COL_CAP_ADDR_ADDR_LO F.COL_CAP_ADDR_ADDR_HI)) (fun pa =>
        decide (pa % 64 = 0) && !s1.inTransit pa 64 && decide (s1.region pa = .hbm))) = true) ∧
    (∃ r b s1, Issues (col creduceEntry) 20864 0x41 r b s1 ∧ ((s1.creduceCodes (eDie 20864 - 10) r b).isEmpty &&
      gives (s1.reduceInput (r.access 20864 0) b) (fun _ => true) && !s1.capturing 0 (leAt b 8 8) 2) = true) ∧
    ((up.setCol { up.col with stopped := [(0, 1, 9)] }).col.stopped.contains (0, 1, 9) = true ∧ up.col.stopped.contains (0, 1, 9) = false) :=
  ⟨by decide +kernel, by decide +kernel, issues_of_check (by decide +kernel), issues_of_check (by decide +kernel), issues_of_check (by decide +kernel), by decide +kernel⟩

/-- A CREDUCE of one element runs, among members. -/
def reduces (members : List Nat) (self : Nat) : Reduce :=
  { group := 0, step := 1, tag := 9, flags := 2, inFmt := 6, wire := 6, outFmt := 6, outAddr := 0x20000, count := 1, members := members, self := self, x := 0
    input := [0x3F800000], inCrc := 0 }

def reducing (d : Reduce) : State :=
  (mapped (running up 20864 { aRun with wait := .busy })).setCol { up.col with steps := [(stepKey 0 0, { step := 1, thresh := 0 })], running := [(0, d)] }

theorem witness_ExchangesEnd :
    (Table.get? (reducing (reduces [0] 0)).eng.runs 20864 = some { aRun with wait := .busy } ∧
      Table.get? (reducing (reduces [0] 0)).col.running (eDie 20864 - 10) = some (reduces [0] 0) ∧
      (reducing (reduces [0] 0)).fld WCH_TB_STATUS F.WCH_TB_STATUS_STATE ≠ 4 ∧ (reduces [0] 0).self < (reduces [0] 0).members.length ∧
      (reducing (reduces [0] 0)).outputs (reduces [0] 0) = some [0x3F800000] ∧ (reduces [0] 0).flags.testBit 2 = false ∧
      gives ((reducing (reduces [0] 0)).vStore (aRun.access 20864 1) 0x20000 (rowBytes 6 [0x3F800000])) (fun _ => true) = true) ∧
    ((reducing (reduces [0, 1] 0)).outputs (reduces [0, 1] 0) = none ∧ (reduces [0, 1] 0).self < (reduces [0, 1] 0).members.length ∧
      gives (foldM (fun s l => s.vStore (aRun.access 20864 1) l.1 l.2) ((reducing (reduces [0, 1] 0)).partOutput (reduces [0, 1] 0)) (reducing (reduces [0, 1] 0)))
        (fun _ => true) = true) ∧
    ((reducing (reduces [] 0)).cutOff (reduces [] 0) = true ∧ ¬ (reduces [] 0).self < (reduces [] 0).members.length) ∧
    (reducing (reduces [0] 0)).openStep (eDie 20864 - 10) 0 = some { step := 1, thresh := 0 } := by decide +kernel

/-- A plan whose slot of 79 granules from granule 0 leaves a Beacon round its time. -/
def beaconState : State := ((at' up 20864 aRun (entry 64 [(0, 1, 0x42), (4, 2, 0xFFFF), (8, 8, 1), (24, 8, 0x20000), (32, 8, 1)])).setCol
    { up.col with steps := [(stepKey 0 0, { step := 1, thresh := 0 })] }).setAdm
  { plans := [(1, { planOn 20864 .running with slots := [{ itsSlot with engine := 20864, count := 79, state := .running }] })], lastId := 1 }

/-- A round of step 1 in a sub-round. -/
def aRound (sub : Nat) : Round := { engine := 20864, step := 1, f := 1, sg := 25, sub := sub, known := 1, skip := 0, reason := 0, sumsq := 0, nonfinite := 0, reduced := 0
                                    result := 0x20000, flips := 1, capture := false, ids := [], subs := [] }

/-- Group 0 of two members is in it, and the other member lies behind port 31. -/
def inRound (sub : Nat) : State :=
  ((mapped (running (portIn 31 2) 20864 { aRun with wait := .busy })).putGroup 0 { now := { size := 2 }, round := some (aRound sub) }).setBoot
    { up.boot with chart := { up.boot.chart with links := [{ kind := 2, a := 5, b := 2 ^ 31, c := 0, d := 0, e := 0 }, { kind := 4, a := 0, b := 1, c := 5, d := 0, e := 0 }] } }

/-- The other member's message of sub-round sub. -/
def itsMessage (sub : Nat) : List Byte := entry 96 [(0, 8, 1), (10, 1, sub), (11, 1, 1), (12, 1, 25), (13, 1, 1), (32, 1, 2)]

theorem witness_BeaconRoundsRun :
    (∃ r b s1, Issues beaconState 20864 0x42 r b s1 ∧ ((s1.cbeaconCodes 20864 r b).isEmpty && decide (byteOf b 2 = 0) && !bit (byteOf b 1) 1 &&
      !s1.capturing 0 (leAt b 8 8) 2 && decide (s1.granule = 0)) = true) ∧
    (((inRound 1).group 0).round = some (aRound 1) ∧ (aRound 1).sub < (aRound 1).f + 1 ∧ (aRound 1).sub * (aRound 1).sg < 249 ∧
      (inRound 1).fld WCH_TB_STATUS F.WCH_TB_STATUS_STATE ≠ 4 ∧ ((inRound 1).group 0).now.others = [1] ∧ (inRound 1).upPorts ((inRound 1).rankPkg 0 1) = 31 :: []) ∧
    ((inRound 2).timely 0 (aRound 2) (itsMessage 2) = true ∧ (aRound 2).sub = (aRound 2).f + 1 ∧ ((aRound 2).known ||| leAt (itsMessage 2) 32 32) ≠ (aRound 2).known) ∧
    ((inRound 2).timely 0 (aRound 2) (itsMessage 1) = false) ∧
    (Table.get? (inRound 2).eng.runs 20864 = some { aRun with wait := .busy } ∧ (aRound 2).capture = false ∧
      gives (((inRound 2).toTick (1000 * (1 + ((aRound 2).f + 1) * (aRound 2).sg))).vStore (aRun.access 20864 1) 0x20000
        (((inRound 2).toTick (1000 * (1 + ((aRound 2).f + 1) * (aRound 2).sg))).beaconRecord 0 (aRound 2)
          (((inRound 2).toTick (1000 * (1 + ((aRound 2).f + 1) * (aRound 2).sg))).decide' 0 (aRound 2)))) (fun _ => true) = true) :=
  ⟨issues_of_check (by decide +kernel), by decide +kernel, by decide +kernel, by decide +kernel, by decide +kernel⟩


/-- What UAPPLY's statement asks of its entry, parameters and progress; a rule with items stages them all. -/
def applies (s1 : State) (e : Nat) (r : Run) (b : List Byte) : Bool :=
  (s1.uapplyCodes e r b).isEmpty &&
  gives (s1.vRead (r.access e 0) (leAt b 16 8) 128) (fun x => gives (x.2.vRead (r.access e 0) (leAt b 24 8) 64) (fun y =>
    let t := tensorOf x.1
    let p := y.2.paramsOf e r.part (leAt b 8 8) y.1
    let s3 := y.2.putFld (UPD_SEQ_STATUS (eDie e)) F.UPD_SEQ_STATUS_TENSOR_ID t.id
    (y.2.entryCodes r.part x.1 t).isEmpty && (paramCodes y.1).isEmpty && (engineCodes t (leAt b 4 4)).isEmpty &&
    (decide (t.rule = 3) || decide (leAt b 32 8 + leAt b 40 4 ≤ (groupsOf t p).foldl (· + ·) 0)) && !s3.seedDiffers r.part t p (leAt b 32 8) &&
    gives (s3.progress (r.access e 0) t p (leAt b 32 8)) (fun z => z.1.1 && (decide (t.rule = 3) ||
      gives (((z.2.noteSeed r.part t p (leAt b 32 8)).modRun e (fun r => { r with wait := .busy })).readLive (r.access e 0) t (leAt b 32 8) (leAt b 40 4)) (fun l =>
        gives (l.2.stageItems (r.access e 1) t p l.1 ((List.range (leAt b 40 4)).map (leAt b 32 8 + ·))) (fun _ => true))))))

/-- The sequencer of die 0 stands at a UAPPLY of one item of a tensor of one element, vector engine 0 lent to it. -/
def update (rule : Nat) : State :=
  ((withBytes (withBytes (at' up 320 aRun (entry 64 [(0, 1, 0x50), (2, 2, 9), (4, 4, 65536), (8, 8, 1), (16, 8, 0x20000), (24, 8, 0x21000), (40, 4, 1)]))
      0x20000 (entry 128 [(0, 4, 1), (4, 1, rule), (5, 1, 1), (8, 4, 1), (12, 4, 1), (16, 4, 1), (20, 4, 1), (24, 8, 0x30000), (32, 8, 0x31000), (40, 8, 0x33000)]))
    0x21000 (entry 64 [(28, 1, 8)]))).setAdm
  { plans := [(1, { planOn 320 .running with slots := [{ itsSlot with engine := 320, state := .running }, { itsSlot with engine := 64, stream := 0, state := .running }] })]
    lastId := 1 }

theorem witness_UpdatesApply :
    (∃ r b s1, Issues (update 0) 320 0x50 r b s1 ∧ applies s1 320 r b = true) ∧
    (∃ r b s1, Issues (update 3) 320 0x50 r b s1 ∧ applies s1 320 r b = true) ∧
    (eExists 320 = true ∧ eKind 320 = 5 ∧ Table.get? ((running up 320 { aRun with wait := .busy }).setUpd { up.upd with running := [(0, ⟨9, 0, [[(5, 1)]], 0, none⟩)] }).eng.runs 320 =
        some { aRun with wait := .busy } ∧
      Table.get? ((running up 320 { aRun with wait := .busy }).setUpd { up.upd with running := [(0, ⟨9, 0, [[(5, 1)]], 0, none⟩)] }).upd.running (eDie 320) =
        some ⟨9, 0, [[(5, 1)]], 0, none⟩) :=
  ⟨issues_of_check (by decide +kernel), issues_of_check (by decide +kernel), by decide +kernel⟩


/-- The exporter of link die 10 stands at a command; be: of a best-effort slot; its stream, where one is open; handle 5 is loaded for 4,096 bytes. -/
def expo (be : Bool) (st : Option Stream) (bs : List Byte) : State :=
  ((at' up 20928 { aRun with be := be } bs).setExp (match st with | some x => [(0, x)] | none => [])).setLnk
    { up.lnk with handles := [(5, { entry := entry 64 [(0, 1, 1), (3, 1, 3), (48, 8, 4096)], psn := 0 })] }

/-- A stream to memory at 0x40000, or to handle 5. -/
def aStream (dest : Nat) : Stream :=
  { part := 0, checkpoint := false, dest := dest, base := 0x40000, limit := 4096, handle := 5, snapId := 1, step := 1, pos := 64, shards := 0, dataBytes := 0, sides := [] }

/-- XOPEN, XSHARD of one part of one entry at 0x20000, XRELAY of 64 bytes. -/
def xopenEntry (dest at0 limit : Nat) : List Byte := entry 64 [(0, 1, 0x58), (3, 1, dest), (4, 4, 1), (8, 8, 1), (16, 8, at0), (24, 8, limit), (32, 8, 1)]
def xshardEntry : List Byte := entry 64 [(0, 1, 0x59), (2, 1, 1), (4, 4, 1), (8, 8, 0x20000)]
def xrelayEntry (dest at0 : Nat) : List Byte := entry 64 [(0, 1, 0x5B), (3, 1, dest), (8, 8, 0x20000), (16, 8, at0), (24, 8, 64)]
def xcloseEntry : List Byte := entry 64 [(0, 1, 0x5A)]

/-- The address translates to one of HBM, aligned to 64 bytes and not in transit. -/
def hbm64 (s : State) (a : Access) (va : Nat) : Bool :=
  gives (s.translate a va) (fun pa => decide (pa % 64 = 0) && !s.inTransit pa 64 && decide (s.region pa = .hbm))

/-- The tensor entry of the update above stands at 0x20000. -/
def withTensor (s : State) : State :=
  withBytes s 0x20000 (entry 128 [(0, 4, 1), (5, 1, 1), (8, 4, 1), (12, 4, 1), (16, 4, 1), (20, 4, 1), (24, 8, 0x30000), (32, 8, 0x31000), (40, 8, 0x33000)])

theorem witness_ExporterStreamsRun :
    (∃ r b s1, Issues (expo false none (xopenEntry 1 0x40000 127)) 20928 0x58 r b s1 ∧ ((s1.openCodes 20928 r b).isEmpty && decide (leAt b 24 8 < 128)) = true) ∧
    (∃ r b s1, Issues (expo true none (xopenEntry 0 5 4096)) 20928 0x58 r b s1 ∧ ((s1.openCodes 20928 r b).isEmpty && decide (128 ≤ leAt b 24 8 ∧ byteOf b 3 = 0) &&
      !s1.ethPaused (leAt b 16 2)) = true) ∧
    (∃ r b s1, Issues (expo false none (xopenEntry 1 0x40000 128)) 20928 0x58 r b s1 ∧ ((s1.openCodes 20928 r b).isEmpty && decide (128 ≤ leAt b 24 8 ∧ byteOf b 3 = 1) &&
      hbm64 s1 (r.access 20928 1) (leAt b 16 8)) = true) ∧
    (∃ r b s1, Issues (withTensor (expo false (some (aStream 1)) xshardEntry)) 20928 0x59 r b s1 ∧ ((s1.shardCodes 20928 r b).isEmpty &&
      gives (s1.shardEntries (r.access 20928 0) b (List.range (leAt b 4 4))) Option.isSome) = true) ∧
    (∃ r b s1, Issues (withTensor (expo false (some { aStream 1 with overflow := true }) xshardEntry)) 20928 0x59 r b s1 ∧ ((s1.shardCodes 20928 r b).isEmpty &&
      gives (s1.shardEntries (r.access 20928 0) b (List.range (leAt b 4 4))) Option.isSome) = true) ∧
    (∃ r b s1, Issues (expo true (some (aStream 0)) xcloseEntry) 20928 0x5A r b s1 ∧ (zerosAt b 1 63 && decide (s1.stream? 20928 = some (aStream 0)) && decide (r.part = 0) &&
      !s1.ethPaused 5) = true) ∧
    (∃ r b s1, Issues (expo true (some (aStream 1)) xcloseEntry) 20928 0x5A r b s1 ∧ (zerosAt b 1 63 && decide (s1.stream? 20928 = some (aStream 1)) && decide (r.part = 0) &&
      hbm64 s1 (r.access 20928 1) (0x40000 + 64)) = true) ∧
    (Table.get? ((running up 20928 { aRun with wait := .busy }).setExp [(0, { aStream 1 with closing := true })]).eng.runs 20928 = some { aRun with wait := .busy } ∧ eKind 20928 = 7 ∧
      ((running up 20928 { aRun with wait := .busy }).setExp [(0, { aStream 1 with closing := true })]).stream? 20928 = some { aStream 1 with closing := true }) ∧
    (∃ r b s1, Issues (expo false (some { aStream 1 with limit := 127 }) (xrelayEntry 1 0x50000)) 20928 0x5B r b s1 ∧ ((s1.relayCodes r b).isEmpty &&
      decide (127 < leAt b 24 8 + 64)) = true) ∧
    (∃ r b s1, Issues (expo true none (xrelayEntry 0 5)) 20928 0x5B r b s1 ∧ ((s1.relayCodes r b).isEmpty && decide (byteOf b 3 = 0) && !s1.ethPaused (leAt b 16 2) &&
      gives (s1.vRead (r.access 20928 0) (leAt b 8 8) (leAt b 24 8)) (fun _ => true)) = true) ∧
    (∃ r b s1, Issues (expo false (some { aStream 1 with limit := 128 }) (xrelayEntry 1 0x50000)) 20928 0x5B r b s1 ∧ ((s1.relayCodes r b).isEmpty &&
      decide (byteOf b 3 ≠ 0 ∧ leAt b 24 8 + 64 ≤ 128) &&
      gives (foldM (fun s i => s.relayLine (r.access 20928 0) b i) (List.range (leAt b 24 8 / 64)) s1) (fun _ => true)) = true) :=
  ⟨issues_of_check (by decide +kernel), issues_of_check (by decide +kernel), issues_of_check (by decide +kernel), issues_of_check (by decide +kernel),
    issues_of_check (by decide +kernel), issues_of_check (by decide +kernel), issues_of_check (by decide +kernel), by decide +kernel,
    issues_of_check (by decide +kernel), issues_of_check (by decide +kernel), issues_of_check (by decide +kernel)⟩


/-- Where places are, a place is found. -/
theorem nthPlace_isSome {align : Nat} : ∀ {l : List (Nat × Nat)} {k m : Nat}, k < l.foldl (fun m p => m + p.2) m → m ≤ k → (nthPlace align l (k - m)).isSome = true := by
  intro l
  induction l with
  | nil => intro k m h1 h2; exact absurd h1 (by simpa using h2)
  | cons p l ih =>
    intro k m h1 h2
    rw [List.foldl_cons] at h1
    unfold nthPlace
    by_cases h : k - m < p.2
    · rw [if_pos h]; rfl
    · rw [if_neg h, Nat.sub_sub]
      exact ih h1 (by omega)

/-- A tier with a place has a free run. -/
theorem freeRun_isSome {s : State} {t n align : Nat} (h : 0 < ((s.freeGaps t).map (gapPlaces n align)).foldl (fun m p => m + p.2) 0) :
    ∃ b, s.freeRun t n align = some b := by
  have := nthPlace_isSome (align := align) (l := (s.freeGaps t).map (gapPlaces n align)) (m := 0) (Nat.mod_lt s.anyNat h) (Nat.zero_le _)
  exact Option.isSome_iff_exists.mp this

/-- A frame's move starts where its new tier is no T3, a mover's stays within the quota, and there is a place. -/
theorem startMove_isSome {s : State} {base t : Nat} {f : Frame} {engine : Option Nat} (h3 : t ≠ 3)
    (hq : engine.isSome = true → s.quota f.part t = none)
    (h : 0 < ((s.freeGaps t).map (gapPlaces (s.moveUnit base f).2 (s.moveUnit base f).2)).foldl (fun m p => m + p.2) 0) :
    ∃ s1, s.startMove base t f engine = some s1 := by
  obtain ⟨b, hb⟩ := freeRun_isSome h
  unfold State.startMove
  cases engine with
  | none => simp only [h3, decide_false, Bool.false_and, Option.isSome_none, Bool.or_self, Bool.false_eq_true, if_false, hb]; exact ⟨_, rfl⟩
  | some e => simp only [h3, decide_false, Bool.false_and, hq rfl, Bool.and_false, Bool.or_self, Bool.false_eq_true, if_false, hb]; exact ⟨_, rfl⟩

/-- Partition 0 without quotas of T1 and T2. -/
def noLimit (s : State) : State := (s.putFld (TMV_QUOTA 0 0) F.TMV_QUOTA_GIB 0xFFFFFFFF).putFld (TMV_QUOTA 0 1) F.TMV_QUOTA_GIB 0xFFFFFFFF

/-- Partition 0 asks for one frame of T1, or with a quota of T1 of no GiB. -/
def asksFrame (tier lowest : Nat) : AllocReq := { tier := tier, lowest := lowest, big := false, movable := true, count := 1, va := 0x10000 }
def askState (q : AllocReq) : State := (noLimit up).setTiers { up.tiers with allocs := [(0, q)] }
def noQuota (s : State) : State := s.putFld (TMV_QUOTA 0 0) F.TMV_QUOTA_GIB 0
def asked (s : State) : State := (s.setTiers { s.tiers with allocs := Table.del s.tiers.allocs 0 }).clrBit (TMV_ALLOC 0) F.TMV_ALLOC_GO

/-- A frame moves from 0x10000 to 0x20000, with 1 GiB of host DRAM in service. -/
def aMove : Move := { src := 0x10000, dst := 0x20000, bytes := 0x10000, engine := none }
def moving : State := up.setTiers { up.tiers with frames := [(0x10000, { plainFrame with transit := true }), (0x20000, plainFrame)], moves := [aMove] }
def withDram (s : State) : State := (s.putFld HST_DRAM_STATUS F.HST_DRAM_STATUS_STATE 2).putFld HST_DRAM_STATUS F.HST_DRAM_STATUS_GIB 1

theorem witness_FramesComeAndGo :
    ((askState (asksFrame 0 1)).Inv ∧ Table.get? (askState (asksFrame 0 1)).tiers.allocs 0 = some (asksFrame 0 1) ∧ (asksFrame 0 1).ok = false) ∧
    ((noQuota (askState (asksFrame 1 1))).Inv ∧ Table.get? (noQuota (askState (asksFrame 1 1))).tiers.allocs 0 = some (asksFrame 1 1) ∧ (asksFrame 1 1).ok = true ∧
      (asked (noQuota (askState (asksFrame 1 1)))).tryTiers 0 0x10000 0x10000 1 [1] false = (none, true)) ∧
    ((askState (asksFrame 1 1)).Inv ∧ Table.get? (askState (asksFrame 1 1)).tiers.allocs 0 = some (asksFrame 1 1) ∧
      ∃ b, (asked (askState (asksFrame 1 1))).tryTiers 0 0x10000 0x10000 1 [1] false = (some (1, b), false)) ∧
    ((framed { plainFrame with zeroing := true }).Inv ∧ Table.get? (framed { plainFrame with zeroing := true }).tiers.frames 0x10000 = some { plainFrame with zeroing := true }) ∧
    (moving.Inv ∧ moving.tiers.moves.find? (fun x => x.src = aMove.src) = some aMove ∧ moving.eng.runs = [] ∧ (moving.regionRaw aMove.dst).tier ≠ 3 ∧
      moving.lostAt aMove.src = false ∧ moving.lostAt aMove.dst = false ∧
      (∀ x ∈ moving.tiers.frames, inRun aMove.src aMove.bytes x.1 = true → x.2.freeAfter = false) ∧ moving.region aMove.dst = .hbm ∧
      moving.flag (MMU_ROOT 0) F.MMU_ROOT_EN = false ∧ moving.flag (HST_SV57_ROOT 0) F.HST_SV57_ROOT_EN = false ∧ (∀ c ∈ moving.coh, inRun aMove.src aMove.bytes c.1 = false)) ∧
    ((noQuota (framed { plainFrame with movable := false })).Inv ∧ (noQuota (framed { plainFrame with movable := false })).overQuota 0 1 = true ∧
      (noQuota (framed { plainFrame with movable := false })).tiers.frames.filter (fun e => decide (e.2.part = 0) && e.2.movable && !e.2.zeroing &&
        decide (((noQuota (framed { plainFrame with movable := false })).regionRaw e.1).tier = 1)) = []) ∧
    ((noQuota (withDram (framed plainFrame))).Inv ∧ (noQuota (withDram (framed plainFrame))).overQuota 0 1 = true ∧
      oldest ((noQuota (withDram (framed plainFrame))).tiers.frames.filter (fun e => !e.2.transit)) = some (0x10000, plainFrame) ∧
      (Table.get? (noQuota (withDram (framed plainFrame))).tiers.demoted 0).getD 0 + ((noQuota (withDram (framed plainFrame))).moveUnit 0x10000 plainFrame).2 ≤
        (noQuota (withDram (framed plainFrame))).demoteRate ∧
      ∃ s1, (noQuota (withDram (framed plainFrame))).demoteTo 0 0x10000 plainFrame [2, 3, 4] = some s1) := by
  have h1 : ∃ b, (asked (askState (asksFrame 1 1))).tryTiers 0 0x10000 0x10000 1 [1] false = (some (1, b), false) := by
    obtain ⟨b, hb⟩ := freeRun_isSome (s := asked (askState (asksFrame 1 1))) (t := 1) (n := 0x10000) (align := 0x10000) (by decide +kernel)
    refine ⟨b, ?_⟩
    unfold State.tryTiers
    rw [if_neg (by decide +kernel), if_neg (by decide +kernel), if_neg (by decide +kernel), hb]
  have h2 : ∃ s1, (noQuota (withDram (framed plainFrame))).demoteTo 0 0x10000 plainFrame [2, 3, 4] = some s1 := by
    obtain ⟨s1, hs⟩ := startMove_isSome (s := noQuota (withDram (framed plainFrame))) (base := 0x10000) (t := 2) (f := plainFrame) (engine := none) (by decide) (by simp) (by decide +kernel)
    refine ⟨s1, ?_⟩
    unfold State.demoteTo
    rw [if_neg (by decide +kernel), hs]
  refine ⟨?_, ?_, ⟨?_, ?_, h1⟩, ?_, ?_, ?_, ?_, ?_, ?_, ?_, h2⟩ <;> first | decide +kernel | (unfold State.Inv; decide +kernel)

/-- A TMOVE to T2 of the frame at VA 0, with or without a route. -/
def tmoveEntry (cls tier : Nat) : List Byte :=
  entry 64 [(0, 1, 0x60), (2, 1, tier), (3, 1, cls), (4, 2, if cls < 2 then 0xFFFF else 255), (6, 1, 0xFF), (16, 8, 0x10000), (24, 8, 5), (32, 8, 1), (40, 8, 2), (56, 2, 9)]

/-- The tier mover of die 0 stands at it; the frame lies at a base. -/
def mover (bs : List Byte) : State := noLimit (withDram ((at' up 256 aRun bs).setTiers { up.tiers with frames := [(0x10000, plainFrame)] }))

/-- A fetch that runs. -/
def aFetch (cls : Nat) : Fetch := { tier := 2, cls := cls, route := 255, group := 0xFF, va := 0, len := 0x10000, deadline := 0, step := 1, tag := 2, alt := 0, buoy := 9, todo := []
                                    missed := false, late := false, replay := false }
def fetching (cls : Nat) : State := running up 256 { aRun with wait := .busy, fetch := some (aFetch cls) }

/-- An armed route whose fetch was late. -/
def anArm (out : Nat) : RouteArm := { deadline := 0, part := 0, fetches := [{ engine := 256, step := 1, tag := 2, alt := 0, cls := 2, group := 0xFF, planTag := 7, outcome := out }] }
def armed (out : Nat) : State := up.setTiers { up.tiers with routes := [(255, anArm out)] }

theorem witness_FetchesAndRoutesRun :
    (∃ r b s1, Issues (mover (tmoveEntry 1 1)) 256 0x60 r b s1 ∧ ((s1.moveCodes r b).isEmpty && decide (byteOf b 3 < 2) &&
      (s1.framesAt r.part (leAt b 8 8) (leAt b 16 8)).all (fun x => decide (((mover (tmoveEntry 1 1)).regionRaw x.1).tier = byteOf b 2) && !(mover (tmoveEntry 1 1)).moving x.1) &&
      decide ((mover (tmoveEntry 1 1)).movesOf 256 = [])) = true) ∧
    (∃ r b s1, Issues (mover (tmoveEntry 2 2)) 256 0x60 r b s1 ∧ ((s1.moveCodes r b).isEmpty && decide (2 ≤ byteOf b 3 ∧ 4 ≤ byteOf b 6)) = true) ∧
    (∃ r b s1, Issues (mover (tmoveEntry 1 2)) 256 0x60 r b s1 ∧ ((s1.moveCodes r b).isEmpty && decide (byteOf b 3 < 2) &&
      decide (s1.framesAt r.part (leAt b 8 8) (leAt b 16 8) = [(0x10000, plainFrame)]) && decide (((mover (tmoveEntry 1 2)).regionRaw 0x10000).tier ≠ byteOf b 2) &&
      !(mover (tmoveEntry 1 2)).lostAt 0x10000 && !(mover (tmoveEntry 1 2)).moving 0x10000) = true ∧
      ∃ s3, ((s1.modRun 256 (fun r => { r with wait := .busy, fetch := some (Machine.fetchOf b [0x10000]) })).putFetch 256 (some (Machine.fetchOf b []))).startMove
        0x10000 (byteOf b 2) plainFrame (some 256) = some s3) ∧
    ((fetching 2).fetchOf 256 = some ({ aRun with wait := .busy, fetch := some (aFetch 2) }, aFetch 2) ∧ 2 ≤ (aFetch 2).cls ∧ (aFetch 2).replay = false ∧ aRun.be = false) ∧
    ((fetching 1).fetchOf 256 = some ({ aRun with wait := .busy, fetch := some (aFetch 1) }, aFetch 1) ∧ (aFetch 1).late = false ∧ (aFetch 1).deadline ≤ (fetching 1).watch) ∧
    (Table.get? (armed 1).tiers.routes 255 = some (anArm 1) ∧ (anArm 1).deadline ≤ (armed 1).watch ∧ (∀ x ∈ (anArm 1).fetches, x.outcome = 1)) ∧
    (∃ x ∈ (anArm 2).fetches, x.outcome ≠ 1) := by
  refine ⟨issues_of_check (by decide +kernel), issues_of_check (by decide +kernel), ?_, by decide +kernel, by decide +kernel, by decide +kernel, by decide +kernel⟩
  obtain ⟨r, b, s1, hi, h⟩ := issues_of_check (s := mover (tmoveEntry 1 2)) (e := 256) (op := 0x60) (p := fun r b s1 => ((s1.moveCodes r b).isEmpty && decide (byteOf b 3 < 2) &&
      decide (s1.framesAt r.part (leAt b 8 8) (leAt b 16 8) = [(0x10000, plainFrame)]) && decide (((mover (tmoveEntry 1 2)).regionRaw 0x10000).tier ≠ byteOf b 2) &&
      !(mover (tmoveEntry 1 2)).lostAt 0x10000 && !(mover (tmoveEntry 1 2)).moving 0x10000) && decide (byteOf b 2 = 2) &&
      decide (((s1.modRun 256 (fun r => { r with wait := .busy, fetch := some (Machine.fetchOf b [0x10000]) })).putFetch 256 (some (Machine.fetchOf b []))).quota 0 2 = none) &&
      decide (0 < ((((s1.modRun 256 (fun r => { r with wait := .busy, fetch := some (Machine.fetchOf b [0x10000]) })).putFetch 256 (some (Machine.fetchOf b []))).freeGaps 2).map
        (gapPlaces (((s1.modRun 256 (fun r => { r with wait := .busy, fetch := some (Machine.fetchOf b [0x10000]) })).putFetch 256 (some (Machine.fetchOf b []))).moveUnit 0x10000 plainFrame).2
          (((s1.modRun 256 (fun r => { r with wait := .busy, fetch := some (Machine.fetchOf b [0x10000]) })).putFetch 256 (some (Machine.fetchOf b []))).moveUnit 0x10000 plainFrame).2)).foldl
        (fun m p => m + p.2) 0)) (by decide +kernel)
  rw [Bool.and_eq_true, Bool.and_eq_true, Bool.and_eq_true, decide_eq_true_eq, decide_eq_true_eq, decide_eq_true_eq] at h
  obtain ⟨⟨⟨h1, h2⟩, h3⟩, h4⟩ := h
  exact ⟨r, b, s1, hi, h1, by rw [h2]; exact startMove_isSome (by decide) (fun _ => h3) h4⟩


/-- A state in watch w with the flash tier in a state. -/
def flashIn (w : Nat) (f : Flash) : State := (up.setWatch w).setFlash f

/-- A T3 stack in a state. -/
def stackIn (f st : Nat) : State := up.putFld (DFT_STACK f) F.DFT_STACK_STATE st

theorem witness_FlashTierWorks :
    ((flashIn 2 { stripe := 64, stripeWatch := 0 }).flash.stripe ≠ 0 ∧ (flashIn 2 { stripe := 64, stripeWatch := 0 }).flash.stripeWatch + 2 ≤
      (flashIn 2 { stripe := 64, stripeWatch := 0 }).watch ∧ (flashIn 2 { stripe := 64, stripeWatch := 0 }).log.final = false) ∧
    ((flashIn 0 { full := 1 }).flash.full ≠ 0 ∧ (flashIn 0 { full := 1 }).log.final = false) ∧
    ((flashIn 2 {}).durable + 1 < (flashIn 2 {}).watch ∧ (flashIn 2 {}).flash.stripe = 0) ∧
    ((flashIn 9 { stripe := 64, stripeWatch := 8 }).durable + 1 < (flashIn 9 { stripe := 64, stripeWatch := 8 }).flash.stripeWatch) ∧
    ((up.setLog { up.log with final := true }).log.final = true) ∧
    (5 ∈ (flashIn 0 { relocating := [5] }).flash.relocating) ∧
    (up.fld (DFT_STACK 15) F.DFT_STACK_STATE = 0 ∧ 1 ∉ up.otherStacks 15) ∧ (1 ∈ (stackIn 0 1).otherStacks 15 ∧ (stackIn 0 1).fld (DFT_STACK 15) F.DFT_STACK_STATE = 0) ∧
    ((stackIn 15 1).fld (DFT_STACK 15) F.DFT_STACK_STATE = 1 ∧ 1 ∉ (stackIn 15 1).otherStacks 15) ∧
    (1 ∈ ((stackIn 15 1).putFld (DFT_STACK 0) F.DFT_STACK_STATE 1).otherStacks 15) := by decide +kernel

/-- Stack 15 has served bytes in this band. -/
def served (x : HbmStack) : State := up.putStack 15 x

theorem witness_HbmControllersWork :
    ((up.stack 15).maint + transferred 0 32 ≤ up.stackShare * 3 / 100) ∧
    (up.stackShare * 3 / 100 < ((served { maint := 2 ^ 30 }).stack 15).maint + transferred 0 32) ∧
    (((served {}).stack 15).lc + transferred 0 32 ≤ ((served {}).stack 15).budget) ∧
    (((served { budget := 0, be := 2 ^ 30 }).stack 15).budget < ((served { budget := 0, be := 2 ^ 30 }).stack 15).lc + transferred 0 32 ∧
      up.stackShare < ((served { budget := 0, be := 2 ^ 30 }).stack 15).be + transferred 0 32) ∧
    ((84 : Nat) < 256 ∧ ¬ (85 : Nat) ≤ 84) ∧ (hbmBytes / 16 - 1 < hbmBytes / 16) ∧
    (((served { scrubbed := stackGranules - 1 }).stack 15).scrubbed + 1 = stackGranules) := by decide +kernel

/-- Four-level tables in a PINNED frame at 0 map the page at VA 0 to 0x4000; rights are bits 4 to 6. -/
def paged (rights : Nat) : State :=
  (withBytes (withBytes (withBytes (withBytes (withBytes up 0 (leBytes 8 0x1001)) 0x1000 (leBytes 8 0x2001)) 0x2000 (leBytes 8 0x3001)) 0x3000 (leBytes 8 0x5001))
    0x5000 (leBytes 8 (0x4007 + rights))).setTiers { up.tiers with frames := [(0, { plainFrame with movable := false })] }
    |>.setBit (MMU_ROOT 0) F.MMU_ROOT_EN

/-- A guaranteed walk of the vector engine 64 for VA 8. -/
def aWalk (acc : Nat) : Walk := ⟨0, 64, 0, 8, acc, true⟩
def walking (s : State) (acc : Nat) : State := ((running s 64 aRun).setTiers s.tiers).setMmu { up.mmu with walks := [(0, aWalk acc)], nextWalk := 1 }

theorem witness_TranslationsMissAndArrive :
    (Table.get? (mapped (running up 64 aRun)).eng.runs 64 = some aRun ∧ (mapped (running up 64 aRun)).mmu.tlb.any (fun t => decide (t.die = walkDie 64 ∧ t.part = aRun.part ∧
      t.va ≤ 8 ∧ 8 < t.va + t.size)) = true) ∧
    ((running up 64 aRun).mmu.tlb = [] ∧ (running up 64 aRun).walkerFree (aWalk 1) = true) ∧
    ((running up 64 aRun).setMmu { up.mmu with walks := (List.range 64).map (fun k => (k, aWalk 1)) }).walkerFree (aWalk 1) = false ∧
    (Table.get? (walking (paged 0x70) 1).mmu.walks 0 = some (aWalk 1) ∧ 0 < (walking (paged 0x70) 1).mmu.nextWalk ∧
      gives ((walking (paged 0x70) 1).walk 0 8) (fun l => grants l 1 && l.pinned) = true) ∧
    (Table.get? (walking (paged 0x10) 1).eng.runs 64 = some aRun ∧ aRun.be = false ∧ gives ((walking (paged 0x10) 1).walk 0 8) (fun l => !grants l 1) = true) ∧
    (Table.get? (walking up 1).mmu.walks 0 = some (aWalk 1) ∧ gives ((walking up 1).walk 0 8) (fun _ => true) = false) ∧
    (Table.get? (up.setMmu { up.mmu with inv := [(0, true, 0, 4096)] }).mmu.inv 0 = some (true, 0, 4096)) := by decide +kernel

/-- The line at 0x40 has a record. -/
def lined (l : Line) : State := up.setCoh [(0x40, l)]

/-- Forwards of each kind from hart 1. -/
def fwd (k : FwdKind) : Forward := { owner := .hart 1, requester := .hart 2, kind := k }

theorem witness_CoherenceProtocolWorks :
    ((0x40 : Nat) = 0x7F - 0x7F % 64 ∧ (up.region 0x7F).isMemory = true ∧ up.region 0x40 = .hbm) ∧
    (((lined { owner := some (.hart 1) }).line 0x40).owner = some (.hart 1) ∧ Agent.hart 1 ≠ .hart 2) ∧
    ((up.line 0x40).owner = none ∧ caches .remote = false ∧ caches (.dieCache 15) = true ∧ (up.line 0x40).sharers = []) ∧
    (((lined { sharers := [.hart 1] }).line 0x40).owner = none ∧ ((lined { sharers := [.hart 1] }).line 0x40).sharers ≠ [] ∧
      Agent.hart 2 ∉ ((lined { sharers := [.hart 1] }).line 0x40).sharers) ∧
    ((63 : Nat) < 64 ∧ ([1] : List Byte).length ≤ 64 - 63 ∧ (List.replicate 64 (0 : Byte)).length = 64) ∧
    (Agent.hart 1 ∉ ((lined { owner := some (.hart 1) }).line 0x40).silent) ∧ (Agent.hart 1 ∈ ((lined { silent := [.hart 1] }).line 0x40).silent) ∧
    (((lined { owner := some (.hart 1), dirty := true, forwards := [fwd .shared, fwd .once] }).line 0x40).forwards = fwd .shared :: [fwd .once]) ∧
    (((lined { owner := some (.hart 1), forwards := [fwd .shared] }).line 0x40).dirty = false ∧ List.replicate 64 0 =
      (lined { owner := some (.hart 1), forwards := [fwd .shared] }).memLine 0x40) ∧
    (((lined { owner := some (.hart 2), forwards := [fwd .unique] }).line 0x40).forwards = fwd .unique :: [] ∧
      ((lined { owner := some (.hart 2), forwards := [fwd .unique] }).line 0x40).owner.isSome = true) := by decide +kernel

/-- With no cached copy, an entry of the region table is read from memory. -/
def freshEntry (s : State) (e : Nat) : State × Option RegionEntry :=
  match s.regionAt e with
  | none => (s.tookFree, none)
  | some at0 =>
    if (s.rdMem at0 32).2 ∨ ¬ (regionOf (s.rdMem at0 32).1).flags.testBit 0 then ((s.noteRead at0 32 none 8).tookFree, none)
    else (((s.noteRead at0 32 none 8).tookFree.setPcie { (s.noteRead at0 32 none 8).tookFree.pcie with
      regions := Table.put (s.noteRead at0 32 none 8).tookFree.pcie.regions e (regionOf (s.rdMem at0 32).1) }), some (regionOf (s.rdMem at0 32).1))

theorem regionEntry_fresh {s : State} {e : Nat} (h : Table.get? s.pcie.regions e = none) : s.regionEntry e = freshEntry s e := by
  have h2 : (if s.anyBool then Table.get? s.pcie.regions e else none) = none := by rw [h]; split <;> rfl
  unfold State.regionEntry freshEntry
  rw [h2]
  try rfl

/-- Some state goes with the entry. -/
theorem regionEntry_of {s : State} {e : Nat} {x : Option RegionEntry} {p : State → Bool} (h : Table.get? s.pcie.regions e = none)
    (h2 : (decide ((freshEntry s e).2 = x) && p (freshEntry s e).1) = true) : ∃ s1, s.regionEntry e = (s1, x) ∧ p s1 = true := by
  rw [Bool.and_eq_true, decide_eq_true_eq] at h2
  exact ⟨(freshEntry s e).1, by rw [regionEntry_fresh h, ← h2.1], h2.2⟩

/-- The region table lies in a PINNED frame of the service partition at 0x200000; entry 0 lets port 0 and key 0 read, write and apply atomics to 4 KiB at VA 0x30000
of partition 0. -/
def tabled (ports : Nat) : State :=
  (((withBytes (mapped up) 0x200000 (entry 32 [(0, 1, 15), (2, 1, ports), (8, 8, 0x30000), (16, 4, 0x1000)])).setTiers
    { up.tiers with frames := [(0x200000, { plainFrame with big := true, movable := false })] }).setBit HST_REGION_BASE F.HST_REGION_BASE_EN).putFld HST_REGION_BASE
    F.HST_REGION_BASE_BASE_LO 1

/-- The entry as it is read. -/
def theEntry (ports : Nat) : RegionEntry := { flags := 15, part := 0, ports := ports, key := 0, va := 0x30000, len := 0x1000, plan := 0 }

/-- A device read awaits its completion, asked by a hart. -/
def awaiting : State := up.setPcie { up.pcie with reads := [⟨7, 3, .hart 5, 0x1000, 8⟩], inv := some 65536, fences := [7] }

/-- Port 7 has its FENCE page at 0x5000, port 6 its range at 2^45, and port 7 may relay to port 6. -/
def fenced : State := (((up.putFld (HST_FENCE_BUS 7) F.HST_FENCE_BUS_ADDR_LO 5).putFld (HST_OUT_BASE 6) F.HST_OUT_BASE_BASE 1)).putFld (HST_PORT_CFG 7) F.HST_PORT_CFG_RELAY 64

theorem witness_PciePortsWork :
    ((0x5008 : Nat).testBit 63 = false ∧ fenced.inFence 7 0x5008 = true) ∧ (7 ∈ awaiting.pcie.fences) ∧
    (fenced.inFence 7 (2 ^ 45 + 8) = false ∧ fenced.rangePort (2 ^ 45 + 8) = some 6 ∧ (fenced.fld (HST_PORT_CFG 7) F.HST_PORT_CFG_RELAY).testBit 6 = true) ∧
    (fenced.rangePort (5 * 2 ^ 45) = none ∧ fenced.inFence 7 (5 * 2 ^ 45) = false) ∧
    ((2 ^ 63 + 0x40 : Nat).testBit 63 = true ∧ ∃ s1, up.regionEntry (bits (2 ^ 63 + 0x40) 62 31 % 65536) = (s1, none) ∧ true = true) ∧
    ((∃ s1, (tabled 1).regionEntry (bits (2 ^ 63 + 0x40) 62 31 % 65536) = (s1, some (theEntry 1)) ∧
        (decide (s1.regionPieces (theEntry 1) (4 * (0 / 4)) (bits (2 ^ 63 + 0x40) 30 0) 8 (kindAcc .cas) = some [(0x30040, 8)]) && decide (s1.region 0x30040 = .hbm)) = true) ∧
      (theEntry 1).accepts (bits (2 ^ 63 + 0x40) 62 31) (bits (2 ^ 63 + 0x40) 30 0) 8 (kindAcc .cas) = true ∧ (theEntry 1).ports.testBit 0 = true ∧
      atomicShape .cas (bits (2 ^ 63 + 0x40) 30 0) 8 = true ∧ (theEntry 1).flags.testBit 4 = false ∧ requestBytes .cas 8 [] = 8 ∧ (tabled 1).aheadOf 0 = []) ∧
    (up.region (pcieBase + 7 * 0x200000000000) = .pcie 7) ∧ (awaiting.outstanding 7 3 = some ⟨7, 3, .hart 5, 0x1000, 8⟩) ∧ (awaiting.pcie.inv = some 65536) := by
  refine ⟨by decide +kernel, by decide +kernel, by decide +kernel, by decide +kernel, ⟨by decide +kernel, regionEntry_of (p := fun _ => true) (by decide +kernel) (by decide +kernel)⟩,
    ⟨regionEntry_of (by decide +kernel) (by decide +kernel), by decide +kernel⟩, by decide +kernel, by decide +kernel, by decide +kernel⟩


theorem witness_CountersSaturate :
    (State.reset.reg (INT_BAD 0)).toNat + 5 ≤ 0xFFFFFFFFFFFFFFFF ∧
    0xFFFFFFFFFFFFFFFF < ((State.reset.putReg (INT_BAD 0) 0xFFFFFFFFFFFFFFFE).reg (INT_BAD 0)).toNat + 2 := by decide +kernel

/-- The order generator of intake die 14 (engine 29504) stands at a command; its slot has feed slots of kinds 8 to 11 in the same place. -/
def oe (r : Run) (bs : List Byte) : State :=
  let s := at' up 29504 r bs
  s.setAdm { s.adm with plans := [(1, { planOn 29504 .running with
    slots := (planOn 29504 .running).slots ++ [8, 9, 10, 11].map (fun k => { engine := eId 14 k 0, off := 0, gran := 0, count := 1, demand := [], stream := 0, energy := 0, cycles := 100, state := .running }) })] }

/-- A profile of one raw tensor of at most 64 bytes at offset 64 of the slot. -/
def tensorEntry : List Byte := entry 64 [(0, 1, 3), (4, 4, 64), (8, 4, 64)]

/-- Bytes with their CRC-32C after them. -/
def withCrc (bs : List Byte) : List Byte := bs ++ leBytes 4 (crc32c bs)

/-- A container of one block of one sample of one record of 4 payload bytes: file header, block index, block header, body. -/
def aContainer : List Byte :=
  withCrc (entry 60 [(0, 4, 0x46435342), (6, 1, 1), (8, 8, 2), (16, 4, 1), (20, 4, 128), (24, 8, 64)]) ++ entry 32 [(0, 8, 96)]
    ++ withCrc (entry 28 [(0, 4, 0x4B4C4253), (16, 4, 2), (20, 4, 40), (24, 4, 40)]) ++ entry 8 [(0, 4, 8), (4, 4, 8)]
    ++ withCrc (entry 24 [(0, 4, 4), (4, 1, 3), (6, 2, 9), (8, 8, 77), (16, 4, 5)] ++ [1, 2, 3, 4])

/-- A draw in order of a source of two samples in that container; its slots of 4,096 bytes stand at 0x50000. -/
def aDraw (count : Nat) (finished : List Nat) : Draw :=
  { part := 0, mode := 1, flags := 0, group := 0xFF, steerLog := 0, buoy := 0xFFFF, step := 3, epoch := 0, count := count, pos := 0, slotBytes := 4096, dest := 0x50000
    steer := 0, margin := 0, tag := 6, seed := 0, n := 2, k := 1, containers := [(0x30000, 168, 0)], profile := [tensorEntry], finished := finished }

/-- A state whose context 0 of the order generator holds a draw, and the container stands in memory. -/
def drawing (s : State) (d : Draw) : State := withBytes (s.setDraws [(0, d)]) 0x30000 aContainer

/-- IOPEN of that draw: source table at 0x20000, profile at 0x21000. -/
def iopenEntry : List Byte :=
  entry 128 [(0, 1, 0x70), (1, 1, 1), (4, 1, 0xFF), (6, 2, 0xFFFF), (8, 8, 3), (20, 4, 1), (28, 4, 4096), (32, 8, 0x20000), (40, 8, 0x21000), (48, 8, 0x50000), (66, 2, 6)]
def irunEntry : List Byte := entry 64 [(0, 1, 0x71), (4, 4, 10000)]
def icloseEntry : List Byte := entry 64 [(0, 1, 0x72)]

/-- The tables of an IOPEN stand in memory. -/
def withTables (s : State) : State :=
  withBytes (withBytes s 0x20000 (entry 96 [(0, 8, 2), (8, 1, 1), (12, 4, 1), (64, 8, 0x30000), (72, 8, 168)])) 0x21000 tensorEntry

/-- Is an IOPEN as the statement asks, with the tables it reads? -/
def iopenCheck (s : State) (r : Run) (b : List Byte) (s1 : State) : Bool :=
  (s1.iopenCodes 29504 r b).isEmpty && gives (s1.vRead (r.access 29504 0) (leAt b 32 8) 64) (fun x =>
    decide (1 ≤ leAt x.1 12 4 ∧ leAt x.1 12 4 ≤ 4096 ∧ 1 ≤ byteOf x.1 8 ∧ byteOf x.1 8 ≤ 8) &&
    gives (x.2.vRead (r.access 29504 0) (leAt b 32 8 + 64) (32 * leAt x.1 12 4)) (fun y =>
      gives (y.2.vRead (r.access 29504 0) (leAt b 40 8) (64 * byteOf x.1 8)) (fun z =>
        let d := drawOf r b (s.reg (UPD_SEED r.part)).toNat (leAt x.1 0 8) (byteOf x.1 8) (containersOf (leAt x.1 12 4) y.1) (profileOf (byteOf x.1 8) z.1)
        drawSourceOk d.n (byteOf x.1 8) d.containers && d.profile.all entryOk && layoutOk d.profile d.slotBytes && decide (d.pos + d.count ≤ d.n) &&
          !s.lacksFeed 29504 r d.profile)))

/-- Does slot 0 of the running draw finish without fault, with a good sample? -/
def sampleCheck (s : State) (d : Draw) (r : Run) : Bool :=
  decide (Table.get? s.eng.runs 29504 = some r ∧ r.wait = .busy ∧ s.draw 29504 r.ctx = some d) && s.slotDue d 0 &&
  gives (s.pickSample (r.access 29504 0) d 0) (fun x => match x with
    | none => false
    | some x => gives (s.tookFree.makeSample (r.access 29504 0) d x.n) (fun m => m.1.bad.isEmpty && decide (m.1.outs = [(64, [1, 2, 3, 4] ++ List.replicate 60 0)]) &&
      gives (foldM (fun s o => s.vStore (r.access 29504 1) (d.dest + o.1) o.2) m.1.outs m.2) (fun s2 =>
        gives (s2.vStore (r.access 29504 1) d.dest (s2.slotHeader d x m.1 0 (decide (m.1.steered ≠ 0)))) (fun _ => true))))

theorem witness_IntakeDrawsRun :
    (∃ r b s1, Issues (withTables (oe aRun iopenEntry)) 29504 0x70 r b s1 ∧ iopenCheck (withTables (oe aRun iopenEntry)) r b s1 = true) ∧
    (∃ r b s1, Issues (drawing (oe aRun irunEntry) (aDraw 1 [0])) 29504 0x71 r b s1 ∧
      ((s1.drawCodes 29504 r (byteOf b 2) (zerosAt b 1 1 && zerosAt b 3 1 && zerosAt b 8 56)).isEmpty &&
        decide (10000 ≤ leAt b 4 4 ∧ leAt b 4 4 ≤ 250000 ∧ (drawing (oe aRun irunEntry) (aDraw 1 [0])).draw 29504 (byteOf b 2) = some (aDraw 1 [0]))) = true) ∧
    (∃ r b s1, Issues (drawing (oe aRun irunEntry) (aDraw 1 [])) 29504 0x71 r b s1 ∧
      ((s1.drawCodes 29504 r (byteOf b 2) (zerosAt b 1 1 && zerosAt b 3 1 && zerosAt b 8 56)).isEmpty &&
        decide (10000 ≤ leAt b 4 4 ∧ leAt b 4 4 ≤ 250000 ∧ (drawing (oe aRun irunEntry) (aDraw 1 [])).draw 29504 (byteOf b 2) = some (aDraw 1 []))) = true) ∧
    (Table.get? (oe { aRun with wait := .busy } irunEntry).eng.runs 29504 = some { aRun with wait := .busy } ∧ eExists 29504 = true ∧ eKind 29504 = 13) ∧
    (∃ r b s1, Issues (drawing (oe aRun icloseEntry) (aDraw 1 [0])) 29504 0x72 r b s1 ∧
      (s1.drawCodes 29504 r (byteOf b 2) (zerosAt b 1 1 && zerosAt b 3 61)).isEmpty = true) ∧
    sampleCheck (drawing (oe { aRun with wait := .busy } irunEntry) (aDraw 1 [])) (aDraw 1 []) { aRun with wait := .busy } = true ∧
    sampleCheck (drawing (oe { aRun with wait := .busy } irunEntry) (aDraw 2 [])) (aDraw 2 []) { aRun with wait := .busy } = true :=
  ⟨issues_of_check (by decide +kernel), issues_of_check (by decide +kernel), issues_of_check (by decide +kernel), by decide +kernel,
    issues_of_check (by decide +kernel), by decide +kernel, by decide +kernel⟩


/-- Port 0 of link die 10 (optical engine 0) is UP. -/
def upPort (p : Port) : State := (up.showPort 0 2).putPort 0 p

/-- A flit of 256 bytes from a peer that expects nothing yet: SEQ, KIND, body. -/
def peerFlit (seq kind : Nat) (body : List Byte) : List Byte := ({} : Port).flit seq kind 0 body

/-- A message of 28 bytes waits for package 0, whose route mask is port 0. -/
def waitingMsg (p : Port) : State :=
  let s := upPort p
  let s1 := s.setBoot { s.boot with chart := { s.boot.chart with links := [⟨2, 7, 1, 0, 0, 0⟩] } }
  s1.setLnk { s1.lnk with out := [⟨0, true, 7, none, entry 28 [(0, 1, 1)]⟩] }

theorem witness_FlitsAreSequencedAndReplayed :
    (upPort {}).portUp 0 = true ∧
    ([] : List Byte).length ≠ 256 ∧
    ((peerFlit 0 0 []).length = 256 ∧ leAt (peerFlit 0 0 []) 252 4 = crc32c ((peerFlit 0 0 []).take 252) ∧ leAt (peerFlit 0 0 []) 0 2 / 4096 = 0) ∧
    ((peerFlit 2 2 []).length = 256 ∧ leAt (peerFlit 2 2 []) 252 4 = crc32c ((peerFlit 2 2 []).take 252) ∧ leAt (peerFlit 2 2 []) 0 2 / 4096 = 2 ∧
      (leAt (peerFlit 2 2 []) 0 2 % 4096 + 4096 - ((upPort {}).port 0).expect) % 4096 = 2 ∧ ((upPort {}).port 0).asked ≠ some ((upPort {}).port 0).expect) ∧
    ((peerFlit 4095 1 []).length = 256 ∧ leAt (peerFlit 4095 1 []) 252 4 = crc32c ((peerFlit 4095 1 []).take 252) ∧ leAt (peerFlit 4095 1 []) 0 2 / 4096 = 1 ∧
      2048 ≤ (leAt (peerFlit 4095 1 []) 0 2 % 4096 + 4096 - ((upPort {}).port 0).expect) % 4096) ∧
    ((peerFlit 0 1 []).length = 256 ∧ leAt (peerFlit 0 1 []) 252 4 = crc32c ((peerFlit 0 1 []).take 252) ∧ leAt (peerFlit 0 1 []) 0 2 / 4096 = 1 ∧
      (leAt (peerFlit 0 1 []) 0 2 % 4096 + 4096 - ((upPort {}).port 0).expect) % 4096 = 0 ∧
      Table.get? ((upPort {}).port 0).part (byteOf (peerFlit 0 1 []) 4 % 4) = none ∧ byteOf (peerFlit 0 1 []) 12 = 0) ∧
    (((upPort { held := [(0, [])], replay := [0] }).port 0).replay = 0 :: [] ∧ Table.get? ((upPort { held := [(0, [])], replay := [0] }).port 0).held 0 = some []) ∧
    (((upPort {}).port 0).replay = [] ∧ ((upPort {}).port 0).nextCtrl = none ∧ (upPort {}).nextChannel 0 = none) ∧
    (((upPort { held := List.replicate 1024 (0, []) }).port 0).replay = [] ∧ 1024 ≤ ((upPort { held := List.replicate 1024 (0, []) }).port 0).held.length) ∧
    (((upPort { ctrl := [(1, [])] }).port 0).nextCtrl = some (1, []) ∧ ((upPort { ctrl := [(1, [])] }).port 0).held.length < 1024) ∧
    ((waitingMsg {}).portUp 0 = true ∧ ((waitingMsg {}).port 0).nextCtrl = none ∧ (waitingMsg {}).nextChannel 0 = some 0) ∧
    ((upPort { asked := some 0 }).port 0).asked = some ((upPort { asked := some 0 }).port 0).expect ∧
    (((upPort { held := [(0, [])], timeouts := 14 }).port 0).held ≠ [] ∧ ((upPort { held := [(0, [])], timeouts := 14 }).port 0).timeouts < 15) ∧
    (((upPort { held := [(0, [])], timeouts := 15 }).port 0).held ≠ [] ∧ 15 ≤ ((upPort { held := [(0, [])], timeouts := 15 }).port 0).timeouts) :=
  ⟨by decide +kernel, by decide +kernel, by decide +kernel, by decide +kernel, by decide +kernel, by decide +kernel, by decide +kernel, by decide +kernel,
    by decide +kernel, by decide +kernel, by decide +kernel, by decide +kernel, by decide +kernel, by decide +kernel⟩


/-- Optical engine 0 is in a state of R481, with a port record, and with AUTO set or not; the Chart joins it to engine 3 of package 7. -/
def portAt (v : Nat) (p : Port) (auto : Nat) : State :=
  let s := ((up.putReg (portCtrl 0) (fset 0 F.LNK_PORT_CTRL_AUTO auto)).showPort 0 v).putPort 0 p
  s.setBoot { s.boot with chart := { s.boot.chart with links := [⟨1, 0, 7, 3, 0, 0⟩] } }

theorem witness_PortsTrainAndLeaveUp :
    ((portAt 1 { training := 2 } 0).portState 0 = 1 ∧ ((portAt 1 { training := 2 } 0).port 0).training ≠ 0 ∧ ((portAt 1 { training := 2 } 0).port 0).dark = false ∧
      (portAt 1 { training := 2 } 0).expectedPeer 0 = some (7, 3) ∧ (portAt 1 { training := 2 } 0).isEth 0 = false ∧
      (portAt 1 { training := 2 } 0).expectedPeer 0 ≠ some (7, 4)) ∧
    ((portAt 1 { training := 3 } 0).portState 0 = 1 ∧ ((portAt 1 { training := 3 } 0).port 0).training = 3) ∧
    ((portAt 1 { training := 2 } 1).portState 0 = 1 ∧ (portAt 1 { training := 2 } 1).flag (portCtrl 0) F.LNK_PORT_CTRL_AUTO = true) ∧
    ((portAt 1 { training := 2 } 0).flag (portCtrl 0) F.LNK_PORT_CTRL_AUTO = false) ∧
    ((portAt 1 {} 1).portState 0 = 1 ∧ ((portAt 1 {} 1).port 0).training = 0 ∧ ((portAt 1 {} 1).port 0).dark = false) ∧
    (portAt 2 {} 1).portState 0 = 2 ∧
    (0 ∈ connectorPorts 0 ∧ ((portAt 3 { dark := true } 0).port 0).dark = true ∧ (portAt 3 { dark := true } 0).portState 0 = 3) ∧
    (28 ∈ connectorPorts 7 ∧ ((portAt 3 {} 0).port 28).dark = false) := by decide +kernel


/-- Package 7 may read and write partition 0, and has 1 GiB lent to it at 0x100000. -/
def lending : State :=
  let s := ((((mapped up).putFld (TMV_LEND 0) F.TMV_LEND_EN 1).putFld (TMV_LEND 0) F.TMV_LEND_BORROWER 7).putFld (TMV_LEND 0) F.TMV_LEND_SIZE 1).setBoot
    { up.boot with chart := { up.boot.chart with links := [⟨6, 0, 7, 0, 0, 0⟩] } }
  s.setTiers { s.tiers with lent := [(0, 0x100000, 2 ^ 30)] }

/-- A message of package 7. -/
def aMsg : LinkMsg :=
  { src := 7, dst := 0, hops := 8, tag := 1, space := 0, part := 0, addr := 0x40, len := 8, epoch := 0, gr := true, poison := false, data := [1, 2, 3, 4, 5, 6, 7, 8] }

/-- A read of this package from package 7 awaits its response, and requests of package 7 wait. -/
def asking : State :=
  lending.setLnk { lending.lnk with reqs := [⟨1, 0, 3, 7, false, neighbourBase + 0x40, 8⟩], reads := [(3, aMsg)], writes := [(3, aMsg, true)] }

theorem witness_LinkMessagesAreServed :
    (carries (.rdReq 3 { aMsg with dst := 9 }) 3 0 { aMsg with dst := 9 } ∧ carries (.regRsp 3 { aMsg with dst := 9 }) 3 1 { aMsg with dst := 9 } ∧
      ({ aMsg with dst := 9 } : LinkMsg).dst ≠ lending.pkg ∧ ({ aMsg with hops := 1 } : LinkMsg).hops ≤ 1 ∧ 2 ≤ aMsg.hops ∧ aMsg.hops < 256) ∧
    (aMsg.dst = lending.pkg ∧ lending.remotePieces 3 aMsg aMsg.len 0 = some [(0x100040, 8)] ∧
      lending.remotePieces 3 { aMsg with space := 1 } 8 0 = some [(0x40, 8)] ∧ lending.remotePieces 3 { aMsg with space := 1, part := 1 } 8 0 = none) ∧
    (lending.remotePieces 3 { aMsg with addr := 2 ^ 30 - 8 } 8 0 = some [(0x100000 + 2 ^ 30 - 8, 8)] ∧ lending.remotePieces 3 { aMsg with addr := 2 ^ 30 } 8 0 = none) ∧
    (asking.waitingRead 3 0 = some (3, aMsg) ∧ aMsg.epoch = 0 ∧ aMsg.space ≠ 2 ∧ asking.remotePieces 3 aMsg aMsg.len 0 = some [(0x100040, aMsg.len)] ∧ 0 < aMsg.len ∧
      0x100040 % 64 + aMsg.len ≤ 64 ∧ asking.regionRaw 0x100040 = .hbm ∧ asking.linkAhead 3 = []) ∧
    (lending.remotePieces 3 { aMsg with addr := 2 ^ 30 } aMsg.data.length 1 = none ∧ lending.remotePieces 3 aMsg aMsg.data.length 1 = some [(0x100040, aMsg.data.length)] ∧
      0 < aMsg.data.length ∧ lending.regionRaw 0x100040 = .hbm) ∧
    (lending.regRefused { aMsg with addr := 0x1000000 } false = true ∧ lending.regRefused { aMsg with addr := 0x1000000 } true = true ∧
      lending.regRefused { aMsg with space := 1, addr := aliasAddr 0 (TMV_FREE 0) - aliasBase } false = false ∧
      lending.regRefused { aMsg with space := 1, addr := aliasAddr 0 (TMV_FREE 0) - aliasBase } true = false) ∧
    asking.waitingWrite 3 0 = some (3, aMsg, true) ∧
    (carries (.rdRsp 3 aMsg) 3 1 aMsg ∧ lending.requestOf aMsg = none ∧ asking.requestOf aMsg = some ⟨1, 0, 3, 7, false, neighbourBase + 0x40, 8⟩) ∧
    asking.lnk.reqs.find? (fun r => decide (r.die = 3) && decide (r.tag = 1)) = some ⟨1, 0, 3, 7, false, neighbourBase + 0x40, 8⟩ :=
  ⟨⟨.inl ⟨rfl, .inl rfl⟩, .inr ⟨rfl, .inr (.inr rfl)⟩, by decide +kernel⟩, by decide +kernel, by decide +kernel, by decide +kernel, by decide +kernel, by decide +kernel,
    by decide +kernel, ⟨.inr ⟨rfl, .inl rfl⟩, by decide +kernel⟩, by decide +kernel⟩


/-- Handle 5 is loaded with a write not acknowledged. -/
def sending (n retries : Nat) : State :=
  up.setLnk { up.lnk with handles := [(5, { entry := entry 64 [(0, 1, 1), (4, 3, 17), (8, 3, 18), (16, 4, 19)], psn := 3, sent := (List.range n).map (fun k => (k, 0, [])), retries := retries })] }

/-- The region table of the PCIe tests, with a handle that matches QPN 17. -/
def rdmaTabled : State := (tabled 0).setLnk (sending 0 0).lnk

theorem witness_EthernetHandlesWork :
    (5 < 64 ∧ ∃ x, Table.get? (sending 2 7).lnk.handles 5 = some x ∧ (decide (x.sent ≠ []) && decide (7 ≤ x.retries)) = true) ∧
    (∃ x, Table.get? (sending 2 6).lnk.handles 5 = some x ∧ (decide (x.sent ≠ []) && decide (x.retries < 7)) = true) ∧
    (∃ x, Table.get? (sending 2 6).lnk.handles 5 = some x ∧ (decide (x.sent.head? = some (0, 0, [])) && decide ((1 + 2 ^ 24 - 0) % 2 ^ 24 + (if false then 0 else 1) ≤ x.sent.length) &&
      decide (((sending 2 6).reg LNK0_ETH_HSTATUS).toNat.testBit 5 = false)) = true) ∧
    (up.lnk.handles.any (fun h => h.2.matches 17 19 18) = false ∧ rdmaTabled.lnk.handles.any (fun h => h.2.matches 17 19 18) = true) ∧
    ((theEntry 0).accepts 0 0x40 8 1 = true ∧ (theEntry 0).accepts 0 0x40 8 0 = true ∧ (theEntry 0).ports = 0 ∧ (theEntry 0).flags.testBit 4 = false) ∧
    (∃ s1, rdmaTabled.regionEntry (0 % 65536) = (s1, some (theEntry 0)) ∧ (decide (s1.regionPieces (theEntry 0) 0 0x40 8 1 = some [(0x30040, 8)]) &&
      decide (s1.regionPieces (theEntry 0) 0 0x40 8 0 = some [(0x30040, 8)]) && decide (s1.region 0x30040 = .hbm)) = true) := by
  refine ⟨⟨by decide, some_of_any (by decide +kernel)⟩, some_of_any (by decide +kernel), some_of_any (by decide +kernel), by decide +kernel, by decide +kernel, ?_⟩
  exact regionEntry_of (by decide +kernel) (by decide +kernel)


/-- The package with its Sextant in a state, the clocks on, at watch 5, everything off that a limit would set. -/
def sextant (p : Sextant) : State := (up.setPwr { p with clocks := true }).setWatch 5

theorem witness_SextantSetsPoints :
    (3 ∈ (sextant { moving := [3] }).pwr.moving ∧ (sextant { moving := [3] }).opTarget 3 = (sextant { moving := [3] }).opTarget 3 ∧
      Table.get? (sextant { moving := [3] }).pwr.next 3 = none) ∧
    (3 ∈ (sextant { moving := [3], next := [(3, 5)] }).pwr.moving ∧ Table.get? (sextant { moving := [3], next := [(3, 5)] }).pwr.next 3 = some 5) ∧
    (sextant {}).pwr.clocks = true ∧
    ((sextant { modeWatch := some 4 }).pwr.modeWatch = some 4 ∧ 4 < (sextant { modeWatch := some 4 }).watch) ∧
    ((sextant { hist := [10 ^ 9] }).boot.powered = true ∧ (sextant { hist := [10 ^ 9] }).log.final = false ∧
      ((sextant { hist := [10 ^ 9] }).railAt 100 [] 9).le ⟨(((sextant { hist := [10 ^ 9] }).allow ((100 :: [10 ^ 9]).take 160000) * 93 : Nat) : Int), 100⟩ = false) ∧
    ((sextant {}).pwrMode = 0 ∧ (sextant {}).pwr.fixedOp < 16 ∧ (sextant {}).pwr.levels = [] ∧ (sextant {}).pwr.caps = [] ∧ (sextant {}).pwr.moving = [] ∧
      (sextant {}).flag PWR_STATUS F.PWR_STATUS_EMERG = false ∧
      ((sextant {}).railAt 100 [] (sextant {}).pwr.fixedOp).le ⟨(((sextant {}).allow ([100].take 160000) * 93 : Nat) : Int), 100⟩ = true) ∧
    (thresholds 0 = some (95, 105, 115) ∧ up.boot.powered = true ∧ up.log.final = false ∧ up.tempLevel (95, 105, 115) 94 = 0 ∧ up.tempLevel (95, 105, 115) 95 = 1 ∧
      up.tempLevel (95, 105, 115) 104 = 1 ∧ up.tempLevel (95, 105, 115) 105 = 2 ∧ up.tempLevel (95, 105, 115) 114 = 2) ∧
    ((up.setBit PWR_STATUS F.PWR_STATUS_EMERG).flag PWR_STATUS F.PWR_STATUS_EMERG = true ∧
      16 ≤ ((up.setBit PWR_STATUS F.PWR_STATUS_EMERG).setPwr { up.pwr with cool := 16 }).pwr.cool) := by decide +kernel


/-- The boot's own state changed. -/
def booted (b : Boot) : State := up.setBoot b

/-- The boot stands at a stage. -/
def staged (n : Nat) : State := (up.putFld KPR_BOOT_STATUS F.KPR_BOOT_STATUS_STAGE n).putFld KPR_BOOT_STATUS F.KPR_BOOT_STATUS_FAILED 0

theorem witness_PowerComesAndGoes :
    (State.reset.boot.powered = false ∧ State.reset.boot.refLost = false) ∧
    ((booted { powered := false, refLost := true }).boot.powered = false ∧ (booted { powered := false, refLost := true }).boot.refLost = true) ∧
    ((booted { attempt := 1 }).boot.powered = false ∧ (booted { attempt := 1 }).boot.attempt = 1 ∧ (booted { attempt := 1 }).boot.inputLost = false ∧
      (booted { attempt := 1 }).boot.refLost = false) ∧
    ((booted { endCause := 1 }).restarts = true ∧ (booted { endCause := 1 }).boot.refLost = false) ∧
    ((booted { endCause := 5, refLost := true }).restarts = true ∧ (booted { endCause := 5, refLost := true }).boot.refLost = true ∧
      (booted { endCause := 5, refLost := true }).boot.inputLost = false) ∧
    ((booted { refLost := true }).boot.refLost = true ∧ (booted { refLost := true }).restarts = false) ∧
    (up.boot.powered = true ∧ up.log.final = false) ∧
    ((up.setLog { up.log with final := true }).boot.powered = true ∧ (up.setLog { up.log with final := true }).log.final = true) ∧
    ((staged 1).atStage 1 = true ∧ (staged 6).atStage 6 = true) := by decide +kernel


/-- A section entry of a Chart image: type, offset, bytes. -/
def sectionEntry (i type off n : Nat) : List (Nat × Nat × Nat) := [(32 + 12 * i, 2, type), (36 + 12 * i, 4, off), (40 + 12 * i, 4, n)]

/-- A Chart image of one coupled service partition with every cluster and hart, under a signature of zeros; without its check word. -/
def imageBody : List Byte :=
  entry 400 ([(0, 4, 0x54524843), (4, 2, 1), (7, 1, 6), (16, 4, 408), (20, 4, 9)] ++ sectionEntry 0 1 128 128 ++ sectionEntry 1 2 256 0 ++ sectionEntry 2 3 256 16
    ++ sectionEntry 3 4 272 8 ++ sectionEntry 4 5 280 8 ++ sectionEntry 5 6 288 16
    ++ [(129, 1, 1), (132, 4, 2 ^ 32 - 1), (136, 12, 2 ^ 96 - 1), (150, 2, 16384), (152, 4, 2864), (156, 1, 15), (160, 8, 2 ^ 64 - 1), (168, 32, 2 ^ 256 - 1),
      (200, 4, 0xFFFFFFFF), (204, 4, 0xFFFFFFFF), (208, 4, 0xFFFFFFFF), (212, 4, 0xFFFFFFFF), (216, 4, 0xFFFFFFFF), (259, 1, 0xFF),
      (272, 6, 0x5A5A5A5A5A5A), (281, 1, 9), (282, 2, 4800)])

/-- The image with its check word. -/
def anImage : List Byte := imageBody ++ leBytes 8 3269931515218453344

/-- Stage 2 with slot A selected and an image in it. -/
def slotted (image : List Byte) (p : Nat) : State :=
  ((staged 2).putFld CHT_SLOT_A F.CHT_SLOT_A_PRESENT p).setBoot { (staged 2).boot with slotA := image }

/-- A fold over a list in two parts. -/
theorem foldl_parts {α β : Type} (f : α → β → α) (l : List β) (n : Nat) (x : α) : l.foldl f x = (l.drop n).foldl f ((l.take n).foldl f x) := by
  rw [← List.foldl_append, List.take_append_drop]

/-- A code from four parts of its bytes. -/
theorem crc64_parts {l : List Byte} {n a b c d : Nat} (h1 : (l.take n).foldl (crcByte 0xC96C5795D7870F42) 0xFFFFFFFFFFFFFFFF = a)
    (h2 : ((l.drop n).take n).foldl (crcByte 0xC96C5795D7870F42) a = b) (h3 : (((l.drop n).drop n).take n).foldl (crcByte 0xC96C5795D7870F42) b = c)
    (h4 : (((l.drop n).drop n).drop n).foldl (crcByte 0xC96C5795D7870F42) c = d) : crc64 l = d ^^^ 0xFFFFFFFFFFFFFFFF := by
  unfold crc64
  rw [foldl_parts _ l n, h1, foldl_parts _ _ n, h2, foldl_parts _ _ n, h3, h4]

/-- The check word of the image, a hundred bytes at a time. -/
theorem image_check_word : crc64 imageBody = 15176812558491098271 ^^^ 0xFFFFFFFFFFFFFFFF :=
  crc64_parts (n := 100) (a := 4494830256815088088) (b := 11188498257514875668) (c := 13059921804981750887)
    (by decide +kernel) (by decide +kernel) (by decide +kernel) (by decide +kernel)

/-- Every check of the image passes but that of its signature, on which Config has no value (R549). -/
theorem chart_image_verifies (s : State) (hs : s.checkSignature anImage = true) :
    s.verifyChart anImage = 0 := by
  have h1 : checkWord anImage = true := by
    have n : imageLength anImage = 408 := by decide +kernel
    have l : anImage.length = 408 := by decide +kernel
    have b : anImage.take (408 - 8) = imageBody := by
      have : imageBody.length = 400 := by decide +kernel
      unfold anImage
      rw [List.take_append_of_le_length (by omega), List.take_of_length_le (by omega)]
    have w : leAt anImage (408 - 8) 8 = 3269931515218453344 := by decide +kernel
    simp only [checkWord, n, l, b, w, image_check_word]
    decide
  have h3 : checkFormat anImage = true := by
    have e1 : secAt anImage 1 = (128, 128) := by decide +kernel
    have e2 : secAt anImage 2 = (256, 0) := by decide +kernel
    have e3 : secAt anImage 3 = (256, 16) := by decide +kernel
    have e4 : secAt anImage 4 = (272, 8) := by decide +kernel
    have e5 : secAt anImage 5 = (280, 8) := by decide +kernel
    unfold checkFormat
    rw [e1, e2, e3, e4, e5]
    simp only [Bool.and_eq_true]
    repeat' apply And.intro
    all_goals decide +kernel
  have h4 : s.checkDevice (chartOf anImage) = true := by
    have : (chartOf anImage).device = 0 := by decide +kernel
    simp [State.checkDevice, this]
  have h5 : s.checkLicence (chartOf anImage) = true := by
    have a1 : (chartOf anImage).request = 0 := by decide +kernel
    have a2 : (chartOf anImage).parts.length = 1 := by decide +kernel
    have a3 : (chartOf anImage).eth = 0 := by decide +kernel
    have a4 : (chartOf anImage).expertBlocks = 0 := by decide +kernel
    simp [State.checkLicence, a1, a2, a3, a4, covered]
  have h6 : checkStructure (chartOf anImage) = true := by decide +kernel
  have h7 : checkResources (chartOf anImage) = true := by decide +kernel
  have h8 : checkPower (chartOf anImage) = true := by decide +kernel
  have h9 : checkLinks (chartOf anImage) = true := by decide +kernel
  have h10 : checkWatch (chartOf anImage) = true := by decide +kernel
  simp [State.verifyChart, h1, hs, h3, h4, h5, h6, h7, h8, h9, h10]

theorem witness_BootRunsItsStages :
    ((staged 1).atStage 1 = true ∧ (staged 1).flag KPR_ID_INFO F.KPR_ID_INFO_ERASE_PENDING = false ∧ 2 % 4 ≠ 0) ∧
    (((staged 1).setBit KPR_ID_INFO F.KPR_ID_INFO_ERASE_PENDING).flag KPR_ID_INFO F.KPR_ID_INFO_ERASE_PENDING = true ∧
      ((staged 1).setBit KPR_ID_INFO F.KPR_ID_INFO_ERASE_PENDING).atStage 1 = true) ∧
    ((slotted anImage 1).atStage 2 = true ∧ (slotted anImage 1).boot.selected = 0 ∧ (slotted anImage 1).slotPresent 0 = true ∧
      (slotted anImage 1).slotImage 0 = anImage ∧ ((slotted anImage 1).checkSignature anImage = true → (slotted anImage 1).verifyChart ((slotted anImage 1).slotImage 0) = 0)) ∧
    ((slotted [] 1).slotPresent 0 = true ∧ (slotted [] 1).verifyChart ((slotted [] 1).slotImage 0) = 1) ∧
    ((slotted [] 0).atStage 2 = true ∧ (slotted [] 0).slotPresent 0 = false) ∧
    ((staged 3).atStage 3 = true ∧ (staged 4).atStage 4 = true ∧ (staged 5).atStage 5 = true ∧ (staged 6).atStage 6 = true) ∧
    (1 ≤ 1 ∧ up.boot.powered = true ∧ up.log.final = false) :=
  ⟨by decide +kernel, by decide +kernel, ⟨by decide +kernel, by decide +kernel, by decide +kernel, rfl, chart_image_verifies _⟩, by decide +kernel,
    by decide +kernel, by decide +kernel, by decide +kernel⟩


/-- The Keeper is offered an entry by partition 0, whose K2H mailbox holds n entries; 1 MiB at 0x10000 of it lie in PINNED frames. -/
def offering (e n : Nat) : State :=
  let s := (up.putMbox 1 { entries := [BitVec.ofNat 64 e] }).putMbox 2 { entries := List.replicate n 0 }
  s.setTiers { s.tiers with frames := [(0x10000, { plainFrame with movable := false })] }

/-- An OP with a message at 0x10000, which is 64 × 0x400. -/
def opAt (op : Nat) : Nat := op + 0x400 * 65536

/-- Partition 1 is defined as well, and offers a token. -/
def otherOffers : State :=
  let d := (defaultChart.parts.head?).map (fun d => { d with num := 1, service := false })
  (up.setBoot { up.boot with chart := { defaultChart with parts := defaultChart.parts ++ d.toList } }).putMbox 4 { entries := [BitVec.ofNat 64 (opAt 3)] }

/-- A debug token at 0x10000 for the device and nonce as they stand, under a signature of zeros. -/
def tokened : State := withBytes (offering (opAt 3) 0) 0x10000 (entry 192 [(0, 4, 0x47554244), (8, 8, (up.reg KPR_ID_DEVICE).toNat), (16, 8, (up.reg KPR_DBG_NONCE).toNat)])

theorem witness_KeeperAnswers :
    (up.offered (.sideband 1) = some 1 ∧ (offering 1 0).offered (.mailbox 0) = some 1 ∧ (offering 1 0).k2hRoom 0 = true ∧ (offering 1 64).offered (.mailbox 0) = some 1 ∧
      (offering 1 64).k2hRoom 0 = false) ∧
    (up.offered (.sideband 9) = some 9 ∧ 9 % 256 ∉ knownOps (.sideband 9)) ∧
    ((offering (opAt 2) 0).offered (.mailbox 0) = some (opAt 2) ∧ opAt 2 % 256 = 2 ∧ messageAddr (opAt 2) = 0x10000 ∧
      (offering (opAt 2) 0).senderPinned (.mailbox 0) 0x10000 128 = true ∧ ((offering (opAt 2) 0).setBit KPR_ID_INFO F.KPR_ID_INFO_PROVISIONED).flag KPR_ID_INFO F.KPR_ID_INFO_PROVISIONED = true ∧
      (offering (opAt 2) 0).boot.recovery = false ∧ (offering (opAt 2) 0).region 0x10000 = .hbm ∧ (offering (opAt 2) 0).region (0x10000 + 64) = .hbm) ∧
    ((offering 2 0).offered (.mailbox 0) = some 2 ∧ (offering 2 0).senderPinned (.mailbox 0) (messageAddr 2) 128 = false) ∧
    (otherOffers.offered (.mailbox 1) = some (opAt 3) ∧ opAt 3 % 256 = 3 ∧ otherOffers.sender (.mailbox 1) ≠ otherOffers.service? ∧ otherOffers.boot.recovery = false) ∧
    ((offering 3 0).sender (.mailbox 0) = (offering 3 0).service? ∧ (offering 3 0).senderPinned (.mailbox 0) (messageAddr 3) 192 = false) ∧
    (tokened.offered (.mailbox 0) = some (opAt 3) ∧ tokened.sender (.mailbox 0) = tokened.service? ∧ tokened.senderPinned (.mailbox 0) (messageAddr (opAt 3)) 192 = true ∧
      tokened.boot.recovery = false) ∧
    ((offering (opAt 3) 0).tokenOk ((offering (opAt 3) 0).rdMem (messageAddr (opAt 3)) 192).1 = false) ∧
    (((booted { opening := true }).boot.opening = true) ∧
      (booted { replies := [(0, 5)] }).boot.replies.find? (fun r => r.1 = 0) = some (0, 5) ∧ (booted { replies := [(0, 5)] }).k2hRoom 0 = true ∧
      up.keeperOn = true ∧ up.boot.sideband = [] ∧ (booted { sideband := [7] }).boot.sideband = 7 :: [] ∧
      (booted { block := some (0x20, []) }).boot.block = some (0x20, [])) ∧
    (up.boot.block = none ∧ (0x20 + 1 * 65536 + 1 * 2 ^ 24) % 256 = 0x20 ∧ (0x20 + 1 * 65536 + 1 * 2 ^ 24) / 65536 % 256 = 1 ∧ (0x20 + 1 * 65536 + 1 * 2 ^ 24) / 2 ^ 24 % 2 ^ 24 = 1 ∧
      ([] : List Nat).length < 1 ∧ 1 ≤ [5].length ∧ up.boot.recovery = false) := by
  refine ⟨by decide +kernel, by decide +kernel, by decide +kernel, by decide +kernel, by decide +kernel, by decide +kernel, by decide +kernel, by decide +kernel,
    by decide +kernel, by decide +kernel⟩

/-- The token's other checks pass: with its signature accepted it opens the debug port (R560). -/
theorem token_checks_pass :
    Config.ecdsaVerify (Config.romKey 1) ((tokened.rdMem (messageAddr (opAt 3)) 192).1.take 96) (((tokened.rdMem (messageAddr (opAt 3)) 192).1.drop 96).take 96) = true →
    tokened.tokenOk (tokened.rdMem (messageAddr (opAt 3)) 192).1 = true := by
  intro h
  have a : leAt (tokened.rdMem (messageAddr (opAt 3)) 192).1 0 4 = 0x47554244 := by decide +kernel
  have b : leAt (tokened.rdMem (messageAddr (opAt 3)) 192).1 8 8 = (tokened.reg KPR_ID_DEVICE).toNat := by decide +kernel
  have c : leAt (tokened.rdMem (messageAddr (opAt 3)) 192).1 16 8 = (tokened.reg KPR_DBG_NONCE).toNat := by decide +kernel
  simp [State.tokenOk, a, b, c, h]

/-- The Keeper runs a Chart command, with more that wait. -/
def chartRuns (op : ChtOp) (f : Nat) (q : List ChtOp) : State := booted { up.boot with chtRun := some (op, 1, f, anImage), chtQueue := q }

/-- Matrix engine 3 of die 0 is to be mapped onto physical engine 17 from watch 0 on. -/
def remapping : State := up.setFt { up.ft with mapping := [(eId 0 0 3, 17, 0)] }

theorem witness_ChartCommandsEnd :
    ((chartRuns .reset 0 []).boot.chtRun = some (.reset, 1, 0, anImage)) ∧ ((chartRuns .write 0 []).boot.chtRun = some (.write, 1, 0, anImage)) ∧
    ((chartRuns .write 15 []).boot.chtRun = some (.write, 1, 15, anImage)) ∧ ((chartRuns .select 0 [.write]).boot.chtQueue = .write :: []) ∧
    ((chartRuns .install 0 []).boot.chtRun = some (.install, 1, 0, anImage)) ∧ ((chartRuns .invalidate 0 []).boot.chtRun = some (.invalidate, 1, 0, anImage)) ∧
    (remapping.ft.mapping.filter (fun m => m.2.2 ≤ remapping.watch) = [(eId 0 0 3, 17, 0)]) :=
  ⟨rfl, rfl, rfl, rfl, rfl, rfl, by decide +kernel⟩


/-- A unit under field test: physical matrix engine 3 of die 0 is unit 35, vector engine 0 of cluster 0 is unit 64; with its record, a segment running on the die,
windows, and the pattern library verified. -/
def tested (u : Nat) (x : FtUnit) (running : List (Nat × Nat × Bool)) (ws : List FtWindow) : State :=
  ((up.setBit FTS_STATUS F.FTS_STATUS_LIB_OK).setFt { up.ft with units := [(u, x)], running := running, windows := ws }).setWatch (2 ^ 40)

theorem witness_FieldTestsRun :
    (unitExists 35 = true ∧ unitExists 49 = true ∧ unitExists 64 = true ∧ unitExists 50 = false) ∧
    (((tested 35 {} [] []).unit 35).state < 2 ∧ (tested 35 {} [] []).methodOf 35 = 0 ∧ (tested 35 {} [] []).underTest 35 = none) ∧
    ((tested 64 { due := true, loaded := true } [] []).boot.powered = true ∧ (tested 64 { due := true, loaded := true } [] []).testWanted 64 = true ∧
      Table.get? (tested 64 { due := true, loaded := true } [] []).ft.running (eDie 64) = none ∧ ((tested 64 { due := true, loaded := true } [] []).unit 64).loaded = true ∧
      (∀ w ∈ (tested 64 { due := true, loaded := true } [] []).ft.windows, w.unit = 64 → w.watch ≠ (tested 64 { due := true, loaded := true } [] []).watch) ∧
      (tested 64 { due := true, loaded := true } [] []).unitIdle 64 = true) ∧
    (⟨64, 2 ^ 40, 10⟩ ∈ (tested 64 { due := true, loaded := true, reserved := true } [] [⟨64, 2 ^ 40, 10⟩]).ft.windows ∧
      (tested 64 { due := true, loaded := true, reserved := true } [] [⟨64, 2 ^ 40, 10⟩]).watch = 2 ^ 40 ∧
      (tested 64 { due := true, loaded := true, reserved := true } [] [⟨64, 2 ^ 40, 10⟩]).granule ≤ 10 ∧
      (tested 64 { due := true, loaded := true, reserved := true } [] [⟨64, 2 ^ 40, 10⟩]).unitEngine 64 = some 64 ∧
      Table.get? (tested 64 { due := true, loaded := true, reserved := true } [] [⟨64, 2 ^ 40, 10⟩]).eng.runs 64 = none) ∧
    ((tested 35 {} [(0, 35, false)] []).underTest 35 ≠ none ∧ ((tested 35 {} [(0, 35, false)] []).unit 35).segment + 1 < (tested 35 {} [(0, 35, false)] []).segmentsOf 35) ∧
    ((tested 35 { segment := 10 ^ 6 } [(0, 35, false)] []).segmentsOf 35 ≤ ((tested 35 { segment := 10 ^ 6 } [(0, 35, false)] []).unit 35).segment + 1) ∧
    (((tested 35 {} [] []).unit 35).starved = false ∧ ((tested 35 {} [] []).unit 35).completed + (watchesOfHours 48 : Int) ≤ (tested 35 {} [] []).poweredTime) ∧
    (((tested 35 { state := 1 } [] []).unit 35).state = 1 ∧
      ((tested 35 { state := 1 } [] []).unit 35).began + ((tested 35 { state := 1 } [] []).obsInterval : Int) ≤ (tested 35 { state := 1 } [] []).poweredTime ∧
      (tested 35 { state := 1 } [] []).underTest 35 = none ∧ (tested 35 { state := 1 } [] []).windowsAhead 35 = []) ∧
    ((64, 5) ∈ ((tested 64 { state := 2 } [] []).setFt { up.ft with leaving := [(64, 5)] }).ft.leaving ∧ up.engineSource 64 = 64 ∧
      5 ≤ (tested 64 { state := 2 } [] []).watch) := by decide +kernel

/-- Die 0's log queue holds an entry. -/
def logHolds (x : LogItem) : State := up.setLog { up.log with queues := [(0, [x])] }

/-- The trace ring is on, with 2^10 entries at 0x200000 in a PINNED frame of the service partition. -/
def traced : State :=
  let s := ((logHolds (.trace 64 1 0 2 3 4 5)).putFld LOG_TRACE_CTRL F.LOG_TRACE_CTRL_LOG2 10).putFld LOG_TRACE_ADDR F.LOG_TRACE_ADDR_ADDR_LO (0x200000 / 64)
  s.setTiers { s.tiers with frames := [(0x200000, { plainFrame with big := true, movable := false })] }

/-- An incident is open in slot 0 at watch 2^20, which ends a window. -/
def incidentOpen : State :=
  ((up.setBit LOG_STATUS F.LOG_STATUS_OPEN).setLog { up.log with incidents := [(0, { number := 1, boot := 1, line := 1, openWatch := 1, lastWatch := 1 })] }).setWatch (2 ^ 20)

theorem witness_LogbookKeepsRecords :
    (up.log.final = false ∧ (logHolds (.event 64 0 9 0 0 [])).logQueue 0 = .event 64 0 9 0 0 [] :: [] ∧
      ((Table.get? (logHolds (.event 64 0 9 0 0 [])).log.windows 64).getD {}).sent < (logHolds (.event 64 0 9 0 0 [])).eventLimit ∧
      (logHolds (.event 64 0 9 0 0 [])).flag LOG_STATUS F.LOG_STATUS_OPEN = false) ∧
    (up.eventLimit ≤ ((Table.get? ((logHolds (.event 64 0 9 0 0 [])).setLog { up.log with windows := [(64, { sent := 10 ^ 6 })] }).log.windows 64).getD {}).sent) ∧
    (traced.logQueue 0 = .trace 64 1 0 2 3 4 5 :: [] ∧ traced.traceRing ≠ 0 ∧
      traced.servicePinned (traced.addr LOG_TRACE_ADDR F.LOG_TRACE_ADDR_ADDR_LO F.LOG_TRACE_ADDR_ADDR_HI + (traced.reg LOG_TRACE_HEAD).toNat % max traced.traceRing 1 * 32) 32 = true ∧
      traced.region (traced.addr LOG_TRACE_ADDR F.LOG_TRACE_ADDR_ADDR_LO F.LOG_TRACE_ADDR_ADDR_HI) = .hbm) ∧
    (logHolds (.trace 64 1 0 2 3 4 5)).traceRing = 0 ∧
    (incidentOpen.watch % 4096 = 0 ∧ incidentOpen.flag LOG_STATUS F.LOG_STATUS_OPEN = true ∧ incidentOpen.fld LOG_STATUS F.LOG_STATUS_SLOT = 0 ∧
      Table.get? incidentOpen.log.incidents 0 = some { number := 1, boot := 1, line := 1, openWatch := 1, lastWatch := 1 } ∧ 1 + incidentOpen.quietWatches ≤ incidentOpen.watch) ∧
    (up.setLog { up.log with reading := true }).log.reading = true := by decide +kernel


/-! ## Single steps and functions whose results the spec gives or that were worked out by hand -/

/-- The state after a command. -/
def after (c : Instr) (s : State) : State := match exec c s with | .next t => t | _ => s

/-- The example of R61: C13.ME2 and JPEG decoder 5 of IN1. -/
theorem test_engine_identifiers : eId 3 0 6 = 0x1806 ∧ eId 15 10 5 = 0x7A85 := by decide +kernel

/-- The example of R567: TD3's physical engine 9 behind C13.ME2 is unit 0x1829. -/
theorem test_unit_identifier : (up.putFld (TD_ME_STATUS 3 6) F.TD_ME_STATUS_PHYS 9).engineSource 0x1806 = 0x1829 := by decide +kernel

/-- The example of R34: the page lies in H0 at stack offset 0x1_2345_6040. -/
theorem test_hbm_interleave : hbmStack 0x001234567040 = 0 ∧ hbmOffset 0x001234567040 = 0x123456040 ∧ hbmAddress 0 0x123456040 = 0x001234567040 := by decide +kernel

/-- The digits 1 to 9 in ASCII, of which published check values of both codes are known. -/
def digits : List Byte := [0x31, 0x32, 0x33, 0x34, 0x35, 0x36, 0x37, 0x38, 0x39]

/-- The codes of R417 and R544 by their published check values. -/
theorem test_check_codes : crc32c digits = 0xE3069283 ∧ crc64 digits = 0x995DC9BBDF1939FA := by decide +kernel

/-- The example of R108: 60.0, 37.5, 11.0, 10.0, −3.0 and zeros as a block of E2M1. -/
theorem test_block_scale :
    let r := outStage 18 false ([.fin false 60 0, .fin false 75 (-1), .fin false 11 0, .fin false 10 0, .fin true 3 0] ++ List.replicate 27 (.fin false 0 0))
    r.scales = [0x82] ∧ (rowBytes 2 (r.casts.map (·.code))).take 3 = [0x67, 0x23, 0x09] ∧ r.casts.map (·.clamped) = true :: List.replicate 31 false := by decide +kernel

/-- The example of R69: reservable HBM per band, and a slot of 201 granules from granule 20 with 180,000 KiB. -/
theorem test_band_shares :
    let x : Slot := { engine := 0x0800, off := 0, gran := 20, count := 201, demand := [180000], stream := 0, energy := 0, cycles := 318000, state := .waiting }
    up.capacity 0 = 936035 ∧ share x 180000 0 = 4478 ∧ share x 180000 4 = 22389 ∧ share x 180000 8 = 18806 ∧ ceilDiv (318000 + 3200) 1600 = 201 := by decide +kernel

/-- The example of R347: LC_PCT 5 gives 3,250 KiB per stack and band. -/
theorem test_lc_budget : (up.putFld (HBM_CFG 0) F.HBM_CFG_LC_PCT 5).lcBudget 0 = 3250 * 1024 := by decide +kernel

/-- The example of R43: P5's instance of TD3_CSNAP. -/
theorem test_alias_address : (up.hit ⟨.keeper, 0xFF100054BFFF8, 8, false, 0⟩).map (fun h => (h.window, h.desc.off, h.key)) = some (0xB, 0x7FFF8, partInst 5 + 0xB7FFF8) := by decide +kernel

/-- The example of R15: the lower half is returned, and the full value captured in the snapshot register of TD3's window. -/
theorem test_counter_capture :
    let t := after (.counterLowerHalfRead .keeper (regBase + TD_ME_FROZEN 3 6)) (up.putReg (TD_ME_FROZEN 3 6) 0x1FFFFFFFE)
    t.resp = 0xFFFFFFFE ∧ t.reg 0xB7FFF8 = 0x1FFFFFFFE := by decide +kernel

/-- R18: a write to an address of no register changes nothing but the violation counts. -/
theorem test_unmapped_write :
    let t := after (.registerWrite .keeper (regBase + 0xFFFF000) 8 1) up
    t.reg KPR_VIOLATIONS = 1 ∧ t.reg KPR_VIOL_UNMAPPED = 1 ∧ t.fld KPR_VIOL_LAST F.KPR_VIOL_LAST_OFFSET = 0xFFFF000 ∧ t.mem = up.mem := by decide +kernel

/-- R12: a bit written with 1 clears where it is write-one-to-clear, and one written with 0 stays. -/
theorem test_write_one_to_clear :
    let s := (up.setBit TMV_ALARM F.TMV_ALARM_TIER_LATE).setBit TMV_ALARM F.TMV_ALARM_LEND_REFUSED
    (after (.registerWrite .keeper (regBase + TMV_ALARM) 8 1) s).reg TMV_ALARM = 4 := by decide +kernel

/-- R51: a watch start counts the watch and its tick begins anew. -/
theorem test_watch_start : (after .watchStart (up.setWatch 7)).watch = 8 := by decide +kernel

/-- R187: BADD wraps modulo 2^64 (2^64 − 1 and 2 make 1). -/
theorem test_badd_wraps :
    (after (.badd 64) (((common64 4 [(2, 2, 9), (8, 8, 2)]).putReg (BUY_VALUE 9) 0xFFFFFFFFFFFFFFFF).putReg (TD_VE_CFG 0) 0)).buoy 9 = 1 := by decide +kernel

/-- R188: a BWAIT whose condition holds (GE 0) completes, and the run stands at the next entry; one that does not hold waits. -/
theorem test_bwait :
    ((Table.get? (after (.bwait 64) (common64 2 [(2, 2, 9), (4, 4, 1000)])).eng.runs 64).map (fun r => (r.pos, r.wait))) = some (64, .none) ∧
    ((Table.get? (after (.bwait 64) (common64 2 [(2, 2, 9), (4, 4, 1000), (8, 8, 1)])).eng.runs 64).map (·.pos)) = some 0 := by decide +kernel

/-- R193, R196: CCOPY from offset 0x100 of its cluster's SRAM to offset 0x200; the stores are the engine's own until they drain, and the entry of 128 bytes is passed. -/
theorem test_ccopy :
    let s := (ce 128 ccopyEntry).setSram (putBytes (ce 128 ccopyEntry).sram 0x100 [1, 2, 3, 4])
    ((Table.get? (after (.ccopy 128) s).eng.runs 128).map (fun r => ((r.pend.map (fun c => (c.1 % 65536, c.2))).take 4, r.pos))) =
      some ([(0x200, 1), (0x201, 2), (0x202, 3), (0x203, 4)], 128) := by decide +kernel

/-- R135: VLOAD of one INT32 element puts it into row 0 of the tile. -/
theorem test_vload :
    ((Table.get? (after (.vload 64) (withBytes (ve {} (vent 64 0x20 0 1 7 31 0 0 0 wordDesc)) 0x20000 [5, 6, 0, 0])).eng.runs 64).map
      (fun r => (r.vx.tiles.map (fun c => (c.1, c.2))).take 2)) = some [(31 * 16384, 5), (31 * 16384 + 1, 6)] := by decide +kernel

/-- R154, and the 24-cycle wait of R164's example: a command that reads a register which the command just before wrote waits 24 cycles,
and by its own end what was written earlier can be read. -/
theorem test_dependency_wait :
    let t := after (.vcntAdd 64) ((ve {} (vent 64 0x28 1 0 0 0 0 0 3 [(8, 4, 1)])).putDeps 64 { late := [(35, 24), (4, 20)] })
    t.reg (TD_VE_WAIT_DEP 0 0) = 24 ∧ t.reg (TD_VE_CYC_BUSY 0 0) = 25 ∧ t.depsOf 64 = { late := [(35, 24)] } := by decide +kernel

/-- R430: the order of an epoch takes every sample once. -/
theorem test_order_is_a_permutation : (List.range 7).all (fun n => ((List.range 7).map (orderPerm 12345 3 7)).contains n) = true := by decide +kernel

/-- The example of R377: with bit 0 of COL_FLIP_SEL set a read goes to the twin and the sequencer's write to the staging side. -/
theorem test_flip_sides :
    let t : TlbEntry := { die := 2, part := 0, va := 0x10A403E00000, size := 2 ^ 21, pa0 := 0xA31C000000, pa1 := 0x1416E000000, sided := 1, set := 0, r := true, w := true
                          a := false, pinned := true }
    let s := (up.setMmu { up.mmu with tlb := [t] }).putReg (COL_FLIP_SEL) 1
    gives (s.translate { engine := 0x1140, part := 0, guaranteed := true, acc := 0 } 0x10A403E54000) (fun pa => decide (pa = 0x1416E054000)) = true ∧
    gives (s.translate { engine := 0x1140, part := 0, guaranteed := true, acc := 1, staging := true } 0x10A403E54000) (fun pa => decide (pa = 0xA31C054000)) = true ∧
    gives (s.translate { engine := 0x1140, part := 0, guaranteed := true, acc := 2 } 0x10A403E54000) (fun _ => true) = false := by decide +kernel

/-- R396: RD_UNIQUE of an UNCACHED line makes the requester its owner in M, RD_SHARED its owner in E; a second reader of a SHARED line shares it. -/
theorem test_coherence :
    (let l := (after (.rdUnique (.hart 3) 0x40 [] 0) up).line 0x40; (l.owner, l.dirty)) = (some (.hart 3), true) ∧
    (let l := (after (.rdShared (.hart 3) 0x40 .clean) up).line 0x40; (l.owner, l.dirty)) = (some (.hart 3), false) ∧
    ((after (.rdShared (.hart 3) 0x40 .clean) (up.putLine 0x40 { sharers := [.hart 4] })).line 0x40).sharers.length = 2 := by decide +kernel

/-- R527: power-up leaves the package powered. -/
theorem test_power_up : (after (.powerUp none) State.reset).boot.powered = true := by decide +kernel

/-- R457, R458: the first flit of a peer is SEQ 0; accepted, E becomes 1. -/
theorem test_flit_accepted : ((after (.flitReceive 0 0 .clean (peerFlit 0 1 [])) (upPort {})).port 0).expect = 1 := by decide +kernel

/-- R521: FAST_LIMIT takes every die to OP9 at most. -/
theorem test_fast_limit :
    let s := (sextant {}).putFld (PWR_TD_STATUS 2) F.PWR_TD_STATUS_OP 12
    (after .fastLimit s).opNow 2 = 9 := by decide +kernel

/-- R562: PING answers its argument, here 5, after OP and status. -/
theorem test_ping : (after (.ping (.sideband (1 + 5 * 65536))) up).boot.sideband = [BitVec.ofNat 64 (1 + 5 * 2 ^ 24)] := by decide +kernel

/-- A run of commands passes in the order in which they stand in the queue. -/
theorem test_queue_is_fifo :
    (match step (up.setPending [.watchStart, .powerDown]) with | .next t => t.pending | _ => []) = [.powerDown] := by decide +kernel

/-! ## Commands that are not well formed -/

/-- A part of the package that does not exist is refused, one check a line; the neighbour that does exist passes. -/
theorem test_wellformed_checks :
    (Instr.wf (.violClear (.hart 96 true)) = false ∧ Instr.wf (.violClear (.hart 95 true)) = true ∧ Instr.wf (.violClear (.pcie 32)) = false ∧
      Instr.wf (.violClear (.remote 4096)) = false ∧ Instr.wf (.violClear .keeper) = true ∧ Instr.wf (.violClear .sideband) = true) ∧
    (Instr.wf (.allocComplete 32) = false ∧ Instr.wf (.allocComplete 31) = true) ∧
    (Instr.wf (.evict (.hart 96) 0) = false ∧ Instr.wf (.evict (.dieCache 18) 0) = false ∧ Instr.wf (.evict (.port 8) 0) = false ∧ Instr.wf (.evict .remote 0) = true) ∧
    (Instr.wf (.xqResetDone (.mailbox 96)) = false ∧ Instr.wf (.xqResetDone (.log 19)) = false ∧ Instr.wf (.xqResetDone (.other 19 0 0 0)) = false) ∧
    (Instr.wf (.registerWrite .keeper 0 8 (2 ^ 64)) = false ∧ Instr.wf (.registerWrite .keeper (2 ^ 57) 8 0) = false ∧ Instr.wf (.registerWrite .keeper 0 8 (2 ^ 64 - 1)) = true) ∧
    (Instr.wf (.vload 65536) = false ∧ Instr.wf (.vload 65535) = true) ∧ (Instr.wf (.ping (.mailbox 32)) = false ∧ Instr.wf (.ping (.sideband (2 ^ 64))) = false) ∧
    (Instr.wf (.flitSlot 4 0) = false ∧ Instr.wf (.flitSlot 3 8) = false ∧ Instr.wf (.flitSlot 3 7) = true) ∧
    (Instr.wf (.rdReq 3 { aMsg with space := 2 }) = false ∧ Instr.wf (.rdReq 4 aMsg) = false ∧ Instr.wf (.rdReq 3 aMsg) = true) ∧
    (Instr.wf (.meCtrClear .keeper 8 0) = false ∧ Instr.wf (.meCtrClear .keeper 7 16) = false ∧ Instr.wf (.ceCtrClear .keeper 7 8) = false ∧
      Instr.wf (.seqCtrClear .keeper 8) = false ∧ Instr.wf (.expCtrClear .keeper 4) = false ∧ Instr.wf (.intCtrClear .keeper 2) = false ∧
      Instr.wf (.mmuCtrClear .keeper 8) = false ∧ Instr.wf (.lnkCtrClear .keeper 4) = false ∧ Instr.wf (.hbmCtrClear .keeper 16) = false) ∧
    (Instr.wf (.flashStackLost 16) = false ∧ Instr.wf (.laserLow 8) = false ∧ Instr.wf (.routeSettle 256) = false ∧ Instr.wf (.subroundOpen 4) = false ∧
      Instr.wf (.tmvLendWrite .keeper 8 0) = false ∧ Instr.wf (.ethQpError 64) = false ∧ Instr.wf (.unitUnavailable 65536) = false ∧
      Instr.wf (.trainingFail 0 0 0) = false ∧ Instr.wf (.trainingFail 0 0 6) = false ∧ Instr.wf (.tmvQuotaWrite .keeper 0 0 0) = false ∧
      Instr.wf (.sampleFinish 0 65536) = false ∧ Instr.wf (.priorityFlowControl 8 0 true) = false ∧ Instr.wf (.opChangeDone 8) = false ∧
      Instr.wf (.doorbellWrite .keeper 0 64 0) = false ∧ Instr.wf (.faultResume .keeper 0 64) = false ∧ Instr.wf (.logEventReceive 19) = false) := by decide +kernel

end Sys2Proof.Tests
end

section
/-! PROOFS. The register commands of the package architecture and what follows from them: the clear commands (R49), the latency probe (R50), the JOIN,
the group's apply, and the transaction trackers (R37). -/
namespace Sys2Proof.PackageArchitecture
open Sys2Proof Sys2Proof.Machine Sys2Proof.Claims

/-! ## Direct rows: register commands whose write settles nothing first -/

/-- The names of the registers whose write settles a setting first (R26, R314, R385, R536, R590). -/
def settlingNames : List String :=
  ["FTS_CFG", "FTS_X_TUNE", "TMV_CFG", "TMV_X_TUNE", "PWR_X_TUNE", "MMU_X_WLK", "MMU_SPILL_CTRL", "COL_BCN_CFG"] ++ delayed

/-- A row that lies in one place, and whose write settles nothing first and masks no bits. -/
def direct (d : RegDesc) : Bool :=
  !d.vis.contains .selector && !d.vis.contains .part && !settlingNames.contains d.name && d.hook != .hMmuFlipStage

/-- A row's register at an offset of a window, with its indices and its key. -/
structure RowHere (d : RegDesc) (w off : Nat) (idx : List Nat) (k : Nat) : Prop where
  found : rowAt w off = some (d, idx)
  window : w < 0x100
  shown : shownOff off = true
  key : k = w * 0x100000 + off
  direct : direct d = true

/-- The lower half of a window, below the snapshot register of R44, is shown through the slots. -/
theorem shownOff_of_lt {off : Nat} (h8 : off % 8 = 0) (hlt : off < 0x3FFF8) : shownOff off = true := by
  simp only [shownOff, Bool.and_eq_true, Bool.or_eq_true, decide_eq_true_eq]
  omega

variable {s : State} {rq : Requester} {x : RegAcc} {h : Hit} {d : RegDesc} {w off k v : Nat} {idx : List Nat} {old : Word}

theorem beforeWrite_eq_self {new : Word} (hn : h.desc.name ∉ settlingNames) : s.beforeWrite h new = s := by
  simp only [settlingNames, List.mem_append, List.mem_cons, List.not_mem_nil, or_false, not_or] at hn
  obtain ⟨⟨h1, h2, h3, h4, h5, h6, h7, h8⟩, h9⟩ := hn
  simp [State.beforeWrite, h1, h2, h3, h4, h5, h6, h7, h8, h9]

/-- A direct row's write that violates nothing: the register takes what its fields' access types leave, and the row's own effect follows. -/
theorem rowWrite_direct (hr : RowHere d w off idx k) (ha : RowAccess s rq k v) :
    ∃ q a, s.rowWrite rq k v =
      (s.putReg k (RegAcc.written ⟨rq, a, 8, true, v⟩ d (s.reg k))).afterWrite ⟨rq, a, 8, true, v⟩ ⟨d, w, idx, k, q⟩ (s.reg k) := by
  obtain ⟨hon, hv⟩ := ha
  have hd := hr.direct
  simp only [direct, Bool.and_eq_true, Bool.not_eq_true', bne_iff_ne] at hd
  obtain ⟨⟨⟨hsel, hpart⟩, hname⟩, hflip⟩ := hd
  obtain ⟨q, a, he⟩ := rowWrite_eq hr.found hr.key hr.window hr.shown hsel hpart hon hv
  refine ⟨q, a, ?_⟩
  rw [he, beforeWrite_eq_self (by simpa using hname), State.newReg, if_neg hflip]

/-- A 64-bit write that asks for a command bit sets it. -/
theorem sets_of_asks {f : Fld} (hx : x.bytes = 8) (ha : asks x.data f) : x.sets f = true := by
  have hb : (fget (BitVec.ofNat 64 x.data) f).testBit 0 = true := by rw [ha]; rfl
  rw [testBit_fget] at hb
  simp only [Bool.and_eq_true, Nat.add_zero] at hb
  have hw : x.word = BitVec.ofNat 64 x.data := by
    simp only [RegAcc.word, RegAcc.mask, hx, if_true]
    exact BitVec.and_allOnes
  rw [RegAcc.sets, hw, BitVec.testBit_toNat]
  exact hb.2

/-- Where no field takes data, a write leaves the register as it is. -/
theorem written_eq_self (hrw : d.bits .rw = 0#64) (hc : d.bits .w1c = 0#64) : x.written d old = old := by
  simp only [RegAcc.written, hrw, hc, BitVec.zero_and, BitVec.and_zero, BitVec.not_zero, BitVec.and_allOnes, BitVec.or_zero]

/-! ## The clear commands (R49) -/

/-- The registers whose bit 0 clears a bank. -/
def clearHooks : List Hook :=
  [.hKprViolClear, .hTdMeCtrClear, .hTdVeCtrClear, .hTdCeCtrClear, .hHbmCtrClear, .hMmuCtrClear, .hUpdSeqCtrClear, .hUpdExpCtrClear,
   .hIntCtrClear, .hLnkCtrClear, .hPwrCtrClear, .hFtsCtrClear]

/-- A row of such a register takes no data of its own. -/
def clearRow (d : RegDesc) : Bool := clearHooks.contains d.hook && d.bits .rw == 0 && d.bits .w1c == 0

theorem afterWrite_clear (hh : h.desc.hook ∈ clearHooks) (hx : x.sets ⟨0, 0⟩ = true) : s.afterWrite x h old = s.clearRegs (clearKeys h) := by
  obtain ⟨⟨name, o, dims, vis, own, hook, fields⟩, hw, hi, hk, hp⟩ := h
  have hx' : x.sets F.KPR_VIOL_CLEAR_CLEAR = true := hx
  simp only [clearHooks, List.mem_cons, List.not_mem_nil, or_false] at hh
  rcases hh with rfl | rfl | rfl | rfl | rfl | rfl | rfl | rfl | rfl | rfl | rfl | rfl <;> simp [State.afterWrite, hx, hx']

theorem asks_one : asks 1 ⟨0, 0⟩ := by decide

/-- A register replaced by its own content, and registers then cleared: only those have changed. -/
theorem onlyRegs_clearRegs {ks : List Nat} : OnlyRegs s ((s.putReg k (s.reg k)).clearRegs ks) ks := by
  refine ⟨fun j hj => ?_, State.clearRegs_frame⟩
  rw [State.reg_clearRegs, if_neg hj, State.reg_putReg]
  split
  next hjk => rw [hjk]
  next => rfl

/-- A write of 1 to a clear register that violates nothing clears the bank it names. -/
theorem rowWrite_clears {c : Instr} {ks : List Nat} (hc : exec c s = .next (s.rowWrite rq k 1)) (hr : RowHere d w off idx k)
    (hd : clearRow d = true) (hks : ∀ q, clearKeys ⟨d, w, idx, k, q⟩ = ks) (ha : RowAccess s rq k 1) : Clears c s ks := by
  simp only [clearRow, Bool.and_eq_true, beq_iff_eq, List.contains_iff_mem] at hd
  obtain ⟨⟨hhook, hrw⟩, hw1c⟩ := hd
  obtain ⟨q, a, he⟩ := rowWrite_direct hr ha
  rw [written_eq_self hrw hw1c, afterWrite_clear hhook (sets_of_asks rfl asks_one), hks q] at he
  refine ⟨_, hc.trans (congrArg _ he), fun j hj => ?_, onlyRegs_clearRegs⟩
  rw [State.reg_clearRegs, if_pos hj]

/-! ### Where the clear registers lie, and what each clears -/

section
variable {n i : Nat}

theorem here_TD_ME_CTR_CLEAR (hn : n < 8) (hi : i < 16) :
    RowHere rowTdMeCtrClear (0x08 + n) (0x10068 + i * 0x100) [i] (TD_ME_CTR_CLEAR n i) :=
  ⟨rowAt_TD_ME_CTR_CLEAR n hn i hi, by omega, shownOff_of_lt (by omega) (by omega), by unfold TD_ME_CTR_CLEAR; omega, by decide +kernel⟩

theorem here_TD_VE_CTR_CLEAR (hn : n < 8) (hi : i < 16) :
    RowHere rowTdVeCtrClear (0x08 + n) (0x20068 + i * 0x100) [i] (TD_VE_CTR_CLEAR n i) :=
  ⟨rowAt_TD_VE_CTR_CLEAR n hn i hi, by omega, shownOff_of_lt (by omega) (by omega), by unfold TD_VE_CTR_CLEAR; omega, by decide +kernel⟩

theorem here_TD_CE_CTR_CLEAR (hn : n < 8) (hi : i < 8) :
    RowHere rowTdCeCtrClear (0x08 + n) (0x30040 + i * 0x100) [i] (TD_CE_CTR_CLEAR n i) :=
  ⟨rowAt_TD_CE_CTR_CLEAR n hn i hi, by omega, shownOff_of_lt (by omega) (by omega), by unfold TD_CE_CTR_CLEAR; omega, by decide +kernel⟩

theorem here_UPD_SEQ_CTR_CLEAR (hi : i < 8) : RowHere rowUpdSeqCtrClear 0x39 (0x10020 + i * 0x100) [i] (UPD_SEQ_CTR_CLEAR i) :=
  ⟨rowAt_UPD_SEQ_CTR_CLEAR i hi, by omega, shownOff_of_lt (by omega) (by omega), by unfold UPD_SEQ_CTR_CLEAR; omega, by decide +kernel⟩

theorem here_UPD_EXP_CTR_CLEAR (hi : i < 4) : RowHere rowUpdExpCtrClear 0x39 (0x20020 + i * 0x100) [i] (UPD_EXP_CTR_CLEAR i) :=
  ⟨rowAt_UPD_EXP_CTR_CLEAR i hi, by omega, shownOff_of_lt (by omega) (by omega), by unfold UPD_EXP_CTR_CLEAR; omega, by decide +kernel⟩

theorem here_MMU_CTR_CLEAR (hi : i < 8) : RowHere rowMmuCtrClear 0x20 (0x10020 + i * 0x100) [i] (MMU_CTR_CLEAR i) :=
  ⟨rowAt_MMU_CTR_CLEAR i hi, by omega, shownOff_of_lt (by omega) (by omega), by unfold MMU_CTR_CLEAR; omega, by decide +kernel⟩

theorem here_HBM_CTR_CLEAR (hn : n < 16) : RowHere rowHbmCtrClear (0x10 + n) 0x1030 [] (HBM_CTR_CLEAR n) :=
  ⟨rowAt_HBM_CTR_CLEAR n hn, by omega, by decide, by unfold HBM_CTR_CLEAR; omega, by decide +kernel⟩

theorem here_INT_CTR_CLEAR (hn : n < 2) : RowHere rowIntCtrClear (0x40 + n) 0x20030 [] (INT_CTR_CLEAR n) :=
  ⟨rowAt_INT_CTR_CLEAR n hn, by omega, by decide, by unfold INT_CTR_CLEAR; omega, by decide +kernel⟩

theorem here_LNK_CTR_CLEAR (hn : n < 4) : RowHere rowLnkCtrClear (0x30 + n) 0x10040 [] (LNK_CTR_CLEAR n) :=
  ⟨rowAt_LNK_CTR_CLEAR n hn, by omega, by decide, by unfold LNK_CTR_CLEAR; omega, by decide +kernel⟩

theorem here_PWR_CTR_CLEAR : RowHere rowPwrCtrClear 0x03 0x2038 [] PWR_CTR_CLEAR :=
  ⟨rowAt_PWR_CTR_CLEAR, by decide, by decide, by decide, by decide +kernel⟩

theorem here_FTS_CTR_CLEAR : RowHere rowFtsCtrClear 0x05 0x1018 [] FTS_CTR_CLEAR :=
  ⟨rowAt_FTS_CTR_CLEAR, by decide, by decide, by decide, by decide +kernel⟩

theorem here_KPR_VIOL_CLEAR : RowHere rowKprViolClear 0x00 0x2048 [] KPR_VIOL_CLEAR :=
  ⟨rowAt_KPR_VIOL_CLEAR, by decide, by decide, by decide, by decide +kernel⟩

end

theorem bank_me : ∀ n < 8, ∀ i < 16, bank (TD_ME_CTR_CLEAR n i - 0x68) (eights 0x08 0x60 ++ [0x70]) = meBank n i := by decide +kernel

theorem bank_ve : ∀ n < 8, ∀ i < 16, bank (TD_VE_CTR_CLEAR n i - 0x68) (eights 0x08 0x60) = veBank n i := by decide +kernel

theorem bank_ce : ∀ n < 8, ∀ i < 8, bank (TD_CE_CTR_CLEAR n i - 0x40) (eights 0x08 0x38) = ceBank n i := by decide +kernel

theorem bank_seq : ∀ i < 8, bank (UPD_SEQ_CTR_CLEAR i - 0x20) [0x08, 0x10, 0x18] = [UPD_SEQ_ERR_LAST i, UPD_SEQ_ITEMS i, UPD_SEQ_NONFINITE i] := by
  decide +kernel

theorem bank_exp : ∀ i < 4, bank (UPD_EXP_CTR_CLEAR i - 0x20) [0x08, 0x10, 0x18] = [UPD_EXP_ERR_LAST i, UPD_EXP_BYTES i, UPD_EXP_TORN i] := by
  decide +kernel

theorem bank_hbm : ∀ n < 16, bank (HBM_CTR_CLEAR n - 0x1030) (0x10 :: eights 0x1000 0x1028) =
    [HBM_ERR_LAST n, HBM_RD_BYTES n, HBM_WR_BYTES n, HBM_LC_BYTES n, HBM_NARROW n, HBM_CE n, HBM_UE n] := by decide +kernel

theorem bank_mmu : ∀ i < 8, bank (MMU_CTR_CLEAR i - 0x20) [0x08, 0x10, 0x18] = [MMU_WALKS i, MMU_TLB_MISSES i, MMU_WALK_MAX i] := by
  decide +kernel

theorem bank_int : ∀ n < 2, bank (INT_CTR_CLEAR n - 0x30) (eights 0x00 0x28) =
    [INT_ERR_LAST n, INT_BAD_LAST n, INT_SAMPLES n, INT_BAD n, INT_STEERED n, INT_BYTES_IN n] := by decide +kernel

theorem bank_lnk : ∀ n < 4, bank (LNK_CTR_CLEAR n - 0x10040) ([0x10028, 0x10030, 0x10038] ++
    ((List.range 8).map (fun i => bank (0x100 * i) (eights 0x10 0x30))).flatten) = lnkBank n := by decide +kernel

theorem bank_pwr : bank (PWR_CTR_CLEAR - 0x2038) ([0x2018, 0x2020, 0x2028, 0x2030] ++
    ((List.range 8).map (fun i => bank (0x40 * i) [0x108, 0x110])).flatten) = pwrBank := by decide +kernel

theorem violKeys_eq : violKeys = [KPR_VIOLATIONS, KPR_VIOL_SIZE, KPR_VIOL_ALIGN, KPR_VIOL_UNMAPPED, KPR_VIOL_EXPERT, KPR_VIOL_ALIAS,
    KPR_VIOL_WINDOW, KPR_VIOL_PHYS, KPR_VIOL_LAST] ++ (List.range 32).map KPR_PART_VIOLATIONS := by decide +kernel

/-- Settles O1: each clear register lies in one place, takes no data itself, and its write of 1 clears the bank that its row names. -/
theorem clearCommandsClearTheirBank : Obligations.ClearCommandsClearTheirBank := by
  intro s rq d n i
  refine ⟨?me, ?ve, ?ce, ?seq, ?exp, ?hbm, ?mmu, ?int, ?lnk, ?pwr, ?fts, ?viol⟩
  case me => exact fun hd hi => rowWrite_clears rfl (here_TD_ME_CTR_CLEAR hd hi) (by decide +kernel) (fun _ => bank_me d hd i hi)
  case ve => exact fun hd hi => rowWrite_clears rfl (here_TD_VE_CTR_CLEAR hd hi) (by decide +kernel) (fun _ => bank_ve d hd i hi)
  case ce => exact fun hd hi => rowWrite_clears rfl (here_TD_CE_CTR_CLEAR hd hi) (by decide +kernel) (fun _ => bank_ce d hd i hi)
  case seq => exact fun hn => rowWrite_clears rfl (here_UPD_SEQ_CTR_CLEAR hn) (by decide +kernel) (fun _ => bank_seq n hn)
  case exp => exact fun hn => rowWrite_clears rfl (here_UPD_EXP_CTR_CLEAR hn) (by decide +kernel) (fun _ => bank_exp n hn)
  case hbm => exact fun hn => rowWrite_clears rfl (here_HBM_CTR_CLEAR hn) (by decide +kernel) (fun _ => bank_hbm n hn)
  case mmu => exact fun hn => rowWrite_clears rfl (here_MMU_CTR_CLEAR hn) (by decide +kernel) (fun _ => bank_mmu n hn)
  case int => exact fun hn => rowWrite_clears rfl (here_INT_CTR_CLEAR hn) (by decide +kernel) (fun _ => bank_int n hn)
  case lnk => exact fun hn => rowWrite_clears rfl (here_LNK_CTR_CLEAR hn) (by decide +kernel) (fun _ => bank_lnk n hn)
  case pwr => exact rowWrite_clears rfl here_PWR_CTR_CLEAR (by decide +kernel) (fun _ => bank_pwr)
  case fts => exact rowWrite_clears rfl here_FTS_CTR_CLEAR (by decide +kernel) (fun _ => rfl)
  case viol => exact rowWrite_clears rfl here_KPR_VIOL_CLEAR (by decide +kernel) (fun _ => violKeys_eq)

/-! ## Command registers with an effect of their own -/

/-- A field whose bits a write replaces by its data. -/
abbrev TakesData (d : RegDesc) (f : Fld) : Prop :=
  f.hi < 64 ∧ ∀ i < 64, f.lo ≤ i → i ≤ f.hi → (d.bits .rw).getLsbD i = true ∧ (d.bits .w1c).getLsbD i = false

/-- A write that asks for a row's command: the register's fields take the data, and the command's effect follows. -/
theorem rowWrite_command {effect : State → State} {f : Fld} (hr : RowHere d w off idx k) (ha : RowAccess s rq k v) (hv : asks v f)
    (heff : ∀ t x p, x.sets f = true → State.afterWrite t x ⟨d, w, idx, k, p⟩ (s.reg k) = effect t) :
    ∃ new, (∀ g, TakesData d g → fget new g = fget (BitVec.ofNat 64 v) g) ∧ s.rowWrite rq k v = effect (s.putReg k new) := by
  obtain ⟨q, a, he⟩ := rowWrite_direct hr ha
  exact ⟨_, fun g hg => fget_written hg.1 rfl (fun i h1 h2 => hg.2 i (Nat.lt_of_le_of_lt h2 hg.1) h1 h2),
    he.trans (heff _ _ q (sets_of_asks rfl hv))⟩

section
variable {t : State} {ks : List Nat} {new : Word}

theorem keepRegs_refl : KeepRegs s s ks := fun _ _ => rfl

theorem keepRegs_putReg (h : KeepRegs s t ks) (hk : k ∈ ks) : KeepRegs s (t.putReg k new) ks := fun j hj => by
  rw [State.reg_putReg_other (by rintro rfl; exact hj hk), h j hj]

theorem onlyRegs_refl : OnlyRegs s s ks := ⟨keepRegs_refl, rfl⟩

theorem keepRegs_trans {u : State} (h : KeepRegs s t ks) (g : KeepRegs t u ks) : KeepRegs s u ks := fun j hj => (g j hj).trans (h j hj)

theorem onlyRegs_putReg (h : OnlyRegs s t ks) (hk : k ∈ ks) : OnlyRegs s (t.putReg k new) ks :=
  ⟨keepRegs_putReg h.1 hk, by have ht := h.2; exact (congrArg (State.putReg · k new) ht).trans rfl⟩

theorem onlyRegs_trans {u : State} (h : OnlyRegs s t ks) (g : OnlyRegs t u ks) : OnlyRegs s u ks :=
  ⟨keepRegs_trans h.1 g.1, by have h1 := h.2; have h2 := g.2; rw [h1] at h2; exact h2⟩

/-- A field of a register just replaced. -/
theorem fld_putReg_same {f : Fld} : (s.putReg k new).fld k f = fget new f := by
  rw [State.fld, State.reg_putReg_same]

/-- A field of any other register. -/
theorem fld_putReg_other {j : Nat} {f : Fld} (hj : j ≠ k) : (s.putReg k new).fld j f = s.fld j f := by
  rw [State.fld, State.reg_putReg_other hj, State.fld]

theorem addr_putReg_other {j : Nat} {lo hi : Fld} (hj : j ≠ k) : (s.putReg k new).addr j lo hi = s.addr j lo hi := by
  rw [State.addr, fld_putReg_other hj, fld_putReg_other hj, State.addr]

end

/-! ### The latency probe (R50) -/

theorem here_KPR_PROBE_CTRL : RowHere rowKprProbeCtrl 0x00 0x2100 [] KPR_PROBE_CTRL :=
  ⟨rowAt_KPR_PROBE_CTRL, by decide, by decide, by decide, by decide +kernel⟩

theorem probeGo_running (hp : s.probe.isSome = true) : s.probeGo = s := if_pos hp

theorem probeGo_idle (hp : s.probe = none) : s.probeGo =
    ((s.setProbe (some (s.fld KPR_PROBE_CTRL F.KPR_PROBE_CTRL_SRC_DIE, s.fld KPR_PROBE_CTRL F.KPR_PROBE_CTRL_COUNT,
      s.addr KPR_PROBE_ADDR F.KPR_PROBE_ADDR_ADDR_LO F.KPR_PROBE_ADDR_ADDR_HI))).putReg KPR_PROBE_RESULT 0).setBit
      KPR_PROBE_CTRL F.KPR_PROBE_CTRL_START := if_neg (by simp [hp])

/-- A probe that begins has captured its source, count and address, and its result is clear. -/
theorem probeGo_begins (hp : s.probe = none) :
    s.probeGo.probe = some (s.fld KPR_PROBE_CTRL F.KPR_PROBE_CTRL_SRC_DIE, s.fld KPR_PROBE_CTRL F.KPR_PROBE_CTRL_COUNT,
      s.addr KPR_PROBE_ADDR F.KPR_PROBE_ADDR_ADDR_LO F.KPR_PROBE_ADDR_ADDR_HI) ∧
    s.probeGo.reg KPR_PROBE_RESULT = 0 ∧ s.probeGo.flag KPR_PROBE_CTRL F.KPR_PROBE_CTRL_START = true ∧
    KeepRegs s s.probeGo [KPR_PROBE_CTRL, KPR_PROBE_RESULT] := by
  rw [probeGo_idle hp]
  refine ⟨rfl, ?_, State.flag_setBit (by decide) (by decide), ?_⟩
  · exact (State.reg_putFld_other (by decide)).trans State.reg_putReg_same
  · exact keepRegs_putReg (keepRegs_putReg (t := s.setProbe _) keepRegs_refl (by simp)) (by simp)

/-- PROBE_START puts the written fields into KPR_PROBE_CTRL and begins a probe. -/
theorem exec_probeStart (ha : RowAccess s rq KPR_PROBE_CTRL v) (hv : asks v F.KPR_PROBE_CTRL_START) :
    ∃ new, fget new F.KPR_PROBE_CTRL_SRC_DIE = fget (BitVec.ofNat 64 v) F.KPR_PROBE_CTRL_SRC_DIE ∧
      fget new F.KPR_PROBE_CTRL_COUNT = fget (BitVec.ofNat 64 v) F.KPR_PROBE_CTRL_COUNT ∧
      exec (.probeStart rq v) s = .next (s.putReg KPR_PROBE_CTRL new).probeGo := by
  obtain ⟨new, hnew, he⟩ := rowWrite_command (effect := State.probeGo) here_KPR_PROBE_CTRL ha hv (fun _ _ _ hx => if_pos hx)
  exact ⟨new, hnew _ (by decide +kernel), hnew _ (by decide +kernel), congrArg _ he⟩

/-! ### The JOIN (R54, R57) -/

theorem here_WCH_TB_CTRL : RowHere rowWchTbCtrl 0x02 0x10 [] WCH_TB_CTRL :=
  ⟨rowAt_WCH_TB_CTRL, by decide, by decide, by decide, by decide +kernel⟩

/-- JOIN puts the written role into WCH_TB_CTRL and joins as it. -/
theorem exec_join (ha : RowAccess s rq WCH_TB_CTRL v) (hv : asks v F.WCH_TB_CTRL_JOIN) :
    ∃ new, exec (.join rq v) s =
      .next ((s.putReg WCH_TB_CTRL new).joinAs (fget (BitVec.ofNat 64 v) F.WCH_TB_CTRL_ROLE)) := by
  obtain ⟨new, hnew, he⟩ := rowWrite_command (effect := fun t => t.joinAs (t.fld WCH_TB_CTRL F.WCH_TB_CTRL_ROLE)) here_WCH_TB_CTRL ha hv
    (fun _ _ _ hx => if_pos hx)
  refine ⟨new, congrArg _ (he.trans ?_)⟩
  rw [fld_putReg_same, hnew _ (by decide +kernel)]

theorem joinAs_held {role : Nat} (hp : s.guaranteedHeld = true) : s.joinAs role = s.alarmWch F.WCH_ALARM_JOIN_REFUSED := if_pos hp

/-- An accepted JOIN shows its role; FREE, ACQUIRING and LOCKED are the states 0 to 2 of the roles 0 to 2, and only a follower awaits a step. -/
theorem joinAs_accepted {role : Nat} (hp : s.guaranteedHeld = false) (hr : role < 3) :
    ∃ x : Timebase, x.stepPending = decide (role = 1) ∧
      s.joinAs role = ((s.putFld WCH_TB_STATUS F.WCH_TB_STATUS_ROLE role).setTb x).tbEnter role := by
  have hif : s.joinAs role = _ := if_neg (by simp [hp])
  obtain rfl | rfl | rfl : role = 0 ∨ role = 1 ∨ role = 2 := by omega
  all_goals exact ⟨_, rfl, hif⟩

/-- An alarm of the watch engine is a report: beside its own register it changes only the Logbook. -/
theorem alarmWch_logged {f : Fld} : Logged [WCH_ALARM] s (s.alarmWch f) := Logged.refl.raise (List.mem_singleton_self _)

/-- A JOIN leaves memory, the engines and the plans alone, whatever its role. -/
theorem joinAs_frame {role : Nat} : (s.joinAs role).mem = s.mem ∧ (s.joinAs role).eng = s.eng ∧ (s.joinAs role).adm = s.adm := by
  cases hp : s.guaranteedHeld with
  | true =>
    have hr := (alarmWch_logged (s := s) (f := F.WCH_ALARM_JOIN_REFUSED)).rest
    rw [joinAs_held hp, hr]
    exact ⟨rfl, rfl, rfl⟩
  | false =>
    simp only [State.joinAs, hp, Bool.false_eq_true, if_false]
    generalize (if role = 3 then 0 else role) = r
    split
    · exact ⟨rfl, rfl, rfl⟩
    · split <;> exact ⟨rfl, rfl, rfl⟩

/-- A refused JOIN raises its alarm; the timebase keeps its role, its state and its counts. -/
theorem joinAs_refused {role : Nat} (hp : s.guaranteedHeld = true) :
    (s.joinAs role).flag WCH_ALARM F.WCH_ALARM_JOIN_REFUSED = true ∧ (s.joinAs role).reg WCH_TB_STATUS = s.reg WCH_TB_STATUS ∧
      (s.joinAs role).tb = s.tb := by
  have hl := alarmWch_logged (s := s) (f := F.WCH_ALARM_JOIN_REFUSED)
  rw [joinAs_held hp]
  refine ⟨State.flag_raise (by decide) (by decide) (by decide), hl.regs _ (by decide) (by decide), ?_⟩
  rw [hl.rest]
  rfl

/-- What the timebase shows after an accepted JOIN. -/
theorem joinAs_shows {role : Nat} (hp : s.guaranteedHeld = false) (hr : role < 3) :
    (s.joinAs role).tbRole = role ∧ (s.joinAs role).tbState = role ∧ (s.joinAs role).tb.stepPending = decide (role = 1) := by
  obtain ⟨x, hx, he⟩ := joinAs_accepted hp hr
  rw [he]
  refine ⟨?_, ?_, hx⟩
  · rw [State.tbRole, State.tbEnter, State.fld_putFld_other (by decide) (by decide)]
    exact (State.fld_putFld_same (by decide)).trans (Nat.mod_eq_of_lt (show role < 4 by omega))
  · rw [State.tbState, State.tbEnter, State.fld_putFld_same (by decide)]
    exact Nat.mod_eq_of_lt (show role < 8 by omega)

/-! ### The group's apply (R220) -/

theorem here_COL_GRP_APPLY {g : Nat} (hg : g < 4) : RowHere rowColGrpApply 0x38 (0x8 + g * 0x1000) [g] (COL_GRP_APPLY g) :=
  ⟨rowAt_COL_GRP_APPLY g hg, by omega, shownOff_of_lt (by omega) (by omega), by unfold COL_GRP_APPLY; omega, by decide +kernel⟩

/-- The watch that COL_GRP_APPLY names. -/
def applyWatch (w : Word) : Nat := fget w F.COL_GRP_APPLY_WATCH_LO + fget w F.COL_GRP_APPLY_WATCH_HI * 2 ^ 32

/-- GROUP_APPLY_GO puts the written watch into COL_GRP_APPLY and asks for the apply. -/
theorem exec_groupApplyGo {g : Nat} (hg : g < 4) (ha : RowAccess s rq (COL_GRP_APPLY g) v) (hv : asks v F.COL_GRP_APPLY_GO) :
    ∃ new, applyWatch new = applyWatch (BitVec.ofNat 64 v) ∧
      exec (.groupApplyGo rq g v) s = .next ((s.putReg (COL_GRP_APPLY g) new).groupApply g) := by
  obtain ⟨new, hnew, he⟩ := rowWrite_command (effect := fun t => t.groupApply g) (here_COL_GRP_APPLY hg) ha hv (fun _ _ _ hx => if_pos hx)
  refine ⟨new, ?_, congrArg _ he⟩
  rw [applyWatch, hnew _ (by decide +kernel), hnew _ (by decide +kernel), applyWatch]

theorem groupApply_refused {g : Nat} (hw : applyWatch (s.reg (COL_GRP_APPLY g)) ≤ s.watch) : s.groupApply g =
    (s.setBit (COL_GRP_STATUS g) F.COL_GRP_STATUS_APPLY_REFUSED).putFld (COL_GRP_APPLY g) F.COL_GRP_APPLY_GO
      (s.group g).pending.isSome.toNat := if_pos hw

theorem groupApply_captured {g : Nat} (hw : s.watch < applyWatch (s.reg (COL_GRP_APPLY g))) : s.groupApply g =
    ((s.putGroup g { s.group g with pending := some (applyWatch (s.reg (COL_GRP_APPLY g)), s.groupPending g) }).setBit (COL_GRP_APPLY g)
      F.COL_GRP_APPLY_GO).showGroup g := if_neg (Nat.not_le.mpr hw)

/-- The pending values of a group do not depend on its apply register. -/
theorem groupPending_putReg_apply {g : Nat} {new : Word} : (s.putReg (COL_GRP_APPLY g) new).groupPending g = s.groupPending g := by
  have hc : COL_GRP_CFG g ≠ COL_GRP_APPLY g := by unfold COL_GRP_CFG COL_GRP_APPLY; omega
  have hx : ∀ i, COL_GRP_EXCL g i ≠ COL_GRP_APPLY g := fun i => by unfold COL_GRP_EXCL COL_GRP_APPLY; omega
  simp only [State.groupPending, fld_putReg_other hc, State.reg_putReg_other (hx _)]

theorem watch_putReg {new : Word} (hk : k ≠ WCH_COUNT) : (s.putReg k new).watch = s.watch := by
  simp only [State.watch, fld_putReg_other hk.symm]

@[simp] theorem group_putGroup_same {g : Nat} {y : Group} : (s.putGroup g y).group g = y := by
  simp [State.group, State.putGroup]

/-- Showing a group's values changes its status register only. -/
theorem keepRegs_showGroup {g : Nat} {ks : List Nat} (hk : COL_GRP_STATUS g ∈ ks) : KeepRegs s (s.showGroup g) ks :=
  keepRegs_putReg (keepRegs_putReg (keepRegs_putReg keepRegs_refl hk) hk) hk

/-- A refused apply says so in the group's status. -/
theorem groupApply_refused_shows {g : Nat} (hw : applyWatch (s.reg (COL_GRP_APPLY g)) ≤ s.watch) :
    (s.groupApply g).flag (COL_GRP_STATUS g) F.COL_GRP_STATUS_APPLY_REFUSED = true ∧
      OnlyRegs s (s.groupApply g) [COL_GRP_APPLY g, COL_GRP_STATUS g] := by
  have hne : COL_GRP_STATUS g ≠ COL_GRP_APPLY g := by unfold COL_GRP_STATUS COL_GRP_APPLY; omega
  rw [groupApply_refused hw]
  refine ⟨?_, onlyRegs_putReg (onlyRegs_putReg onlyRegs_refl (by simp)) (by simp)⟩
  rw [State.flag, State.fld_putFld_other (by decide) (.inl hne)]
  exact State.flag_setBit (by decide) (by decide)

/-- An apply that is taken waits with the pending values; the values in effect stay. -/
theorem groupApply_captured_shows {g : Nat} (hw : s.watch < applyWatch (s.reg (COL_GRP_APPLY g))) :
    ((s.groupApply g).group g).pending = some (applyWatch (s.reg (COL_GRP_APPLY g)), s.groupPending g) ∧
      ((s.groupApply g).group g).now = (s.group g).now ∧ (s.groupApply g).flag (COL_GRP_APPLY g) F.COL_GRP_APPLY_GO = true ∧
      KeepRegs s (s.groupApply g) [COL_GRP_APPLY g, COL_GRP_STATUS g] := by
  have hne : COL_GRP_APPLY g ≠ COL_GRP_STATUS g := by unfold COL_GRP_STATUS COL_GRP_APPLY; omega
  have hgroup : (s.groupApply g).group g =
      { s.group g with pending := some (applyWatch (s.reg (COL_GRP_APPLY g)), s.groupPending g) } := by
    rw [groupApply_captured hw]
    exact group_putGroup_same
  refine ⟨congrArg Group.pending hgroup, by rw [hgroup], ?_⟩
  rw [groupApply_captured hw]
  constructor
  · rw [State.flag, State.fld, keepRegs_showGroup (ks := [COL_GRP_STATUS g]) (by simp) _ (by simp [hne])]
    exact State.flag_setBit (by decide) (by decide)
  · exact keepRegs_trans (keepRegs_putReg (t := s.putGroup g _) keepRegs_refl (by simp)) (keepRegs_showGroup (by simp))

/-- Settles O7: each write is a row command, and what follows is the probe's start, the JOIN, or the group's apply. -/
theorem probeJoinAndGroupApply : Obligations.ProbeJoinAndGroupApply := by
  intro s rq v
  refine ⟨?probe, ?join, ?group⟩
  case probe =>
    intro ha hv
    obtain ⟨new, hdie, hcount, he⟩ := exec_probeStart ha hv
    refine ⟨_, he, fun hp => ?_, fun hp => ?_⟩
    · obtain ⟨hprobe, hres, hstart, hkeep⟩ := probeGo_begins (s := s.putReg KPR_PROBE_CTRL new) hp
      refine ⟨?_, hres, hstart, keepRegs_trans (keepRegs_putReg keepRegs_refl (by simp)) hkeep⟩
      rw [hprobe, fld_putReg_same, fld_putReg_same, hdie, hcount, addr_putReg_other (by decide)]
    · rw [probeGo_running (s := s.putReg KPR_PROBE_CTRL new) hp]
      exact onlyRegs_putReg onlyRegs_refl (List.mem_singleton_self _)
  case join =>
    intro ha hv
    obtain ⟨new, he⟩ := exec_join ha hv
    have hreg : (s.putReg WCH_TB_CTRL new).reg WCH_TB_STATUS = s.reg WCH_TB_STATUS := State.reg_putReg_other (by decide)
    obtain ⟨hmem, heng, hadm⟩ := joinAs_frame (s := s.putReg WCH_TB_CTRL new) (role := fget (BitVec.ofNat 64 v) F.WCH_TB_CTRL_ROLE)
    refine ⟨_, he, hmem, heng, hadm, fun hp => ?_, fun hp hrole => ?_, fun hp hrole => ?_, fun hp hrole => ?_⟩
    · obtain ⟨halarm, hst, htb⟩ := joinAs_refused (s := s.putReg WCH_TB_CTRL new) hp
      have hst' := hst.trans hreg
      exact ⟨halarm, congrArg (fget · _) hst', congrArg (fget · _) hst', htb⟩
    all_goals rw [hrole]; exact joinAs_shows (s := s.putReg WCH_TB_CTRL new) hp (by decide)
  case group =>
    intro g w hg ha hv hw
    obtain ⟨new, hnew, he⟩ := exec_groupApplyGo hg ha hv
    have hwatch : (s.putReg (COL_GRP_APPLY g) new).watch = s.watch := watch_putReg (by unfold COL_GRP_APPLY WCH_COUNT; omega)
    have hnamed : applyWatch ((s.putReg (COL_GRP_APPLY g) new).reg (COL_GRP_APPLY g)) = w := by
      rw [State.reg_putReg_same, hnew, hw, applyWatch]
    refine ⟨_, he, fun hlt => ?_, fun hle => ?_⟩
    · obtain ⟨hpend, hnow, hgo, hkeep⟩ := groupApply_captured_shows (s := s.putReg (COL_GRP_APPLY g) new) (g := g) (by rwa [hnamed, hwatch])
      rw [hnamed, groupPending_putReg_apply] at hpend
      exact ⟨hpend, hnow, hgo, keepRegs_trans (keepRegs_putReg keepRegs_refl (by simp)) hkeep⟩
    · obtain ⟨hflag, honly⟩ := groupApply_refused_shows (s := s.putReg (COL_GRP_APPLY g) new) (g := g) (by rwa [hnamed, hwatch])
      exact ⟨hflag, onlyRegs_trans (onlyRegs_putReg onlyRegs_refl (by simp)) honly⟩

/-! ## PROBE_DONE (R50) -/

theorem hbmStack_lt (pa : Nat) : hbmStack pa < 16 := by
  have hx : ∀ (l : List Nat) (x n : Nat), x < 2 ^ 4 → l.foldl (fun x i => x ^^^ bits n (4 * i + 3) (4 * i)) x < 2 ^ 4 := by
    intro l
    induction l with
    | nil => exact fun _ _ h => h
    | cons i l ih =>
      intro x n h
      refine ih _ n (Nat.xor_lt_two_pow h ?_)
      rw [bits, show 4 * i + 3 + 1 - 4 * i = 4 by omega]
      exact Nat.mod_lt _ (by decide)
  exact hx _ 0 _ (by decide)

/-- The result of a probe that found its times. -/
def probeResult (lo hi mean stack : Nat) : Word :=
  fset (fset (fset (fset (fset 0 F.KPR_PROBE_RESULT_MIN_NS lo) F.KPR_PROBE_RESULT_MAX_NS hi) F.KPR_PROBE_RESULT_MEAN_NS mean)
    F.KPR_PROBE_RESULT_STACK stack) F.KPR_PROBE_RESULT_DONE 1

/-- The result of a probe that could not run. -/
def probeError : Word := fset (fset 0 F.KPR_PROBE_RESULT_ERROR 1) F.KPR_PROBE_RESULT_DONE 1

theorem exec_probeDone_error {lo hi mean die n pa : Nat} (hp : s.probe = some (die, n, pa)) (hbad : 9 < die ∨ n = 0 ∨ hbmBytes ≤ pa) :
    exec (.probeDone lo hi mean) s =
      .next (((s.setProbe none).clrBit KPR_PROBE_CTRL F.KPR_PROBE_CTRL_START).putReg KPR_PROBE_RESULT probeError) := by
  show execProbeDone lo hi mean s = _
  rw [execProbeDone, hp]
  exact if_pos hbad

theorem exec_probeDone_times {lo hi mean die n pa : Nat} (hp : s.probe = some (die, n, pa)) (hok : ¬ (9 < die ∨ n = 0 ∨ hbmBytes ≤ pa)) :
    exec (.probeDone lo hi mean) s =
      .next ((((s.setProbe none).clrBit KPR_PROBE_CTRL F.KPR_PROBE_CTRL_START).count (HBM_RD_BYTES (hbmStack pa)) (64 * n)).putReg
        KPR_PROBE_RESULT (probeResult lo hi mean (hbmStack pa))) := by
  show execProbeDone lo hi mean s = _
  rw [execProbeDone, hp]
  exact if_neg hok

theorem fget_probeResult {lo hi mean stack : Nat} (hlo : lo < 65536) (hhi : hi < 65536) (hmean : mean < 65536) (hst : stack < 16) :
    fget (probeResult lo hi mean stack) F.KPR_PROBE_RESULT_MIN_NS = lo ∧ fget (probeResult lo hi mean stack) F.KPR_PROBE_RESULT_MAX_NS = hi ∧
    fget (probeResult lo hi mean stack) F.KPR_PROBE_RESULT_MEAN_NS = mean ∧ fget (probeResult lo hi mean stack) F.KPR_PROBE_RESULT_STACK = stack ∧
    fget (probeResult lo hi mean stack) F.KPR_PROBE_RESULT_ERROR = 0 := by
  unfold probeResult
  simp (disch := decide) only [fget_fset_other, fget_fset_same]
  exact ⟨Nat.mod_eq_of_lt hlo, Nat.mod_eq_of_lt hhi, Nat.mod_eq_of_lt hmean, Nat.mod_eq_of_lt hst, by decide⟩

theorem fget_probeResult_done {lo hi mean stack : Nat} : fget (probeResult lo hi mean stack) F.KPR_PROBE_RESULT_DONE = 1 :=
  fget_fset_same (by decide)

/-- A probe that ends with a result: START is clear, and the probe and its result are as the result says. -/
theorem probe_ended {t : State} {w : Word} (ht : t.flag KPR_PROBE_CTRL F.KPR_PROBE_CTRL_START = false) (hw : fget w F.KPR_PROBE_RESULT_DONE = 1) :
    (t.putReg KPR_PROBE_RESULT w).flag KPR_PROBE_CTRL F.KPR_PROBE_CTRL_START = false ∧
      (t.putReg KPR_PROBE_RESULT w).flag KPR_PROBE_RESULT F.KPR_PROBE_RESULT_DONE = true := by
  constructor
  · rwa [State.flag, fld_putReg_other (by decide)]
  · rw [State.flag, fld_putReg_same, hw]
    rfl

/-- A stack's counter of bytes read is no register of the probe. -/
theorem hbmReadBytes_ne (n : Nat) : HBM_RD_BYTES n ≠ KPR_PROBE_CTRL ∧ HBM_RD_BYTES n ≠ KPR_PROBE_RESULT := by
  unfold HBM_RD_BYTES KPR_PROBE_CTRL KPR_PROBE_RESULT
  omega

/-! ## TRACKER_ENTRY_FREE (R37) -/

/-- The engines that wait, after the first of them is let go. -/
def freeTracker (s : State) (die : Nat) (rest : List Nat) : State :=
  s.setTracker (if rest.isEmpty then Table.del s.tracker die else Table.put s.tracker die rest)

theorem trackerWaits_freeTracker_same {die : Nat} {rest : List Nat} : (freeTracker s die rest).trackerWaits die = rest := by
  cases rest <;> simp [freeTracker, State.trackerWaits]

theorem trackerWaits_freeTracker_other {die j : Nat} {rest : List Nat} (hj : j ≠ die) :
    (freeTracker s die rest).trackerWaits j = s.trackerWaits j := by
  cases rest
  · simp [freeTracker, State.trackerWaits, Table.get?_del_other hj]
  · simp [freeTracker, State.trackerWaits, Table.get?_put_other hj]

/-- TRACKER_ENTRY_FREE lets the first waiting engine go; beside that it may count a matrix engine's frozen cycles. -/
theorem exec_trackerEntryFree {die e : Nat} {rest : List Nat} (hw : s.trackerWaits die = e :: rest) (hf : s.trackerFull die = false) :
    ∃ regs free, exec (.trackerEntryFree die) s = .next (((freeTracker s die rest).setRegs regs).setFree free) := by
  have he : exec (.trackerEntryFree die) s = execTrackerEntryFree die s := rfl
  rw [he, execTrackerEntryFree, hw]
  simp only [hf, Bool.false_eq_true, if_false]
  split
  · exact ⟨_, _, rfl⟩
  · exact ⟨s.regs, s.free, rfl⟩

/-- Settles O22: a probe ends with its times and its bytes counted, or with ERROR; a free tracker entry goes to the engine that waits longest. -/
theorem probeAndTracker : Obligations.ProbeAndTracker := by
  intro s
  refine ⟨?probe, ?tracker⟩
  case probe =>
    intro lo hi mean die n pa hp
    by_cases hbad : 9 < die ∨ n = 0 ∨ hbmBytes ≤ pa
    · obtain ⟨hstart, hdone⟩ := probe_ended (t := (s.setProbe none).clrBit KPR_PROBE_CTRL F.KPR_PROBE_CTRL_START) (w := probeError)
        (State.flag_clrBit (by decide)) (by decide)
      refine ⟨_, exec_probeDone_error hp hbad, rfl, hstart, hdone, rfl, fun h1 h2 h3 => ?_, fun _ => ⟨?_, ?_⟩⟩
      · exact absurd hbad (by unfold hbmBytes; omega)
      · rw [State.flag, fld_putReg_same]
        decide
      · exact keepRegs_putReg (keepRegs_putReg (t := s.setProbe none) keepRegs_refl (by simp)) (by simp)
    · obtain ⟨hctrl, hres⟩ := hbmReadBytes_ne (hbmStack pa)
      obtain ⟨hstart, hdone⟩ := probe_ended (w := probeResult lo hi mean (hbmStack pa))
        (t := ((s.setProbe none).clrBit KPR_PROBE_CTRL F.KPR_PROBE_CTRL_START).count (HBM_RD_BYTES (hbmStack pa)) (64 * n))
        (by rw [State.flag, State.count, fld_putReg_other hctrl.symm]; exact State.flag_clrBit (by decide)) fget_probeResult_done
      refine ⟨_, exec_probeDone_times hp hbad, rfl, hstart, hdone, rfl, fun _ _ _ hlo hhi hmean => ?_, fun h => absurd h hbad⟩
      obtain ⟨rlo, rhi, rmean, rstack, rerror⟩ := fget_probeResult hlo hhi hmean (hbmStack_lt pa)
      simp only [State.flag, fld_putReg_same, rlo, rhi, rmean, rstack, rerror]
      refine ⟨trivial, trivial, trivial, trivial, by decide, ?_, ?_⟩
      · rw [State.reg_putReg_other hres, State.reg_count_same, State.clrBit, State.reg_putFld_other hctrl]
        rfl
      · exact keepRegs_putReg (keepRegs_putReg (keepRegs_putReg (t := s.setProbe none) keepRegs_refl (by simp)) (by simp)) (by simp)
  case tracker =>
    intro die e rest hw hf
    obtain ⟨regs, free, he⟩ := exec_trackerEntryFree hw hf
    exact ⟨_, he, trackerWaits_freeTracker_same, fun d hd => trackerWaits_freeTracker_other hd, rfl, rfl⟩

end Sys2Proof.PackageArchitecture
end
